-- ==== Sys2Proof/Word.lean ====
section
/-!
DEFINITION. The word types of the KZ48 and the plain data that instructions, events and the state share:
register names, slots, messages, fabric frames and the units that can fail.
-/

namespace Sys2Proof

/-- A byte of memory (R2). -/
abbrev Byte := BitVec 8
/-- A 32-bit word: an instruction, a memory word with one tag, or a vector lane (R2, R13, R146). -/
abbrev Word32 := BitVec 32
/-- A 64-bit register value (R13). -/
abbrev Word := BitVec 64
/-- The number of a general register (R24, R25). -/
abbrev Reg := BitVec 5
/-- The number of a mask register (R13). -/
abbrev MReg := BitVec 3

/-- A vector operand as an instruction word names it: absolute `vn`, or relative `v[vi+n]` (R22, R26). -/
structure VReg where
  rel : Bool
  n : BitVec 5
  deriving DecidableEq, Repr

/-- One slot of one core. Compute core `die * 12800 + cluster * 128 + core` (R8); control core `n` is `102400 + n`. -/
structure SlotId where
  core : Nat
  slot : Fin 4
  deriving DecidableEq, Repr

/-- Compute cores of the package (R8). -/
def computeCores : Nat := 102400
/-- Compute cores and the 16 control cores. -/
def allCores : Nat := 102416

/-- A message in flight (R123, R124): an active message with its body, or a counter message with its decrement. -/
structure Msg where
  /-- The destination word (R123). -/
  dest : Word
  /-- SLOTID of the sender, 0 for the scheduler and the kernel's notices (R124, R233). -/
  sender : Word
  /-- FSTAT.XM of the sender (R67, R124). -/
  xm : Bool
  /-- The sender's context. -/
  ctx : Nat
  /-- `some e` for a counter message with decrement e. -/
  dec : Option (BitVec 16)
  /-- Body words of an active message. -/
  body : List Word32
  /-- Cores that have not accepted the message yet (one core, or the set of SENDB, R133). -/
  targets : List Nat
  /-- Refused by a full inbound queue since it was last tried (R125, R126). -/
  refused : Bool
  /-- It came over the fabric (R131, R277). -/
  fabric : Bool
  /-- A launch message, with the launch's number (R129), the stage it names and its group. -/
  launch : Option (Nat × Nat × BitVec 8)
  /-- Sent inside an open remote region, by this slot's request of this number (R282). -/
  region : Option (SlotId × Nat)
  /-- Stores of the sender, by number, that are performed before the message is delivered (R127). -/
  after : List Nat
  deriving DecidableEq, Repr

/-- What a request asks of a peer package (R275). Offsets are window offsets. -/
inductive PeerOp where
  | read (off n : Nat)
  | write (off : Nat) (bytes : List Byte)
  /-- A write of a pour engine, with the words, by window offset / 4, that it sets full: the engine has now written them whole (R147). -/
  | put (off : Nat) (bytes : List Byte) (full : List Nat)
  | tag (off : Nat) (full : Bool)
  | syncLoad (off n : Nat) (empties : Bool)
  | syncStore (off : Nat) (bytes : List Byte) (waitsEmpty : Bool)
  | amo (fn : Nat) (wide : Bool) (off : Nat) (b o : Word)
  /-- A routine call with the REPLY and ALIGN8 bits that the issuing core used (R202). -/
  | ship (entry : Nat) (reply wide : Bool) (off : Nat) (b o : Word)
  | chain (off : Nat)
  deriving DecidableEq, Repr

/-- What a frame of the fabric carries (R269, R272). -/
inductive FrameBody where
  | access (op : PeerOp)
  | msg (m : Msg)
  | post (kind : Bool) (ch : BitVec 8) (count : BitVec 16)
  | block (off : Nat) (bytes : List Byte) (reduce : Bool) (notify : Word) (sender : Word) (xm : Bool)
  /-- An answer: its code (R281; 0 performed; log 26 lists the others), its data, and the grant entry the access was accepted under
  (R276). -/
  | reply (code : Nat) (data : List Byte) (entry : Option Nat)
  /-- A pull for a trimmed frame of the same slot, request and element; `reply` if it was an answer (R280). -/
  | pull (reply : Bool)
  /-- Withdraws the access of the same slot, request and element from the queue in which it waits for a tag (R161). -/
  | withdraw
  deriving DecidableEq, Repr

/-- A frame: source and target device, the source slot, request and element it belongs to, its sequence number among the frames of
that slot to that device (R267, R278), how often it was trimmed, and the port die that sent it last (R269, R279, R280). An answer
bears the slot, request and element that it answers. -/
structure Frame where
  src : Nat
  dst : Nat
  slot : SlotId
  req : Nat
  elem : Nat
  seq : Nat
  trims : Nat
  port : Nat
  body : FrameBody
  deriving DecidableEq, Repr

/-- A resource that can have errors: the units of the rows of R295, and those parts of a stack or a cluster that R293 counts by
themselves and R295 retires with the whole. -/
inductive RUnit where
  | dramRow (stack ch bank row : Nat)
  | dramBank (stack ch bank : Nat)
  | dramStack (stack : Nat)
  | cremaFrame (bank frame : Nat)
  | cremaBank (bank : Nat)
  | slice (n : Nat)
  | pour (n : Nat)
  | core (core : Nat)
  | cluster (die cluster : Nat)
  | die (die : Nat)
  | lane (link lane : Nat)
  | link (link : Nat)
  | wavelength (port fibre wave : Nat)
  | controlCore (n : Nat)
  | channel (stack ch : Nat)
  | dramDie (stack n : Nat)
  | carafe (stack : Nat)
  | router (die cluster : Nat)
  | matrixEngine (die cluster : Nat)
  | copyUnit (die cluster : Nat)
  | sramTier (die cluster : Nat)
  deriving DecidableEq, Repr

/-- What a fault-queue record holds beside the time (R258). -/
structure FaultRec where
  cause : BitVec 8
  source : BitVec 4
  tval : Word
  slotid : Word
  launchid : Word
  extra : Word
  va : Word
  deriving DecidableEq, Repr

end Sys2Proof
end

