-- ==== Sys2Proof/Config.lean ====
section
/-!
DEFINITION. What the spec leaves to the implementation or leaves open, as constants without a body: nothing in Lean can
evaluate them, so a statement holds whatever they are. `n` is the counter State.fresh, read and advanced by the step.
-/

namespace Sys2Proof.Config

/-- The n-th value that the spec leaves undefined (contents of a lost block, R296; of saved VLDF lanes, R262). -/
opaque freeValue (n : Nat) : BitVec 64

/-- Which of its two ways a set of the core data cache gives up to a fill (R144). -/
opaque evictWay (n : Nat) : Bool

/-- The home Crema bank of a physical address, from PA[39:7], and the set of the bank that holds its line: hashes that no software can
change (R143, R145). -/
opaque homeBank (line : Nat) : BitVec 9
opaque cremaSet (line : Nat) : BitVec 10

/-- Frames beyond the first that a port die has room to keep for retransmission (R279). -/
opaque retransmitSpace : Nat

/-- Slots of the pool that the channels of a die link share at each end, beyond the 16 of each (R268). -/
opaque poolSlots : Nat

/-- Spare lanes of a die link (R295). -/
opaque spareLanes (link : Nat) : Nat

/-- A die stands at the position of a port (R311). -/
opaque present (port : Nat) : Bool

/-- The vendor code, the identity word and, for the base, the live modules that the die at a port answers (R311, R316). -/
opaque vendor (port : Nat) : BitVec 16
opaque identity (port : Nat) : BitVec 64
opaque modules (port : Nat) : BitVec 8

end Sys2Proof.Config
end

