-- ==== Sys2Proof/Machine/Map.lean ====
section
/-!
DEFINITION. Sparse maps from numbers as sorted lists of pairs: plain data with one form for equal contents. Memory, tags
and every large table of the machine are held so.
-/

namespace Sys2Proof.Machine

/-- A sparse map: keys strictly rising. -/
abbrev SMap (β : Type) := List (Nat × β)

/-- The value at key k, `d` where the map lists none. -/
def mget {β : Type} (d : β) : SMap β → Nat → β
  | [], _ => d
  | (k', v) :: rest, k => if k' = k then v else if k < k' then d else mget d rest k

/-- The value listed at key k. -/
def mfind {β : Type} : SMap β → Nat → Option β
  | [], _ => none
  | (k', v) :: rest, k => if k' = k then some v else if k < k' then none else mfind rest k

/-- Lists v at key k. -/
def mput {β : Type} : SMap β → Nat → β → SMap β
  | [], k, v => [(k, v)]
  | (k', v') :: rest, k, v =>
    if k' = k then (k, v) :: rest
    else if k < k' then (k, v) :: (k', v') :: rest
    else (k', v') :: mput rest k v

/-- Lists nothing at key k. -/
def mdel {β : Type} : SMap β → Nat → SMap β
  | [], _ => []
  | (k', v') :: rest, k =>
    if k' = k then rest else if k < k' then (k', v') :: rest else (k', v') :: mdel rest k

/-- The map that reads v at key k; a value equal to `d` is not listed. -/
def mset {β : Type} [DecidableEq β] (d : β) (m : SMap β) (k : Nat) (v : β) : SMap β :=
  if v = d then mdel m k else mput m k v

/-- Every key of the map is above `lo`, keys rise strictly and no value is `d`. -/
def mwfFrom {β : Type} [DecidableEq β] (d : β) : Option Nat → SMap β → Bool
  | _, [] => true
  | lo, (k, v) :: rest =>
    (match lo with | none => true | some l => decide (l < k)) && decide (v ≠ d) && mwfFrom d (some k) rest

/-- The canonical form: keys strictly rising and no listed value equal to what an unlisted key reads as. -/
def mwf {β : Type} [DecidableEq β] (d : β) (m : SMap β) : Bool := mwfFrom d none m

/-- The map with its entries of keys in [lo, hi) removed. -/
def mclear {β : Type} (m : SMap β) (lo hi : Nat) : SMap β := m.filter (fun p => p.1 < lo || hi ≤ p.1)

/-- The entries of keys in [lo, hi). -/
def mrange {β : Type} (m : SMap β) (lo hi : Nat) : SMap β := m.filter (fun p => lo ≤ p.1 && p.1 < hi)

end Sys2Proof.Machine
end

