-- ==== Sys2Proof/Syntax.lean ====
section
/-!
DEFINITION. The instructions and steps of the KZ48: one constructor for each row of spec/opcode_table.json.
The first 215 are instruction words. Their arguments are the fields of the word: `d`, `a`, `b`, `g`, `s` name registers,
`x` and `y` are the w bits of the a and b sources (R14, R24), `m` is the mask field, `i`, `o` are immediates, `z` is the
size code. The rest, from `illop` on, are the device's own steps; their arguments say which unit moves.
-/

namespace Sys2Proof

inductive Instr where
  /-- ADD (R68). Writes ga + gb modulo 2^64 to gd. -/
  | add (d a b : Reg) (x y : Bool)
  /-- SUB (R68). Writes ga - gb modulo 2^64 to gd. -/
  | sub (d a b : Reg) (x y : Bool)
  /-- AND (R68). Writes the bitwise AND of ga and gb to gd. -/
  | and (d a b : Reg) (x y : Bool)
  /-- OR (R68). Writes the bitwise OR of ga and gb to gd. -/
  | or (d a b : Reg) (x y : Bool)
  /-- XOR (R68). Writes the bitwise XOR of ga and gb to gd. -/
  | xor (d a b : Reg) (x y : Bool)
  /-- ANDN (R68). Writes ga AND NOT gb to gd. -/
  | andn (d a b : Reg) (x y : Bool)
  /-- SLL (R68). Shifts ga left by gb[5:0] into gd. -/
  | sll (d a b : Reg) (x y : Bool)
  /-- SRL (R68). Shifts ga logically right by gb[5:0] into gd. -/
  | srl (d a b : Reg) (x y : Bool)
  /-- SRA (R68). Shifts ga arithmetically right by gb[5:0] into gd. -/
  | sra (d a b : Reg) (x y : Bool)
  /-- ROL (R68). Rotates ga left by gb[5:0] into gd. -/
  | rol (d a b : Reg) (x y : Bool)
  /-- SLT (R68). Writes 1 to gd if ga < gb signed, else 0. -/
  | slt (d a b : Reg) (x y : Bool)
  /-- SLTU (R68). Writes 1 to gd if ga < gb unsigned, else 0. -/
  | sltu (d a b : Reg) (x y : Bool)
  /-- MIN (R68). Writes the signed minimum of ga and gb to gd. -/
  | min (d a b : Reg) (x y : Bool)
  /-- MAX (R68). Writes the signed maximum of ga and gb to gd. -/
  | max (d a b : Reg) (x y : Bool)
  /-- MINU (R68). Writes the unsigned minimum of ga and gb to gd. -/
  | minu (d a b : Reg) (x y : Bool)
  /-- MAXU (R68). Writes the unsigned maximum of ga and gb to gd. -/
  | maxu (d a b : Reg) (x y : Bool)
  /-- MUL (R68). Writes the low 64 bits of ga x gb to gd. -/
  | mul (d a b : Reg) (x y : Bool)
  /-- MULH (R68). Writes the high 64 bits of the signed product to gd. -/
  | mulh (d a b : Reg) (x y : Bool)
  /-- MULHU (R68). Writes the high 64 bits of the unsigned product to gd. -/
  | mulhu (d a b : Reg) (x y : Bool)
  /-- DIV (R69). Writes the signed quotient to gd, never trapping. -/
  | div (d a b : Reg) (x y : Bool)
  /-- DIVU (R69). Writes the unsigned quotient to gd, never trapping. -/
  | divu (d a b : Reg) (x y : Bool)
  /-- REM (R69). Writes the signed remainder to gd. -/
  | rem (d a b : Reg) (x y : Bool)
  /-- REMU (R69). Writes the unsigned remainder to gd. -/
  | remu (d a b : Reg) (x y : Bool)
  /-- CLZ (R68). Writes the count of leading zero bits of ga to gd. -/
  | clz (d a : Reg) (x : Bool)
  /-- CTZ (R68). Writes the count of trailing zero bits of ga to gd. -/
  | ctz (d a : Reg) (x : Bool)
  /-- POPC (R68). Writes the count of one bits of ga to gd. -/
  | popc (d a : Reg) (x : Bool)
  /-- SEXTB (R68). Sign-extends ga[7:0] into gd. -/
  | sextb (d a : Reg) (x : Bool)
  /-- SEXTH (R68). Sign-extends ga[15:0] into gd. -/
  | sexth (d a : Reg) (x : Bool)
  /-- SEXTW (R68). Sign-extends ga[31:0] into gd. -/
  | sextw (d a : Reg) (x : Bool)
  /-- ZEXTW (R68). Zero-extends ga[31:0] into gd. -/
  | zextw (d a : Reg) (x : Bool)
  /-- BSWAP (R68). Writes the bytes of ga in reverse order to gd. -/
  | bswap (d a : Reg) (x : Bool)
  /-- SELNZ (R68). Writes ga to gd if gb is non-zero, else 0. -/
  | selnz (d a b : Reg) (x y : Bool)
  /-- ADDI (R70). Writes ga plus the sign-extended immediate to gd. -/
  | addi (d a : Reg) (x : Bool) (i : BitVec 15)
  /-- ANDI (R70). Writes ga AND the zero-extended immediate to gd. -/
  | andi (d a : Reg) (x : Bool) (i : BitVec 15)
  /-- ORI (R70). Writes ga OR the zero-extended immediate to gd. -/
  | ori (d a : Reg) (x : Bool) (i : BitVec 15)
  /-- XORI (R70). Writes ga XOR the zero-extended immediate to gd. -/
  | xori (d a : Reg) (x : Bool) (i : BitVec 15)
  /-- SLTI (R70). Writes 1 to gd if ga is below the signed immediate. -/
  | slti (d a : Reg) (x : Bool) (i : BitVec 15)
  /-- SLTIU (R70). Writes 1 to gd if ga is below the sign-extended immediate, compared unsigned. -/
  | sltiu (d a : Reg) (x : Bool) (i : BitVec 15)
  /-- SLLI (R70). Shifts ga left by an immediate amount into gd. -/
  | slli (d a : Reg) (x : Bool) (s : BitVec 6)
  /-- SRLI (R70). Shifts ga logically right by an immediate amount into gd. -/
  | srli (d a : Reg) (x : Bool) (s : BitVec 6)
  /-- SRAI (R70). Shifts ga arithmetically right by an immediate amount into gd. -/
  | srai (d a : Reg) (x : Bool) (s : BitVec 6)
  /-- ROLI (R70). Rotates ga left by an immediate amount into gd. -/
  | roli (d a : Reg) (x : Bool) (s : BitVec 6)
  /-- LUI (R71). Sets gd to the sign-extended immediate shifted left by 15. -/
  | lui (d : Reg) (i : BitVec 21)
  /-- LIH (R71). Replaces bits [63:36] of gd with the sign-extended immediate. -/
  | lih (d : Reg) (i : BitVec 21)
  /-- ADDPC (R71). Sets gd to pc plus the scaled immediate. -/
  | addpc (d : Reg) (i : BitVec 21)
  /-- LD (R74). Blocking load into gd, reporting every fault precisely. -/
  | ld (d a : Reg) (x : Bool) (z : BitVec 3) (o : BitVec 12)
  /-- LDN (R75). Non-blocking load that empties gd at issue and fills it when the value lands. -/
  | ldn (d a : Reg) (x : Bool) (z : BitVec 3) (o : BitVec 12)
  /-- LDF (R160). Waits for the word to be full and loads it, leaving the tag full. -/
  | ldf (d a : Reg) (x : Bool) (z : BitVec 3) (o : BitVec 12)
  /-- LDFE (R160). Waits for the word to be full, loads it and sets it empty. -/
  | ldfe (d a : Reg) (x : Bool) (z : BitVec 3) (o : BitVec 12)
  /-- ST (R76). Posted store of the low bytes of gs. -/
  | st (s a : Reg) (x : Bool) (z : BitVec 3) (o : BitVec 12)
  /-- STE (R160). Waits for the word to be empty, stores and sets it full. -/
  | ste (s a : Reg) (x : Bool) (z : BitVec 3) (o : BitVec 12)
  /-- STF (R160). Stores and sets the word full as a release. -/
  | stf (s a : Reg) (x : Bool) (z : BitVec 3) (o : BitVec 12)
  /-- AMOADD (R162). Atomic add at the point of coherence, returning the old value. -/
  | amoadd (d a b : Reg) (x y : Bool) (c : BitVec 3) (w : Bool)
  /-- AMOAND (R162). Atomic AND, returning the old value. -/
  | amoand (d a b : Reg) (x y : Bool) (c : BitVec 3) (w : Bool)
  /-- AMOOR (R162). Atomic OR, returning the old value. -/
  | amoor (d a b : Reg) (x y : Bool) (c : BitVec 3) (w : Bool)
  /-- AMOXOR (R162). Atomic XOR, returning the old value. -/
  | amoxor (d a b : Reg) (x y : Bool) (c : BitVec 3) (w : Bool)
  /-- AMOMIN (R162). Atomic signed minimum, returning the old value. -/
  | amomin (d a b : Reg) (x y : Bool) (c : BitVec 3) (w : Bool)
  /-- AMOMAX (R162). Atomic signed maximum, returning the old value. -/
  | amomax (d a b : Reg) (x y : Bool) (c : BitVec 3) (w : Bool)
  /-- AMOMINU (R162). Atomic unsigned minimum, returning the old value. -/
  | amominu (d a b : Reg) (x y : Bool) (c : BitVec 3) (w : Bool)
  /-- AMOMAXU (R162). Atomic unsigned maximum, returning the old value. -/
  | amomaxu (d a b : Reg) (x y : Bool) (c : BitVec 3) (w : Bool)
  /-- AMOSWAP (R162). Atomic swap, returning the old value. -/
  | amoswap (d a b : Reg) (x y : Bool) (c : BitVec 3) (w : Bool)
  /-- AMOCAS (R162). Atomic compare-and-swap against gd, returning the old value. -/
  | amocas (d a b : Reg) (x y : Bool) (c : BitVec 3) (w : Bool)
  /-- AMOFADD (R162). Atomic FP32 add under RNE, returning the old value. -/
  | amofadd (d a b : Reg) (x y : Bool) (c : BitVec 3)
  /-- BEQ (R79). Branches if ga equals gb. -/
  | beq (a b : Reg) (x y : Bool) (o : BitVec 14)
  /-- BNE (R79). Branches if ga differs from gb. -/
  | bne (a b : Reg) (x y : Bool) (o : BitVec 14)
  /-- BLT (R79). Branches if ga < gb signed. -/
  | blt (a b : Reg) (x y : Bool) (o : BitVec 14)
  /-- BGE (R79). Branches if ga >= gb signed. -/
  | bge (a b : Reg) (x y : Bool) (o : BitVec 14)
  /-- BLTU (R79). Branches if ga < gb unsigned. -/
  | bltu (a b : Reg) (x y : Bool) (o : BitVec 14)
  /-- BGEU (R79). Branches if ga >= gb unsigned. -/
  | bgeu (a b : Reg) (x y : Bool) (o : BitVec 14)
  /-- JAL (R79). Writes pc + 4 to gd and jumps pc-relative. -/
  | jal (d : Reg) (i : BitVec 21)
  /-- JALR (R79). Jumps to ga plus an offset, writing pc + 4 to gd. -/
  | jalr (d a : Reg) (x : Bool) (i : BitVec 15)
  /-- SEND (R133). Builds an active message from a scratchpad body and enqueues it outbound. -/
  | send (a b : Reg) (x y : Bool)
  /-- SENDC (R133). Enqueues a counter message with a decrement. -/
  | sendc (a b : Reg) (x y : Bool)
  /-- SENDB (R133). Enqueues an active message to a set of cores of one cluster. -/
  | sendb (d a b : Reg) (x y : Bool)
  /-- HRET (R134). Ends the activation and clears the starting channel's BUSY. -/
  | hret
  /-- HYIELD (R134). Sets the starting channel's HADDR and ends the activation. -/
  | hyield (a : Reg) (x : Bool)
  /-- CHSET (R134). Reads and optionally writes a channel entry field, applying the firing rule. -/
  | chset (d a b : Reg) (x y : Bool)
  /-- CHMASK (R134). Masks and unmasks channels, returning the old mask vector. -/
  | chmask (d a b : Reg) (x y : Bool)
  /-- CHARM (R134). Sets a channel's COUNT, arms it and applies the firing rule. -/
  | charm (d a b : Reg) (x y : Bool)
  /-- FORK (R139). Pushes a plain task onto the core's deque. -/
  | fork (d a b : Reg) (x y : Bool)
  /-- TASKEND (R139). Sends a counter message to the join and ends the activation. -/
  | taskend (a : Reg) (x : Bool)
  /-- REJOIN (R139). Deposits a range task with the activation's join. -/
  | rejoin (d a b : Reg) (x y : Bool)
  /-- TRIG (R139). Marks the activation's group triggered as a release at package scope. -/
  | trig
  /-- JOINCH (R139). Swaps the slot's join channel. -/
  | joinch (d a : Reg) (x : Bool)
  /-- FENCE_ACQ (R156). Acquire fence at a scope, optionally discarding fetched instructions. -/
  | fenceAcq (s : BitVec 3) (i : Bool)
  /-- FENCE_REL (R156). Release fence at a scope, cumulative. -/
  | fenceRel (s : BitVec 3) (i : Bool)
  /-- FENCE_FULL (R156). Full fence at a scope. -/
  | fenceFull (s : BitVec 3) (i : Bool)
  /-- FENCESC (R156). Sequentially consistent full fence at a scope. -/
  | fencesc (s : BitVec 3)
  /-- RBEGIN (R282). Checkpoints g1–g31 and opens a remote region. -/
  | rbegin (d : Reg)
  /-- RCOMMIT (R282). Waits for the region's remote operations and closes it. -/
  | rcommit
  /-- RABORT (R282). Rolls the open remote region back with a software code. -/
  | rabort (a : Reg) (x : Bool)
  /-- WAITC (R164). Blocks while a completion counter is at or above a threshold, then acquires. -/
  | waitc (c : BitVec 4) (a : Reg) (x : Bool)
  /-- SHIP (R202). Ships a routine call to the owner of the target word. -/
  | ship (d a b : Reg) (x y : Bool) (n : BitVec 8)
  /-- CHAIN (R208). Sends a chained-load packet that owners dereference step by step. -/
  | chain (d a b : Reg) (x y : Bool)
  /-- ROWOPEN (R213). Hints the bank to activate a row. -/
  | rowopen (a : Reg) (x : Bool)
  /-- ROWHOLD (R213). Holds a DRAM row for the context and returns a result word. -/
  | rowhold (d a : Reg) (x : Bool)
  /-- ROWREL (R213). Releases a held row by handle, writing it back. -/
  | rowrel (a : Reg) (x : Bool)
  /-- ROWQ (R213). Returns the state of a hold handle. -/
  | rowq (d a : Reg) (x : Bool)
  /-- NBPROG (R217). Starts a near-bank microprogram on a set of banks. -/
  | nbprog (d a : Reg) (x : Bool)
  /-- NBSTAT (R221). Reports the state of a near-bank program on a bank. -/
  | nbstat (d a : Reg) (x : Bool)
  /-- VADD (R95). Lanewise 32-bit integer add. -/
  | vadd (vd va vb : VReg) (m : MReg)
  /-- VSUB (R95). Lanewise 32-bit integer subtract. -/
  | vsub (vd va vb : VReg) (m : MReg)
  /-- VMUL (R95). Lanewise low 32-bit product. -/
  | vmul (vd va vb : VReg) (m : MReg)
  /-- VMULH (R95). Lanewise high 32 bits of the signed product. -/
  | vmulh (vd va vb : VReg) (m : MReg)
  /-- VAND (R95). Lanewise bitwise AND. -/
  | vand (vd va vb : VReg) (m : MReg)
  /-- VOR (R95). Lanewise bitwise OR. -/
  | vor (vd va vb : VReg) (m : MReg)
  /-- VXOR (R95). Lanewise bitwise XOR. -/
  | vxor (vd va vb : VReg) (m : MReg)
  /-- VSLL (R95). Lanewise left shift. -/
  | vsll (vd va vb : VReg) (m : MReg)
  /-- VSRL (R95). Lanewise logical right shift. -/
  | vsrl (vd va vb : VReg) (m : MReg)
  /-- VSRA (R95). Lanewise arithmetic right shift. -/
  | vsra (vd va vb : VReg) (m : MReg)
  /-- VMIN (R95). Lanewise signed minimum. -/
  | vmin (vd va vb : VReg) (m : MReg)
  /-- VMAX (R95). Lanewise signed maximum. -/
  | vmax (vd va vb : VReg) (m : MReg)
  /-- VMINU (R95). Lanewise unsigned minimum. -/
  | vminu (vd va vb : VReg) (m : MReg)
  /-- VMAXU (R95). Lanewise unsigned maximum. -/
  | vmaxu (vd va vb : VReg) (m : MReg)
  /-- VCMPEQ (R96). Writes a mask of lanes where a equals b. -/
  | vcmpeq (d : MReg) (va vb : VReg) (m : MReg)
  /-- VCMPLT (R96). Writes a mask of lanes where a < b signed. -/
  | vcmplt (d : MReg) (va vb : VReg) (m : MReg)
  /-- VCMPLTU (R96). Writes a mask of lanes where a < b unsigned. -/
  | vcmpltu (d : MReg) (va vb : VReg) (m : MReg)
  /-- VABS (R95). Lanewise absolute value modulo 2^32. -/
  | vabs (vd va : VReg) (m : MReg)
  /-- VFADD (R97). Lanewise FP32 add. -/
  | vfadd (vd va vb : VReg) (m : MReg)
  /-- VFSUB (R97). Lanewise FP32 subtract. -/
  | vfsub (vd va vb : VReg) (m : MReg)
  /-- VFMUL (R97). Lanewise FP32 multiply. -/
  | vfmul (vd va vb : VReg) (m : MReg)
  /-- VFFMA (R97). Lanewise fused multiply-add into vd. -/
  | vffma (vd va vb : VReg) (m : MReg)
  /-- VFMIN (R97). Lanewise minimumNumber. -/
  | vfmin (vd va vb : VReg) (m : MReg)
  /-- VFMAX (R97). Lanewise maximumNumber. -/
  | vfmax (vd va vb : VReg) (m : MReg)
  /-- VFDIV (R97). Lanewise FP32 divide. -/
  | vfdiv (vd va vb : VReg) (m : MReg)
  /-- VFSQRT (R97). Lanewise square root. -/
  | vfsqrt (vd va : VReg) (m : MReg)
  /-- VFRCP (R97). Lanewise correctly rounded reciprocal. -/
  | vfrcp (vd va : VReg) (m : MReg)
  /-- VFRSQ (R97). Lanewise correctly rounded reciprocal square root. -/
  | vfrsq (vd va : VReg) (m : MReg)
  /-- VFEXP2 (R98). Lanewise correctly rounded 2^a. -/
  | vfexp2 (vd va : VReg) (m : MReg)
  /-- VFLOG2 (R98). Lanewise correctly rounded log2 a. -/
  | vflog2 (vd va : VReg) (m : MReg)
  /-- VFCMP (R99). Lanewise comparison code as FCMP. -/
  | vfcmp (vd va vb : VReg) (m : MReg)
  /-- VCVT (R102). Lanewise or block conversion selected by a code. -/
  | vcvt (vd va : VReg) (c : BitVec 5) (m : MReg)
  /-- VRED (R101). Reduces active lanes into lane 0 by a fixed tree. -/
  | vred (vd va : VReg) (o : BitVec 5) (m : MReg)
  /-- VDOT2 (R100). Lanewise BF16 pair dot product accumulated into vd. -/
  | vdot2 (vd va vb : VReg) (m : MReg)
  /-- VLD (R108). Contiguous vector load as a long-latency producer. -/
  | vld (vd : VReg) (g : Reg) (m : MReg)
  /-- VST (R109). Posted contiguous vector store. -/
  | vst (vd : VReg) (g : Reg) (m : MReg)
  /-- VLDS (R108). Strided vector load. -/
  | vlds (vd : VReg) (s g : Reg) (m : MReg)
  /-- VSTS (R109). Posted strided vector store. -/
  | vsts (vd : VReg) (s g : Reg) (m : MReg)
  /-- VGATH (R108). Indexed vector gather. -/
  | vgath (vd va : VReg) (g : Reg) (m : MReg)
  /-- VSCAT (R109). Posted indexed vector scatter. -/
  | vscat (vd va : VReg) (g : Reg) (m : MReg)
  /-- VLDF (R111). Vector load whose lanes each wait for a full word. -/
  | vldf (vd : VReg) (g : Reg) (m : MReg)
  /-- VMOVG_TO_MASK (R112). Writes ga[15:0] into a mask register. -/
  | vmovgToMask (d : MReg) (g : Reg)
  /-- VMOVG_FROM_MASK (R112). Writes a mask register zero-extended into a g register. -/
  | vmovgFromMask (d : Reg) (a : MReg)
  /-- VMOVV (R112). Copies active lanes of va into vd. -/
  | vmovv (vd va : VReg) (m : MReg)
  /-- VBCAST (R112). Broadcasts ga[31:0] into active lanes. -/
  | vbcast (vd : VReg) (g : Reg) (m : MReg)
  /-- VEXT (R112). Extracts one lane into a g register. -/
  | vext (d : Reg) (va : VReg) (g : Reg)
  /-- VINS (R112). Inserts ga[31:0] into one lane of vd. -/
  | vins (vd : VReg) (l : BitVec 4) (g : Reg)
  /-- VSEL (R112). Selects lanes from va or vb under a selector mask. -/
  | vsel (vd va vb : VReg) (m : MReg)
  /-- VSHUF (R112). Permutes lanes of va by indices in vb. -/
  | vshuf (vd va vb : VReg) (m : MReg)
  /-- VIADD (R113). Adds ga to vi with an optional wrap modulus. -/
  | viadd (w : BitVec 5) (g : Reg)
  /-- MAND (R112). Bitwise AND of two masks. -/
  | mand (d a b : MReg)
  /-- MOR (R112). Bitwise OR of two masks. -/
  | mor (d a b : MReg)
  /-- MNOT (R112). Bitwise NOT of a mask. -/
  | mnot (d a : MReg)
  /-- MPOP (R112). Counts the set bits of a mask into gd. -/
  | mpop (d : Reg) (a : MReg)
  /-- ECFG (R174). Writes an engine register from ga at issue. -/
  | ecfg (n : BitVec 6) (a : Reg) (x : Bool)
  /-- EREAD (R174). Reads an engine register into gd as an engine read. -/
  | eread (d : Reg) (n : BitVec 6)
  /-- FLDSET (R174). Writes a descriptor doubleword, blocking while a remap runs. -/
  | fldset (n : BitVec 4) (a : Reg) (w : BitVec 3) (x : Bool)
  /-- FLDGET (R174). Reads a descriptor doubleword as an engine read. -/
  | fldget (d : Reg) (n : BitVec 4) (w : BitVec 3)
  /-- MMA (R183). Queues a tiled matrix-multiply job into accumulator memory. -/
  | mma (d b : Reg) (y : Bool)
  /-- APPLY (R184). Queues a job applying a small matrix along logical index bits of a field. -/
  | apply (d b : Reg) (y : Bool)
  /-- DIAG (R185). Queues a job multiplying a field by a diagonal vector. -/
  | diag (d b : Reg) (y : Bool)
  /-- PERM (R186). Relabels the logical bits of a descriptor at issue. -/
  | perm (n : BitVec 4) (a : Reg) (x : Bool)
  /-- MATL (R192). Queues a job remapping a field to the identity map. -/
  | matl (d b : Reg) (y : Bool)
  /-- ACCLD (R194). Queues a job loading memory into accumulator words. -/
  | accld (d b : Reg) (y : Bool)
  /-- ACCST (R194). Queues a job storing accumulator words to memory with rounding. -/
  | accst (d b : Reg) (y : Bool)
  /-- ACCZ (R194). Queues a job zeroing accumulator words. -/
  | accz (d b : Reg) (y : Bool)
  /-- ESTAT (R196). Reads a job's status, fault address, progress or the window size. -/
  | estat (d a : Reg) (x : Bool)
  /-- CTLOAD (R198). Queues a job loading the inactive code-table bank. -/
  | ctload (d a b : Reg) (x y : Bool)
  /-- CTSWAP (R198). Makes the inactive code-table bank active. -/
  | ctswap (d : Reg)
  /-- ERESUME (R197). Continues a stopped job from its progress. -/
  | eresume (d a b : Reg) (x y : Bool)
  /-- ABANDON (R197). ERESUME with ABANDON set: removes a stopped job and decrements its counter. -/
  | abandon (d a b : Reg) (x y : Bool)
  /-- LCOPY (R165). Queues a copy-unit job copying or converting rows. -/
  | lcopy (d a b : Reg) (x y : Bool)
  /-- PCOPY (R165). Queues a pour-engine copy job, local or peer. -/
  | pcopy (d a b : Reg) (x y : Bool)
  /-- PFILL (R165). Queues a pour-engine fill job with gd's value. -/
  | pfill (d a b : Reg) (x y : Bool)
  /-- PTAG (R165). Queues a pour-engine job setting word tags. -/
  | ptag (d a b : Reg) (x y : Bool)
  /-- PREMAP (R192). Queues a remap of a field to a bit mask, shadow or in place. -/
  | premap (d a b : Reg) (x y : Bool)
  /-- PSCRUB (R301). Queues a scrub job over a range of lines with an error bitmap. -/
  | pscrub (d a b : Reg) (x y : Bool)
  /-- PCOLL (R286). Queues a job sending a list of PUT or REDUCE blocks. -/
  | pcoll (d a b : Reg) (x y : Bool)
  /-- PSLOT_LOAD_ENTRIES (R288). PSLOT OPN 0: loads slot-table entries from an image. -/
  | pslotLoadEntries (d a b : Reg) (x y : Bool)
  /-- PSLOT_STORE_ENTRIES (R288). PSLOT OPN 1: stores slot-table entries to an image. -/
  | pslotStoreEntries (d a b : Reg) (x y : Bool)
  /-- PSLOT_LOAD_CONTROL (R288). PSLOT OPN 2: loads the slot-table control pair. -/
  | pslotLoadControl (d a b : Reg) (x y : Bool)
  /-- PSLOT_STATUS (R288). PSLOT OPN 3: returns the slot-table status. -/
  | pslotStatus (d a b : Reg) (x y : Bool)
  /-- PQ (R289). Returns reachability, queue depth and next window of a device. -/
  | pq (d a : Reg) (x : Bool)
  /-- BRWLD (R239). Loads brew entries, templates or stash addresses from an image. -/
  | brwld (d a b : Reg) (x y : Bool)
  /-- BRWARM (R240). Arms a brew window for a stage. -/
  | brwarm (d a b : Reg) (x y : Bool)
  /-- DISARM (R240). BRWARM with DISARM set: stops the window launching. -/
  | disarm (d a b : Reg) (x y : Bool)
  /-- BRWPOST (R241). Posts a count to a brew or dependence channel, locally or at a peer. -/
  | brwpost (d a b : Reg) (x y : Bool)
  /-- BRWFREE (R242). Frees a stash slot. -/
  | brwfree (d a : Reg) (x : Bool)
  /-- BRWQ (R243). Returns brew status, counts, entry or stash state. -/
  | brwq (d a : Reg) (x : Bool)
  /-- CSRR (R83). Reads a CSR into gd. -/
  | csrr (d : Reg) (c : BitVec 12)
  /-- CSRW (R83). Writes a CSR from ga, returning the old value. -/
  | csrw (d a : Reg) (c : BitVec 12)
  /-- CSRS (R83). Sets CSR bits from ga, returning the old value. -/
  | csrs (d a : Reg) (c : BitVec 12)
  /-- CSRC (R83). Clears CSR bits from ga, returning the old value. -/
  | csrc (d a : Reg) (c : BitVec 12)
  /-- TRAP (R89). Posts a service request to the kernel with a code below 0x800. -/
  | trap (d a : Reg) (c : BitVec 11)
  /-- BRKPT (R89). TRAP with a code from 0x800 traps BRKPT. -/
  | brkpt (c : BitVec 11)
  /-- ERET (R249). Returns from a kernel trap on a control core. -/
  | eret
  /-- UPRET (R88). Restores a fibre record and reissues its replay entries. -/
  | upret
  /-- WFE (R90). Blocks until an event or a time limit. -/
  | wfe (d a : Reg)
  /-- ROUTLD (R207). Installs a loadable routine or microprogram in every Carafe. -/
  | routld (d a : Reg) (i : BitVec 8)
  /-- FADD (R80). Scalar FP32 add. -/
  | fadd (d a b : Reg) (x y : Bool)
  /-- FSUB (R80). Scalar FP32 subtract. -/
  | fsub (d a b : Reg) (x y : Bool)
  /-- FMUL (R80). Scalar FP32 multiply. -/
  | fmul (d a b : Reg) (x y : Bool)
  /-- FFMA (R80). Scalar fused multiply-add into gd. -/
  | ffma (d a b : Reg) (x y : Bool)
  /-- FDIV (R80). Scalar FP32 divide. -/
  | fdiv (d a b : Reg) (x y : Bool)
  /-- FSQRT (R80). Scalar FP32 square root. -/
  | fsqrt (d a : Reg) (x : Bool)
  /-- FMIN (R80). Scalar minimumNumber. -/
  | fmin (d a b : Reg) (x y : Bool)
  /-- FMAX (R80). Scalar maximumNumber. -/
  | fmax (d a b : Reg) (x y : Bool)
  /-- FCMP (R80). Scalar FP32 comparison code. -/
  | fcmp (d a b : Reg) (x y : Bool)
  /-- FCVT (R81). Scalar conversion between the formats named in gb. -/
  | fcvt (d a b : Reg) (x y : Bool)
  /-- FCLASS (R80). Classifies an FP32 value into one bit of gd. -/
  | fclass (d a : Reg) (x : Bool)
  /-- ADDP (R82). Adds a byte count to a pointer's address, keeping its format. -/
  | addp (d a b : Reg) (x y : Bool)
  /-- PFMT (R82). Sets a pointer's format code and matching BLK. -/
  | pfmt (d a b : Reg) (x y : Bool)
  /-- PIDX (R82). Advances a pointer by a count of elements or records. -/
  | pidx (d a b : Reg) (x y : Bool)
  /-- PDIFF (R82). Returns the element distance between two pointers. -/
  | pdiff (d a b : Reg) (x y : Bool)
  /-- PSTRIP (R82). Clears a pointer's format byte. -/
  | pstrip (d a : Reg) (x : Bool)
  /-- ILLOP (R34). A word that is not an instruction traps ILLOP precisely. -/
  | illop (w : BitVec 32)
  /-- ISSUE_RETRY (R17). A blocked slot repeats an instruction's checks when a tag, counter or queue changes. -/
  | issueRetry (sl : SlotId)
  /-- UPCALL (R85). Once pending producers settle, a trap is delivered through UPVEC with a fibre record. -/
  | upcall (sl : SlotId)
  /-- PRODUCER_LANDS (R15). A long-latency producer's value lands and fills, or poisons, its register. -/
  | producerLands (sl : SlotId) (req : Nat)
  /-- REQUEST_COMPLETE (R77). An outstanding request completes and leaves OUTST. -/
  | requestComplete (sl : SlotId) (req : Nat)
  /-- PARKED_ACCESS (R75). A translation answer faults an LDN or ST, which parks as a replay entry. -/
  | parkedAccess (sl : SlotId) (req : Nat)
  /-- DEFERRED_UPCALL (R87). Parked accesses are delivered as an upcall at the next instruction boundary. -/
  | deferredUpcall (sl : SlotId)
  /-- ENGFAULT (R195). A stopped job is reported to its slot as a deferred upcall at the next boundary. -/
  | engfault (sl : SlotId)
  /-- WFE_TIMEOUT (R90). TIME reaches WFE's limit and the wait ends with gd = 1. -/
  | wfeTimeout (sl : SlotId)
  /-- TAG_SERVE (R148). After a tag change the point of coherence serves waiting LDF, LDFE, STE and VLDF lanes in arrival order. -/
  | tagServe (word : Nat)
  /-- ACTIVE_MESSAGE_ARRIVAL (R126). An active message reaches a core's inbound queue, or is refused with a NACK. -/
  | activeMessageArrival (src : Option Nat) (idx target : Nat)
  /-- COUNTER_MESSAGE (R122). A counter message is applied to a channel's COUNT on arrival. -/
  | counterMessage (src : Option Nat) (idx : Nat)
  /-- OUTBOUND_RETRY (R125). The outbound queue retries a refused message. -/
  | outboundRetry (core idx : Nat)
  /-- START_ACTIVE_MESSAGE (R128). A free slot takes a queued active message, writes its payload and starts the handler. -/
  | startActiveMessage (sl : SlotId) (ch : BitVec 5)
  /-- START_COUNTER_FIRING (R130). A free slot starts a pending firing of a channel at HADDR. -/
  | startCounterFiring (sl : SlotId) (ch : BitVec 5)
  /-- TASK_POP (R135). A free slot pops the newest task of its own deque. -/
  | taskPop (sl : SlotId)
  /-- TASK_STEAL (R136). A free slot steals or splits a task from another core of its group. -/
  | taskSteal (sl : SlotId)
  /-- JOB_START (R171). A queued job starts once earlier jobs of its slot have written. -/
  | jobStart (oct ctx : Nat) (id : BitVec 16)
  /-- JOB_PROGRESS (R183). A running job completes one progress unit: k-step, batch, row, element or cycle. -/
  | jobProgress (oct ctx : Nat) (id : BitVec 16)
  /-- JOB_COMPLETE (R172). A job completes, ORs its flags, decrements its counter and leaves the queue. -/
  | jobComplete (oct ctx : Nat) (id : BitVec 16)
  /-- JOB_STOP (R195). A running job meets a fault and stops at its progress boundary. -/
  | jobStop (oct ctx : Nat) (id : BitVec 16) (cause : BitVec 8)
  /-- REMAP_START (R189). A remap starts on a pour engine after earlier jobs of its slot and sets its words empty. -/
  | remapStart (oct ctx : Nat) (id : BitVec 16)
  /-- REMAP_COMPLETE (R189). A remap completes and its descriptor swaps or returns to STATE 0. -/
  | remapComplete (oct ctx : Nat) (id : BitVec 16)
  /-- ROUTINE_CALL (R203). A shipped routine runs atomically at the owner of its footprint. -/
  | routineCall (sl : SlotId) (req : Nat)
  /-- CHAIN_STEP (R208). An owner reads one step of a chained load and forwards or replies. -/
  | chainStep (sl : SlotId) (req : Nat)
  /-- TAG_PASS (R217). A bank starts a program by translating its written rows and emptying their tags. -/
  | tagPass (bank : Nat)
  /-- ROW_STEP (R216). A near-bank unit performs one micro-operation over a row. -/
  | rowStep (bank : Nat)
  /-- ROW_BOUNDARY_YIELD (R218). At a row boundary the unit serves waiting ordinary requests, then END takes effect. -/
  | rowBoundaryYield (bank : Nat)
  /-- HELD_ROW_REFRESH (R212). The Carafe refreshes a held row in place. -/
  | heldRowRefresh (ctx place : Nat)
  /-- CHBASE_WRITE (R120). A write to CHBASE writes back the channel table and loads it from the new area. -/
  | chbaseWrite (v : Word)
  /-- VALLOC_WRITE (R20). A write to VALLOC checks and changes the slot's vector allocation. -/
  | vallocWrite (v : Word)
  /-- CREATE (R250). SCHEDCMD OP 1 creates a context at reset values. -/
  | create (ctx : Nat)
  /-- RESUME (R264). SCHEDCMD OP 2 binds, restores and restarts a saved context. -/
  | resume (ctx : Nat)
  /-- PREEMPT (R260). SCHEDCMD OP 3 halts a running context and saves it. -/
  | preempt (ctx : Nat)
  /-- DESTROY (R250). SCHEDCMD OP 4 frees a saved or stopped context and its resources. -/
  | destroy (ctx : Nat)
  /-- SLOT_HALT (R260). Each slot of a pre-empted context halts at an instruction boundary. -/
  | slotHalt (sl : SlotId)
  /-- SAVE_COMPLETE (R260). The save area is written and the context becomes SAVED or STOPPED. -/
  | saveComplete (ctx : Nat)
  /-- FAULT_RECORD (R258). A fault record is written to the fault queue and deschedules its context. -/
  | faultRecord (ctx : Nat) (r : FaultRec)
  /-- INTERRUPT (R249). A pending interrupt is taken on a control core when IE = 1. -/
  | interrupt (sl : SlotId)
  /-- XINV (R255). A write to XINV drops translations and drains accesses that used them. -/
  | xinv (v : Word)
  /-- GRANT_LOAD (R276). GRANTCMD LOAD copies a grant entry into the device. -/
  | grantLoad (idx : BitVec 8)
  /-- RECALL (R276). GRANTCMD RECALL drains and invalidates a grant entry. -/
  | recall (idx : BitVec 8)
  /-- DOORBELL (R314). A host doorbell write sets launch-queue slots full. -/
  | doorbell (ctx q : Nat) (t : Word)
  /-- DEVNUM (R313). A host write fixes the package's device number once. -/
  | devnum (v : Word)
  /-- HOSTSTAT (R313). A host read of HOSTSTAT returns and clears DBBAD. -/
  | hoststat
  /-- HOST_REGISTER_WRITE (R313). A host write to a BAR0 register with no row of its own. -/
  | hostRegisterWrite (off : Nat) (v : Word)
  /-- HOST_MEMORY_WRITE (R312). A host write through BAR2 is performed as a package-agent write. -/
  | hostMemoryWrite (off : Nat) (bytes : List Byte)
  /-- UNSUPPORTED_REQUEST (R312). A PCIe request from a peer other than the root complex is answered Unsupported Request. -/
  | unsupportedRequest
  /-- DESCRIPTOR_TAKE (R226). The scheduler takes a filled launch-queue slot, empties it and advances HEAD. -/
  | descriptorTake (ctx q : Nat)
  /-- DEPENDENCE_MET (R228). A waiting launch's dependence need is met and its counts are taken. -/
  | dependenceMet (launch : Nat)
  /-- GROUP_PLACE (R232). The scheduler places one group on a cluster and sends its launch messages. -/
  | groupPlace (launch : Nat)
  /-- GROUP_EXIT (R234). All cores of a group are quiescent and the group exits. -/
  | groupExit (launch group : Nat)
  /-- BREW_EVALUATE (R236). Once per cy the scheduler evaluates the brew window head and may launch it. -/
  | brewEvaluate
  /-- BRWPOST_ARRIVAL (R241). A post reaches its brew or dependence channel and adds its count. -/
  | brwpostArrival (idx : Nat)
  /-- ROUTER_CYCLE (R266). Each cy a cluster router assigns output ports by age, deflecting losers. -/
  | routerCycle (die : Nat) (picks : List Nat) (inject : List (Nat × Nat))
  /-- KDP_PACKET (R316). A die receives a KDP packet, dropping malformed ones. -/
  | kdpPacket (link : Nat) (h0 h1 : Word)
  /-- SLOT_BOUNDARY (R271). The slot table's offset crosses into the next slot or its guard. -/
  | slotBoundary
  /-- ROTATION_BOUNDARY (R273). At a rotation boundary pending slot-table loads take effect. -/
  | rotationBoundary
  /-- WINDOW_SEND (R272). A port die serves a send queue while a window for its device is open. -/
  | windowSend (port dev : Nat) (block : Bool)
  /-- FRAME_RECEIVE (R269). A port die receives a frame, discarding it if the source is wrong. -/
  | frameReceive (port : Nat) (full : Bool) (f : Frame)
  /-- PULL (R280). A pull reaches the source, which resends the frame; `which` is the copy's place and whether it was trimmed. -/
  | pull (which : Nat × Bool)
  /-- PEER_ACCESS (R275). A peer access is served through a grant entry at the target. -/
  | peerAccess (f : Frame)
  /-- PEER_MESSAGE (R277). A message from a peer is routed to the granted context or dropped. -/
  | peerMessage (dev : Nat) (m : Msg)
  /-- BLOCK_APPLY (R286). A PCOLL block is applied at its destination and NOTIFY is sent. -/
  | blockApply (f : Frame)
  /-- ACKNOWLEDGEMENT (R290). A peer's acknowledgement reaches the source and completes the remote operation; `part` is the request and
its element. -/
  | acknowledgement (sl : SlotId) (part : Nat × Nat) (dev code : Nat) (data : List Byte)
  /-- REMOTE_TIME_LIMIT (R281). A remote operation gets no answer within TLIM and fails with code 4. -/
  | remoteTimeLimit (sl : SlotId) (req : Nat)
  /-- LINK_DOWN (R281). A port die loses its circuit with unacknowledged frames, which fail with code 1. -/
  | linkDown (port : Nat)
  /-- ROLLBACK (R283). After a failure in a region settles, the slot restores its checkpoint and continues at rpc. -/
  | rollback (sl : SlotId)
  /-- CORRECTED_ERROR (R293). A corrected error event is counted and may make the resource lasting. -/
  | correctedError (u : RUnit)
  /-- UNCORRECTABLE_ERROR (R297). Uncorrectable data are poisoned and the resource becomes lasting. -/
  | uncorrectableError (u : RUnit) (word : Option Nat)
  /-- SPARE_REPLACEMENT (R296). With no context resident, firmware puts a spare under the retired unit's coordinate. -/
  | spareReplacement (u : RUnit)
  /-- DIE_RENUMBERING (R303). Firmware renumbers virtual dies after a compute die retires. -/
  | dieRenumbering (die : Nat)
  /-- LINK_REROUTE (R305). A failed hub link's traffic is rerouted and waiting packets are NACKed. -/
  | linkReroute (die : Nat)
  /-- ALIGNMENT_EXCHANGE (R308). Once per period the package exchanges time with its master and slews. -/
  | alignmentExchange (t1 t2 t3 t4 : Int) (skew : BitVec 32)
  /-- ALIGNMENT_LOST (R308). Three periods without an exchange clear TIMEOK and log the loss. -/
  | alignmentLost
  /-- POWER_GOOD (R310). Power good starts the boot ROM. -/
  | powerGood
  /-- BOOT_PHASE (R310). A boot phase completes and the next begins, or the boot stops on failure. -/
  | bootPhase (ok : Bool) (detail : BitVec 8) (val : Word)
  /-- PWRLIM_CLOCK_STEP (R313). Under PWRLIM the device lowers, or raises again, its clock in steps of 25 MHz as its measured power moves against the limit. -/
  | pwrlimClockStep (measured : BitVec 16 × BitVec 16)
  deriving DecidableEq, Repr

end Sys2Proof
end

