-- ==== Sys2Proof/Machine/State.lean ====
section
/-!
DEFINITION. The state of the package, as plain data: every slot, core, engine, memory word, context, queue and table that
the spec names, and State.reset. Memory is one list of cells: key PA for DRAM (40 bits, R143), and
2^40 + 65536 * core + offset for the scratchpad of a core (R141).
-/

namespace Sys2Proof.Machine

/-- The tag of a register (R14): a poisoned one holds the cause and TVAL a read reports. -/
inductive Tag where
  | full
  | empty
  | poisoned (cause : BitVec 8) (tval : Word)
  deriving DecidableEq, Repr

/-- What started an activation (R118, R139). -/
inductive ActSrc where
  | channel (c : BitVec 5)
  /-- A task, with its recorded join and the expected XM of the join channel (R135, R139). -/
  | task (joinCore : Nat) (joinCh : BitVec 5) (xm : Bool)
  /-- Kernel code on a control core (R246). -/
  | kernel
  deriving DecidableEq, Repr

/-- An activation that occupies a slot (R117): what started it, its issue priority, and its launch and group, if any. -/
structure Act where
  src : ActSrc
  prio : BitVec 2
  launch : Option (Nat × Nat)
  deriving DecidableEq, Repr

/-- A parked access (R75, R76, R86): kind 1 LDN, 2 ST, 3 a withdrawn VLDF (R262). -/
structure Replay where
  kind : BitVec 3
  ptr : Word
  data : Word
  sz : BitVec 3
  rd : BitVec 7
  mask : BitVec 16
  cause : BitVec 8
  ea : Word
  /-- Number of the request that parked, which gives its place in program order (R78), and the stamp of its parking (R195). -/
  num : Nat
  since : Nat
  deriving DecidableEq, Repr

/-- A remote region (R282): gd of its RBEGIN, rpc, the checkpoint of g0 to g31, and the first failure code with TIME of its detection
(R283). -/
structure Region where
  rd : Reg
  rpc : Word
  regs : Vector Word 32
  tags : Vector Tag 32
  failed : Option (BitVec 16 × Nat)
  deriving DecidableEq, Repr

/-- A trap raised and not yet delivered: it waits for the slot's producers (R85). -/
structure TrapRec where
  cause : BitVec 8
  tval : Word
  pc : Word
  /-- The faulting virtual address of a translation fault, else 0 (R258). -/
  va : Word
  deriving DecidableEq, Repr

/-- How a slot waits. -/
inductive Wait where
  /-- It can issue. -/
  | ready
  /-- Blocked at issue, at an instruction boundary (R17 steps 3 to 5). -/
  | retry
  /-- A blocking request was sent and its answer is awaited (R74, R160, R162, R201). -/
  | sent (req : Nat)
  /-- In WFE; `wake` once an event of R90 happened. -/
  | wfe (wake : Bool)
  /-- Halted for pre-emption (R260). -/
  | halted
  /-- A control core stopped by a trap with IE = 0 (R249). -/
  | stopped
  deriving DecidableEq, Repr

/-- What an outstanding request does when it is performed. Addresses are effective addresses [55:0]. -/
inductive ReqKind where
  | ldn (rd : Reg) (sz : BitVec 3) (p ea : Word)
  | st (sz : BitVec 3) (p ea data : Word)
  /-- A vector load into core register `v`: element size (0 a record), format, elements left as (lane or element, ea), and
  the lanes that failed, with cause and TVAL (R108). -/
  | vld (v w : Nat) (fmt : BitVec 5) (lanes : List (Nat × Word)) (bad : List (Nat × BitVec 8 × Word))
  /-- VLDF: pointer and mask at issue, lanes left, values read, lanes that failed with cause and TVAL (R108, R111). -/
  | vldf (v : Nat) (p : Word) (mask : BitVec 16) (lanes : List (Nat × Word)) (got : List (Nat × Word32))
      (bad : List (Nat × BitVec 8 × Word))
  /-- A vector store's writes that have left neither for a peer's acknowledgement nor for the die's store slice, by element. -/
  | vst (writes : List (Nat × Word × List Byte))
  /-- An engine read, with the value read in program order at issue (R174). -/
  | eng (rd : Reg) (value : Word)
  | ship (n : Nat) (rd : Reg) (reply align8 : Bool) (p b o : Word)
  /-- The pointer, the next step, the visits so far, the steps left (offset, mask), and the package it is at (R208). -/
  | chain (rd : Reg) (p : Word) (step visits : Nat) (steps : List (Word32 × Word)) (loc : Option Nat)
  | post
  /-- Blocking loads: answer of a peer, or an LDF or LDFE waiting on a tag. -/
  | load (rd : Reg) (sz : BitVec 3) (ea : Word) (empties : Bool)
  /-- An AMO: its result is zero-extended for FADD; its end is an acquire that invalidates the data cache (R157, R162). -/
  | amo (rd : Reg) (wide zext acq : Bool)
  | store (sz : BitVec 3) (ea data : Word)
  /-- The image of BRWLD (0), PSLOT loading entries (1), a control pair (2) or storing entries (3) lies in a peer's window: its pointer and gb
  (R239, R274, R288). -/
  | image (op : BitVec 2) (rd : Reg) (p gb : Word)
  deriving DecidableEq, Repr

/-- An outstanding request of a slot (R15, R77): whether it counts in OUTST, whether it addresses a peer, whether it was issued
inside an open remote region (R282), whether that region has ended by the time limit, so that no failure of it reaches the fault queue
(R283), TIME from which its limit runs (R281), the context and PHYS it was issued under (R247), and whether the activation that issued it
has ended (R329). -/
structure Req where
  num : Nat
  kind : ReqKind
  counted : Bool
  peer : Bool
  region : Bool
  quiet : Bool
  since : Nat
  ctxid : BitVec 7
  ended : Bool
  deriving DecidableEq, Repr

/-- The registers of a slot (R13), its engine registers and descriptors (R23), and what it waits for. -/
structure Slot where
  g : Vector Word 32
  gt : Vector Tag 32
  m : Vector (BitVec 16) 8
  c : Vector (BitVec 16) 16
  vi : BitVec 8
  pc : Word
  fstat : BitVec 10
  stage : BitVec 8
  valloc : BitVec 16
  upvec : Word
  upsave : Word
  tcause : BitVec 8
  tval : Word
  tpc : Word
  rngseed : BitVec 16
  joinch : BitVec 5
  /-- CTXID of a control-core slot: PHYS in bit 6 (R247). -/
  ctxid : BitVec 7
  kvec : Word
  ktpc : Word
  kcause : Word
  ktval : Word
  xinv : Word
  k : Vector Word 64
  d : Vector (BitVec 512) 16
  act : Option Act
  parked : List Replay
  /-- Deferred ENGFAULT events, oldest first: their stamps and TVAL (R195). -/
  events : List (Nat × Word)
  trap : Option TrapRec
  region : Option Region
  wait : Wait
  /-- Destination and limit of the WFE that waits (R90). -/
  wfeReg : Reg
  wfeLimit : Word
  reqs : List Req
  /-- Stores in the die's slice that a release ordered before every later store of the slot (R156). -/
  rel : List Nat
  /-- Loads that an acquire ordered before every later access of the slot (R157). -/
  acq : List Nat
  deriving DecidableEq, Repr

/-- A channel entry (R121). -/
structure Channel where
  haddr : Word
  reload : BitVec 16
  count : BitVec 16
  pnum : BitVec 8
  busy : Bool
  loss : Bool
  xmbad : Bool
  xm : Bool
  mask : Bool
  armed : Bool
  prio : BitVec 2
  rlen : BitVec 15
  rbase : BitVec 16
  deriving DecidableEq, Repr

/-- A line of the core data cache (R144): virtual line number, its 64 bytes, and by word whether it was poisoned when it was filled. -/
structure Line where
  line : Nat
  bytes : List Byte
  bad : BitVec 16
  deriving DecidableEq, Repr

/-- A core: its context, slots, vector registers, per-core CSRs, channels, deque, queues and caches. -/
structure Core where
  ctx : Option Nat
  slots : Vector Slot 4
  v : Vector (Vector Word32 16) 128
  vt : Vector Tag 128
  limit : BitVec 8
  svc : Bool
  area : BitVec 4
  ch : Vector Channel 32
  top : Word
  bottom : Word
  last : Vector (BitVec 5) 4
  inq : List Msg
  outq : List Msg
  dcache : List Line
  /-- Fetched words by pc and the CTXID they were fetched under (R36). -/
  icache : SMap Word32
  /-- Per issue priority, the slot that issued last (R118). -/
  rr : Vector (Fin 4) 4
  /-- By channel, whether a decrement since its last firing, and one that its pending firing is of, came from another core: the activation
  that it starts is then an acquire from that core (R127, R144, R157). -/
  far : BitVec 32
  farFired : BitVec 32
  deriving DecidableEq, Repr

/-- A remap that a job runs (R189, R190): descriptor number, mode, the descriptor before and after, the physical index it
reaches next, and its progress in elements or cycles (R193). -/
structure Remap where
  desc : BitVec 4
  inplace : Bool
  before : BitVec 512
  after : BitVec 512
  started : Bool
  next : Nat
  count : Nat
  deriving DecidableEq, Repr

/-- State of a job (R196). -/
inductive JobSt where
  | queued
  | running
  | stopped
  deriving DecidableEq, Repr

/-- What a job asked of a peer: at which stage of its element, under which request number, since which TIME, and the code and data
of the answer once it has come (R274, R281). -/
structure Ask where
  stage : Nat
  num : Nat
  since : Nat
  answer : Option (Nat × List Byte)
  deriving DecidableEq, Repr

/-- What is known of a block that PCOLL sent (R286, R287). -/
inductive SendSt where
  /-- Its answer is awaited. -/
  | out
  | answered (code : Nat)
  /-- It failed, and is sent again with the same number. -/
  | again
  deriving DecidableEq, Repr

/-- A block that PCOLL sent and that is not known to be performed: its entry, request number and TIME (R286, R287). -/
structure Send where
  entry : Nat
  num : Nat
  since : Nat
  st : SendSt
  deriving DecidableEq, Repr

/-- A job of the octet's queue (R169, R170): snapshot, latched modes, progress. -/
structure Job where
  id : BitVec 16
  ctx : Nat
  owner : SlotId
  /-- CTXID.PHYS at issue (R247). -/
  phys : Bool
  /-- ENG fn, or 0x80 + POUR fn (R196). -/
  opc : BitVec 8
  a : Word
  b : Word
  dval : Word
  k : Vector Word 64
  d : Vector (BitVec 512) 16
  rm : BitVec 3
  xm : Bool
  seed : BitVec 16
  bank : Bool
  st : JobSt
  progress : Nat
  flags : BitVec 6
  cause : BitVec 8
  fault : Word
  /-- Remaps that belong to the job and are not complete, in order (R172, R188). -/
  remaps : List Remap
  /-- PCOLL: the list read at issue (R285). -/
  list : List Word
  /-- Words that the job has written in part, with a mask of the bytes written (R147). -/
  part : SMap Nat
  ask : Option Ask
  /-- The source element that waits for the answer of a peer about its destination. -/
  got : List (List Byte)
  /-- Bytes of words that the job has written in part and will write further, by virtual address: they are written with the last of their
  word, for a word is written as one (R158). -/
  pend : SMap Byte
  /-- PCOLL: the blocks on their way, in list order (R286). -/
  sends : List Send
  /-- The pour engine that runs it (R169, R295). -/
  pour : Option Nat
  /-- Its stop lies in a remap (R197). -/
  inRemap : Bool
  deriving DecidableEq, Repr

/-- A context's state on one octet engine (R61, R169, R179). -/
structure EngCtx where
  nextId : BitVec 16
  bank : Bool
  bank0 : SMap Byte
  bank1 : SMap Byte
  acc : SMap Word32
  deriving DecidableEq, Repr

/-- An operation that waits on a tag at its point of coherence (R148). -/
inductive WaitKind where
  | ldf
  | ldfe
  | ste
  | lane (l : Nat)
  /-- A source element of a copy under WSRC, or the words that an octet job waits for; `req` is the number of its wait, and the address was
  translated for the context (R148, R165, R187). -/
  | job (ctx va : Nat)
  /-- A peer's access, with the grant entry, context and address it was accepted under (R275). -/
  | peer (f : Frame) (entry ctx va : Nat)
  deriving DecidableEq, Repr

structure Waiter where
  sl : SlotId
  req : Nat
  key : Nat
  n : Nat
  kind : WaitKind
  deriving DecidableEq, Repr

/-- A store that its die's slices forward to the cores of the die and that its point of coherence has not got yet (R154): of a request of a
slot, or of a job of a die agent, with its context and number (R150); `full` are the words that it sets full. -/
structure SliceStore where
  num : Nat
  sl : SlotId
  req : Nat
  ctx : Nat
  ea : Nat
  keys : List Nat
  bytes : List Byte
  job : Option (Nat × BitVec 16)
  full : List Nat
  deriving DecidableEq, Repr

/-- What the model keeps of the past, newest first, for the agents that may see a word as it was: a word that a slot wrote, with its bytes
before, as the cores of one die see it (`here`) or all others, and whether the access was a synchronising one; or a FENCE with its core,
its scope and whether it discards fetched words (R36, R156). -/
inductive PastEvent where
  | wrote (word : Nat) (old : List Byte) (die : Nat) (here sync : Bool)
  | fence (core scope : Nat) (fetched release : Bool)
  deriving DecidableEq, Repr

/-- A cached translation (R251): context, first virtual address, size, physical address, permission and attribute bits. -/
structure Xlat where
  ctx : Nat
  va : Nat
  size : Nat
  pa : Nat
  entry : Word
  deriving DecidableEq, Repr

/-- A bank of the Crema: per set its lines in recency order, the most recent first, and the fills of the bank (R145). -/
structure CremaBank where
  sets : SMap (List Nat)
  fills : Nat
  deriving DecidableEq, Repr

/-- The Crema cache as far as a program can tell: which lines its banks hold, and PSEL of each context (R145). -/
structure Crema where
  banks : SMap CremaBank
  psel : SMap (BitVec 10)
  deriving DecidableEq, Repr

/-- STATE of a context (R250). -/
inductive CtxSt where
  | free
  | running
  | saving
  | saved
  | stopped
  deriving DecidableEq, Repr

/-- A hold place (R213). -/
structure Hold where
  gen : BitVec 4
  row : Option (Nat × Nat)
  dropped : Bool
  /-- The row has been retired since it was held: it is dropped at the next resume (R214, R295). -/
  retired : Bool
  deriving DecidableEq, Repr

/-- A core of a context that is out (R262): coordinate, contents, its scratchpad bytes and empty tags, the lost mark (R296). -/
structure SavedCore where
  coord : Nat
  core : Core
  pad : SMap Byte
  padTags : SMap Bool
  padPoison : SMap Bool
  lost : Bool
  deriving DecidableEq, Repr

/-- A near-bank program on one bank (R215 to R221). -/
inductive NbSt where
  | queued
  | running
  | yielding
  | stopped
  | ended
  deriving DecidableEq, Repr

structure NbProg where
  id : BitVec 16
  ctx : Nat
  slot : SlotId
  sender : Word
  xm : Bool
  entry : BitVec 6
  /-- The microprogram, taken when the bank starts (R207). -/
  words : List Word32
  iters : Nat
  ch : BitVec 5
  notify : Bool
  bases : List Word
  rstride : Word
  s0 : Word32
  s1 : Word32
  banks : Word32
  /-- 1024 * stack + 32 * channel + bank. -/
  bank : Nat
  i : Nat
  mpc : Nat
  ba0 : List Word32
  ba1 : List Word32
  tagged : Bool
  st : NbSt
  cause : BitVec 8
  deriving DecidableEq, Repr

/-- A context (R244, R245) with what the device keeps for it. -/
structure Ctx where
  st : CtxSt
  /-- STATE after the save (R250). -/
  after : CtxSt
  /-- TIME at which its pre-emption began (R4, R260). -/
  haltAt : Nat
  ptroot : Word
  tbndlo : Word
  tbndhi : Word
  corelim : Nat
  accw : Nat
  brewown : Bool
  area : BitVec 4
  save : Word
  fqbase : Word
  sqbase : Word
  fqlog : Nat
  sqlog : Nat
  /-- Launch queues: header address and log2 SIZE (R245). -/
  queues : Vector (Word × Nat) 8
  /-- Doorbell index R of each queue (R314). -/
  rung : Vector Word 8
  /-- DIEMAX as the context reads it, taken at CREATE and RESUME (R11, R303). -/
  diemax : BitVec 3
  rowlost : Word
  dep : SMap (BitVec 16)
  holds : SMap Hold
  nbNext : BitVec 16
  savedCores : List SavedCore
  savedJobs : List (Nat × Job)
  savedNb : List NbProg
  savedRows : List (Nat × Hold)
  deriving DecidableEq, Repr

/-- A launch descriptor's fields (R225). -/
structure Desc where
  ngrp : Nat
  gsize : Nat
  stage : BitVec 8
  staged : Bool
  octalign : Bool
  xm : Bool
  argw : Nat
  prio : BitVec 2
  entry : Word
  pmap : Word
  deps : Word
  launchid : Word
  args : List Word32
  deriving DecidableEq, Repr

/-- State of a launch (R229); QUEUED is a filled slot of the ring, RETIRED launches leave the list. -/
inductive LaunchSt where
  | waitdep
  | ready
  | placing
  | running
  | triggered
  deriving DecidableEq, Repr

structure Launch where
  num : Nat
  ctx : Nat
  queue : Option Nat
  desc : Desc
  st : LaunchSt
  /-- TIME at which it became READY, and its place in the order of those that did (R230). -/
  since : Nat
  order : Nat
  placed : Nat
  /-- Brew entry, its kind, micro-batch and stash address words (R236). -/
  brew : Option (Nat × BitVec 2 × BitVec 12 × Word)
  deriving DecidableEq, Repr

structure Group where
  launch : Nat
  idx : Nat
  ctx : Nat
  die : Nat
  cluster : Nat
  first : Nat
  size : Nat
  triggered : Bool
  exited : Bool
  deriving DecidableEq, Repr

/-- The package scheduler (R224 to R234, R250). -/
structure Sched where
  ctxtab : Word
  busy : Bool
  result : BitVec 8
  cmdCtx : BitVec 6
  cmd : BitVec 4
  launches : List Launch
  groups : List Group
  nextLaunch : Nat
  /-- Context last served, for the round-robin of R230, and the PLACING launches that keep their turn, the last that took it first. -/
  turn : Nat
  holders : List Nat
  /-- Interrupts raised and not taken: control core, cause, KTVAL (R249). -/
  ints : List (Nat × BitVec 8 × Word)
  deriving DecidableEq, Repr

/-- A stash slot (R235). -/
structure Stash where
  addr : Word
  loaded : Bool
  held : Option (BitVec 12)
  deriving DecidableEq, Repr

/-- The brew table (R235 to R243). Entry states: 0 pending, 1 launched, 2 retired. -/
structure Brew where
  entries : SMap Word
  states : SMap (BitVec 2)
  templates : SMap (List Word)
  stash : SMap Stash
  chans : SMap (BitVec 16)
  armed : Bool
  done : Bool
  serial : Bool
  stage : BitVec 8
  first : Nat
  last : Nat
  head : Nat
  up : Word
  down : Word
  res : Word
  cause : BitVec 2
  deriving DecidableEq, Repr

/-- A post of a slot of this package on its way to a brew or dependence channel, with the poster's context (R241). -/
structure Post where
  slot : SlotId
  req : Nat
  ctx : Nat
  dependence : Bool
  ch : BitVec 8
  count : BitVec 16
  deriving DecidableEq, Repr

/-- A loaded grant entry (R275). -/
structure Grant where
  /-- RECALL runs: it accepts no new access (R276). -/
  recalled : Bool
  msg : Bool
  brew : Bool
  w : Bool
  r : Bool
  gdev : BitVec 15
  ctx : BitVec 6
  wlo : Nat
  whi : Nat
  vabase : Nat
  deriving DecidableEq, Repr

/-- A packet of the cluster torus (R266). -/
structure Packet where
  die : Nat
  pos : Nat
  src : Nat
  target : Nat
  age : Nat
  deriving DecidableEq, Repr

/-- The scale-up fabric (R269 to R281). -/
structure Fabric where
  devno : BitVec 15
  devset : Bool
  slots : Vector (Word × Word) 64
  ctrl : Word
  rotbase : Word
  pendSlots : List (Nat × Word × Word)
  pendCtrl : Option (Word × Word)
  /-- Send queues of all devices, in order (R272). -/
  queue : List Frame
  /-- Retransmit copies: sent and not acknowledged (R279). -/
  sent : List Frame
  /-- Per device and slot: the sequence number that its next frame to that device gets, and the one that its next frame from that device
  bears, less 1 (R267, R278). -/
  next : SMap Nat
  expect : SMap Nat
  /-- Frames held behind a gap of their source slot (R280); `true` for one whose operation failed, which is only passed over. -/
  held : List (Bool × Frame)
  /-- Peers' accesses, messages and blocks that have arrived and are not applied yet, in order (R278). -/
  arrived : List Frame
  /-- TIME until which each port die is charged for the block it sends (R272), and the devices of the blocks whose charge may not have
  ended, with its end (R291). -/
  busy : Vector Nat 4
  leaving : List (Nat × Nat)
  /-- The port die that sent the last frame to each device (R272). -/
  turn : SMap Nat
  /-- TIME at which the last pending load completed (R273). -/
  pendAt : Nat
  /-- Blocks that have been applied: device, slot and sequence number (R287). -/
  applied : List (Nat × SlotId × Nat)
  grants : SMap Grant
  grantbase : Word
  grantcmd : Word
  /-- The slot whose GRANTCMD runs, and the value that its instruction read (R276). -/
  grantRun : Option (SlotId × Word)
  torus : List Packet
  waves : Vector Nat 4
  deriving DecidableEq, Repr

/-- Whose access waits at a bank for a row boundary: a request of a slot, what a slot issues at a pc, a job of an octet, a peer's frame. -/
inductive BankUser where
  | req (sl : SlotId) (num : Nat)
  | slot (sl : SlotId) (pc : Word)
  | job (oct ctx : Nat) (id : BitVec 16)
  | peer (f : Frame)
  deriving DecidableEq, Repr

/-- An access that waits at a bank for the next row boundary (R218, R223). -/
structure BankWait where
  bank : Nat
  user : BankUser
  deriving DecidableEq, Repr

/-- The Carafe dies (R201 to R223). -/
structure Carafe where
  /-- Loadable routines by entry 32 to 255: header and words (R207). -/
  routines : SMap (Word × List Word32)
  /-- Loadable microprograms by entry 8 to 63. -/
  micro : SMap (Word × List Word32)
  /-- Queue of each bank, the running program first. -/
  nb : SMap (List NbProg)
  /-- Programs that ended or stopped, for NBSTAT (R221). -/
  reports : List NbProg
  /-- Row open in a subarray's buffer by ROWOPEN (R213). -/
  openRows : SMap Nat
  /-- Ordinary accesses that reached a bank whose unit runs, in order of arrival (R218, R223). -/
  waiting : List BankWait
  deriving DecidableEq, Repr

/-- A packet of KDP: header bytes 0 to 7 and 8 to 15, its payload, and the end of a link at which it holds a buffer slot (R268, R316). Ends:
2 * link is the die's end of that hub link, 2 * link + 1 the hub's; of ring link 21 + d, those of dies d and d + 1 (log 23). -/
structure KdpPacket where
  h0 : Word
  h1 : Word
  data : List Byte
  slot : Option Nat
  deriving DecidableEq, Repr

/-- One end of a die link, by virtual channel: slots that received packets hold, credits that go back with the next packets, slots of the
other end that its packets use, and the packets that wait to cross (R268). -/
structure KdpEnd where
  used : Vector Nat 4
  owed : Vector Nat 4
  spent : Vector Nat 4
  queue : List KdpPacket
  deriving DecidableEq, Repr

/-- A port of KDP: the next sequence number per target port and VC and per source port and VC, packets held behind a gap, and copies of the
packets it sent that are neither answered (VC 0) nor delivered (R316, R317). -/
structure KdpPort where
  sent : SMap (BitVec 12)
  next : SMap (BitVec 12)
  held : List KdpPacket
  asked : List KdpPacket
  deriving DecidableEq, Repr

/-- The die links: their ends and ports; the packets that have crossed a link, with the end they go to, and are not received yet; by port, vendor
code and identity word of the last identify answer, and TIME of the last time exchange with the hub (R308, R316, R317). -/
structure Kdp where
  ends : SMap KdpEnd
  ports : SMap KdpPort
  flight : List (Nat × KdpPacket)
  idents : SMap (Word × Word)
  aligned : SMap Nat
  deriving DecidableEq, Repr

/-- Errors and repair (R292 to R309), the die map and package alignment. -/
structure Repair where
  times : List (RUnit × List Nat)
  retired : List RUnit
  errwin : BitVec 32
  logdrop : BitVec 16
  /-- Failed hub links whose traffic goes round, each with the hub link it takes (R305). -/
  rerouted : List (Nat × Nat)
  /-- Pages of each context, as last invalidated, that map into a retired stack: context, virtual address, size (R298). -/
  lostMaps : List (Nat × Nat × Nat)
  service : Bool
  elogbase : Word
  eloghead : Word
  elogtail : Word
  /-- Per virtual die LIVE and physical die (R248). -/
  diemap : Vector (Bool × BitVec 3) 8
  diegen : BitVec 8
  timectl : Word
  skew : BitVec 32
  /-- TIME of the last exchange with the master, and whether three periods have passed without one (R308). -/
  exchanged : Nat
  alignLost : Bool
  /-- The bound that this period's exchange gave, and TIME at which the period ends (R308, R309). -/
  pendSkew : Option (BitVec 32)
  periodEnd : Nat
  /-- The offset in ns that TIME is still slewed by, and the ns since the last one was made good (R307, R308). -/
  slew : Int
  slewRun : Nat
  /-- Die links that have been retired; hub link p is that of the die at port p (log 23). -/
  links : List Nat
  /-- Cores, clusters and dies that are retired and not replaced (R296). -/
  fenced : List RUnit
  /-- The rows and banks retired last, with TIME: until TIME passes, their words are being copied to the spare (R213, R295). -/
  copying : List (RUnit × Nat)
  deriving DecidableEq, Repr

/-- Boot and the host link (R310 to R314). -/
structure HostSide where
  powered : Bool
  phase : BitVec 4
  fail : Bool
  detail : BitVec 8
  /-- The PCIe link is up and the host sees BAR0 and BAR2 (R310, phase 7). -/
  up : Bool
  bar2sel : BitVec 4
  dbbad : BitVec 16
  pwrlim : BitVec 16
  pwrnow : BitVec 16
  /-- TEMPMAX, in 0.1 degrees C (R313). -/
  tempmax : BitVec 16
  clockSteps : Nat
  msi : List Nat
  deriving DecidableEq, Repr

/-- Which agent moves next: a slot issues, a step of the device happens, or time passes. -/
inductive Turn where
  | slot (sl : SlotId)
  | event (i : Instr)
  | tick (ns : Nat)
  deriving DecidableEq, Repr

/-- The state of the package. -/
structure State where
  /-- The agents that move next, in order (the model's own, log 3). -/
  agenda : List Turn
  /-- The slot that issues when the agenda is empty (the model's own, log 3). -/
  cur : SlotId
  /-- TIME in ns (R307). -/
  time : Nat
  cores : SMap Core
  jobs : SMap (List Job)
  engs : SMap EngCtx
  mem : List Host.Cell
  /-- Full/empty tags by word (key / 4); an unlisted word is full (R146). -/
  tags : SMap Bool
  /-- Poisoned words (R297). -/
  poison : SMap Bool
  waiters : List Waiter
  /-- Stores in the store slices of the dies, in the order in which they were forwarded (R154). -/
  slices : List SliceStore
  /-- What agents may see as it was (R36, R257); the newest first. -/
  past : List PastEvent
  xlats : List Xlat
  crema : Crema
  ctxs : SMap Ctx
  sched : Sched
  brew : Brew
  posts : List Post
  /-- Messages that no core sent: launch messages, Carafe and PCOLL notices, peers' messages (R129, R217, R286). -/
  net : List Msg
  fab : Fabric
  carafe : Carafe
  repair : Repair
  /-- The die links (R268, R316). -/
  kdp : Kdp
  host : HostSide
  /-- Counter that free values are drawn with (the model's own, log 5). -/
  fresh : Nat
  /-- Number of the next request (the model's own, log 5). -/
  nextReq : Nat
  deriving DecidableEq, Repr

/-- Why the machine stops with a fault. Raised by the step alone; safe, because the device has no such slot. -/
inductive Fault where
  /-- The agenda or `cur` names a core that the package does not have (R8). Raised by the step. Safe. -/
  | noSuchSlot
  deriving DecidableEq, Repr

/-- Why a step is refused. -/
inductive Refusal where
  /-- An instruction without a meaning yet, raised by exec's arm of that name. Safe: nothing is claimed of it. -/
  | notModelled (mnemonic : String)
  deriving DecidableEq, Repr

/-- The three outcomes of a step, for this machine. -/
abbrev Out := Host.Outcome State Fault Refusal

/-- A channel of a newly created context (R121). -/
def Channel.init : Channel :=
  { haddr := 0, reload := 0, count := 0, pnum := 0, busy := false, loss := false, xmbad := false, xm := false,
    mask := true, armed := false, prio := 3, rlen := 0, rbase := 0 }

/-- Slot n of a core of a newly created context: the values of the field maps, 0 where none is given (R250; log 1). -/
def Slot.init (n : Nat) : Slot :=
  { g := Vector.replicate 32 0, gt := Vector.replicate 32 .full, m := Vector.replicate 8 0, c := Vector.replicate 16 0,
    vi := 0, pc := 0, fstat := 0, stage := 0, valloc := BitVec.ofNat 16 (32 * 256 + 32 * n), upvec := 0, upsave := 0,
    tcause := 0, tval := 0, tpc := 0, rngseed := 1, joinch := 0, ctxid := 0x40, kvec := 0, ktpc := 0, kcause := 0, ktval := 0,
    xinv := 0, k := Vector.replicate 64 0, d := Vector.replicate 16 0, act := none, parked := [], events := [],
    trap := none, region := none, wait := .ready, wfeReg := 0, wfeLimit := 0, reqs := [], rel := [], acq := [] }

/-- A core that no context has used yet. -/
def Core.init : Core :=
  { ctx := none, slots := #v[Slot.init 0, Slot.init 1, Slot.init 2, Slot.init 3],
    v := Vector.replicate 128 (Vector.replicate 16 0), vt := Vector.replicate 128 .full, limit := 64, svc := false, area := 0,
    ch := Vector.replicate 32 Channel.init, top := 0, bottom := 0, last := Vector.replicate 4 31, inq := [], outq := [],
    dcache := [], icache := [], rr := Vector.replicate 4 3, far := 0, farFired := 0 }

def EngCtx.init : EngCtx := { nextId := 0, bank := false, bank0 := [], bank1 := [], acc := [] }

/-- A FREE context (R250). -/
def Ctx.init : Ctx :=
  { st := .free, after := .saved, haltAt := 0, ptroot := 0, tbndlo := 0, tbndhi := 0, corelim := 0, accw := 0, brewown := false, area := 0,
    save := 0, fqbase := 0, sqbase := 0, fqlog := 0, sqlog := 0, queues := Vector.replicate 8 (0, 0),
    rung := Vector.replicate 8 0, diemax := 7, rowlost := 0, dep := [], holds := [], nbNext := 0, savedCores := [],
    savedJobs := [], savedNb := [], savedRows := [] }

def Hold.init : Hold := { gen := 1, row := none, dropped := false, retired := false }
def Stash.init : Stash := { addr := 0, loaded := false, held := none }

def Brew.init : Brew :=
  { entries := [], states := [], templates := [], stash := [], chans := [], armed := false, done := false,
    serial := false, stage := 0, first := 0, last := 0, head := 0, up := 0, down := 0, res := 0, cause := 0 }

def Sched.init : Sched :=
  { ctxtab := 0, busy := false, result := 0, cmdCtx := 0, cmd := 0, launches := [], groups := [], nextLaunch := 0, turn := 63, holders := [],
    ints := [] }

def Fabric.init : Fabric :=
  { devno := 0x7FFF, devset := false, slots := Vector.replicate 64 (0, 0), ctrl := 0, rotbase := 0, pendSlots := [],
    pendCtrl := none, queue := [], sent := [], next := [], expect := [], held := [], arrived := [],
    busy := Vector.replicate 4 0, leaving := [], turn := [], pendAt := 0, applied := [], grants := [], grantbase := 0, grantcmd := 0, grantRun := none,
    torus := [], waves := Vector.replicate 4 192 }

def KdpEnd.init : KdpEnd :=
  { used := Vector.replicate 4 0, owed := Vector.replicate 4 0, spent := Vector.replicate 4 0, queue := [] }

def KdpPort.init : KdpPort := { sent := [], next := [], held := [], asked := [] }

def Carafe.init : Carafe := { routines := [], micro := [], nb := [], reports := [], openRows := [], waiting := [] }

def Repair.init : Repair :=
  { times := [], retired := [], errwin := 1000000, logdrop := 0, rerouted := [], lostMaps := [], service := false,
    elogbase := 0, eloghead := 0, elogtail := 0,
    diemap := #v[(true, 0), (true, 1), (true, 2), (true, 3), (true, 4), (true, 5), (true, 6), (true, 7)], diegen := 0,
    timectl := 0x3E8001, skew := 0xFFFFFFFF, exchanged := 0, alignLost := false, pendSkew := none,
    periodEnd := 1000000, slew := 0, slewRun := 0, links := [], fenced := [], copying := [] }

def HostSide.init : HostSide :=
  { powered := false, phase := 0, fail := false, detail := 0, up := false, bar2sel := 0, dbbad := 0, pwrlim := 3600, pwrnow := 0, tempmax := 0,
    clockSteps := 0, msi := [] }

/-- The package at power good, before its boot ROM runs (R310): nothing in memory, no context, no activation. -/
def State.reset : State :=
  { agenda := [], cur := ⟨102400, 0⟩, time := 0, cores := [], jobs := [], engs := [], mem := [], tags := [], poison := [],
    waiters := [], slices := [], past := [], xlats := [], crema := ⟨[], []⟩, ctxs := [], sched := Sched.init, brew := Brew.init, posts := [], net := [],
    fab := Fabric.init, carafe := Carafe.init, repair := Repair.init, kdp := ⟨[], [], [], [], []⟩, host := HostSide.init, fresh := 0, nextReq := 0 }

end Sys2Proof.Machine
end

