-- ==== Sys2Proof/Machine/Regs.lean ====
section
/-!
DEFINITION. Cores, slots and registers: where they are in the state, how g and v registers and their tags are read and
written (R13 to R22), and the coordinates of cores (R8, R11).
-/

namespace Sys2Proof.Machine

/-- Core n. -/
def State.core (s : State) (n : Nat) : Core := mget Core.init s.cores n

def State.setCore (s : State) (n : Nat) (c : Core) : State := { s with cores := mput s.cores n c }

def State.modCore (s : State) (n : Nat) (f : Core → Core) : State := s.setCore n (f (s.core n))

/-- Slot i of a core. -/
def Core.slot (c : Core) (i : Fin 4) : Slot := c.slots[i]

def Core.setSlot (c : Core) (i : Fin 4) (x : Slot) : Core := { c with slots := c.slots.set i.val x i.isLt }

/-- The slot `sl`. -/
def State.slot (s : State) (sl : SlotId) : Slot := (s.core sl.core).slot sl.slot

def State.setSlot (s : State) (sl : SlotId) (x : Slot) : State :=
  s.setCore sl.core ((s.core sl.core).setSlot sl.slot x)

def State.modSlot (s : State) (sl : SlotId) (f : Slot → Slot) : State := s.setSlot sl (f (s.slot sl))

/-- The four slots of a core. -/
def slotIds (core : Nat) : List SlotId := [⟨core, 0⟩, ⟨core, 1⟩, ⟨core, 2⟩, ⟨core, 3⟩]

/-- A core of the Crema die (R246). -/
def isControl (core : Nat) : Bool := computeCores ≤ core

/-- Virtual die, cluster of the die, first core of the cluster, and octet of a compute core (R8). -/
def dieOf (core : Nat) : Nat := core / 12800
def clusterOf (core : Nat) : Nat := core / 128 % 100
def clusterBase (core : Nat) : Nat := core / 128 * 128
def octetOf (core : Nat) : Nat := core / 8

/-- Place of a slot among the 32 of its octet. -/
def placeOf (sl : SlotId) : Nat := sl.core % 8 * 4 + sl.slot.val

/-- The core that the coordinates of R8 name. -/
def coreAt (die cluster core : Nat) : Nat := die * 12800 + cluster * 128 + core

/-- Live virtual dies less one (R9). -/
def State.diemaxNow (s : State) : BitVec 3 :=
  BitVec.ofNat 3 ((s.repair.diemap.toList.filter (fun p => p.1)).length - 1)

/-- The context of a core: the one that holds it, or CTXID.CTX of a control-core slot (R117, R247). -/
def State.ctxOf (s : State) (sl : SlotId) : Nat :=
  if isControl sl.core then ((s.slot sl).ctxid.extractLsb' 0 6).toNat else ((s.core sl.core).ctx).getD 0

def State.ctx (s : State) (n : Nat) : Ctx := mget Ctx.init s.ctxs n
def State.setCtx (s : State) (n : Nat) (c : Ctx) : State := { s with ctxs := mput s.ctxs n c }
def State.modCtx (s : State) (n : Nat) (f : Ctx → Ctx) : State := s.setCtx n (f (s.ctx n))

/-- DIEMAX as a slot reads it (R11, R303). DESIGN CHOICE: no rule says when a control-core slot, which no context holds, sees a changed
die map; here at once (log 28). -/
def State.diemaxOf (s : State) (sl : SlotId) : BitVec 3 :=
  if isControl sl.core then s.diemaxNow else (s.ctx (s.ctxOf sl)).diemax

/-- The unit holds the core (R295). -/
def unitCovers (u : RUnit) (c : Nat) : Bool :=
  match u with
  | .core d => c = d
  | .cluster d cl => !isControl c && dieOf c = d && clusterOf c = cl
  | .die d => !isControl c && dieOf c = d
  | .controlCore n => c = computeCores + n
  | _ => false

/-- The core is fenced: its unit is retired and not replaced (R296). -/
def State.fencedCore (s : State) (c : Nat) : Bool := s.repair.fenced.any fun u => unitCovers u c

/-- The coordinate of a core in bits [18:2] of SLOTID (R11). Control core n reads CLUSTER 127 and CORE n (log 12). -/
def coordOf (core : Nat) : Nat :=
  if isControl core then 127 * 512 + (core - computeCores) * 4
  else dieOf core * 65536 + clusterOf core * 512 + core % 128 * 4

/-- SLOTID (R11). -/
def State.slotid (s : State) (sl : SlotId) : Word :=
  BitVec.ofNat 64 (s.fab.devno.toNat * 2 ^ 25 + (s.diemaxOf sl).toNat * 2 ^ 19 + coordOf sl.core + sl.slot.val)

/-! ## General registers -/

/-- The value of g register r; g0 reads 0 (R13). -/
def Slot.readG (x : Slot) (r : Reg) : Word := if r = 0 then 0 else x.g[r.toNat]'r.isLt

/-- The tag of g register r; g0 is always full (R13, R14). -/
def Slot.tagG (x : Slot) (r : Reg) : Tag := if r = 0 then .full else x.gt[r.toNat]'r.isLt

def Slot.setTagG (x : Slot) (r : Reg) (t : Tag) : Slot :=
  if r = 0 then x else { x with gt := x.gt.set r.toNat t r.isLt }

/-- Writes g register r and leaves it full; a write to g0 is discarded (R13, R15). -/
def Slot.writeG (x : Slot) (r : Reg) (v : Word) : Slot :=
  if r = 0 then x else { x with g := x.g.set r.toNat v r.isLt, gt := x.gt.set r.toNat .full r.isLt }

/-- A long-latency producer of register r issues (R15). -/
def Slot.emptyG (x : Slot) (r : Reg) : Slot := x.setTagG r .empty

/-- A producer of register r failed (R15). -/
def Slot.poisonG (x : Slot) (r : Reg) (cause : BitVec 8) (tval : Word) : Slot := x.setTagG r (.poisoned cause tval)

/-- Mask register m: m0 reads all ones (R13). -/
def Slot.readM (x : Slot) (m : MReg) : BitVec 16 := if m = 0 then 0xFFFF else x.m[m.toNat]'m.isLt

/-- Writes mask register m; m0 ignores writes (R13). -/
def Slot.writeM (x : Slot) (m : MReg) (v : BitVec 16) : Slot :=
  if m = 0 then x else { x with m := x.m.set m.toNat v m.isLt }

/-- The instruction is done: the slot goes on at the next word. -/
def Slot.next (x : Slot) : Slot := { x with pc := x.pc + 4, wait := .ready }

/-- Completion counter n (R19). -/
def Slot.counter (x : Slot) (n : BitVec 4) : BitVec 16 := x.c[n.toNat]'n.isLt

def Slot.setCounter (x : Slot) (n : BitVec 4) (v : BitVec 16) : Slot := { x with c := x.c.set n.toNat v n.isLt }

/-- Wakes a slot in WFE (R90). -/
def Slot.wake (x : Slot) : Slot := if x.wait = .wfe false then { x with wait := .wfe true } else x

def Slot.xm (x : Slot) : Bool := x.fstat.getLsbD 3
def Slot.rm (x : Slot) : BitVec 3 := x.fstat.extractLsb' 0 3

/-! ## Vector registers -/

def Slot.vbase (x : Slot) : Nat := (x.valloc.extractLsb' 0 8).toNat
def Slot.vcount (x : Slot) : Nat := (x.valloc.extractLsb' 8 8).toNat

/-- The index a vector operand resolves to (R22). -/
def vindex (r : VReg) (vi : BitVec 8) : Int := if r.rel then vi.toInt + (r.n.toNat : Int) else (r.n.toNat : Int)

/-- The core vector register of an operand, or the index that is out of bounds (R22). -/
def Slot.vreg (x : Slot) (r : VReg) : Except Int Nat :=
  let i := vindex r x.vi
  if i < 0 ∨ (x.vcount : Int) ≤ i then .error i else .ok (x.vbase + i.toNat)

/-- The lanes of core vector register n; a number above 127 names none (R20). -/
def Core.readV (c : Core) (n : Nat) : Vector Word32 16 := if h : n < 128 then c.v[n] else Vector.replicate 16 0

def Core.tagV (c : Core) (n : Nat) : Tag := if h : n < 128 then c.vt[n] else .full

def Core.setTagV (c : Core) (n : Nat) (t : Tag) : Core := if h : n < 128 then { c with vt := c.vt.set n t } else c

/-- Writes core vector register n and leaves it full (R15). -/
def Core.writeV (c : Core) (n : Nat) (v : Vector Word32 16) : Core :=
  if h : n < 128 then { c with v := c.v.set n v, vt := c.vt.set n .full } else c

/-- The lane i of a vector; lanes are numbered 0 to 15. -/
def lane (v : Vector Word32 16) (i : Nat) : Word32 := if h : i < 16 then v[i] else 0

/-- The vector whose lane i is f i in the active lanes of mask m, and the lane of `old` elsewhere. -/
def mapLanes (m : BitVec 16) (old : Vector Word32 16) (f : Nat → Word32) : Vector Word32 16 :=
  Vector.ofFn fun i => if m.getLsbD i.val then f i.val else old[i]

/-- The numbers of the active lanes, ascending. -/
def activeLanes (m : BitVec 16) : List Nat := (List.range 16).filter (fun i => m.getLsbD i)

/-! ## Requests -/

/-- Requests of a slot that fill a register when they land (R15): all but posted stores and posts. -/
def Req.producer (r : Req) : Bool :=
  match r.kind with
  | .ldn .. | .vld .. | .vldf .. | .eng .. | .ship _ _ true _ _ _ _ | .chain .. => true
  | _ => false

/-- No producer that the slot issued is in flight (R18, R85, R88). -/
def Slot.settled (x : Slot) : Bool := !x.reqs.any Req.producer

/-- No producer and no ST of the activation awaits its translation answer: a trap is delivered then, so that no access parks after it (R85;
DESIGN CHOICE: log 18). -/
def Slot.quiet (x : Slot) : Bool :=
  !x.reqs.any fun r => r.producer || (!r.ended && match r.kind with | .st .. => true | _ => false)

/-- A load of the slot, whose value an acquire orders before later accesses (R156). -/
def Req.isLoad (r : Req) : Bool :=
  match r.kind with | .ldn .. | .vld .. | .vldf .. | .chain .. | .load .. => true | _ => false

/-- An acquire holds back later accesses of the slot until each of its earlier loads has its value (R156, R157). -/
def Slot.acquiring (x : Slot) : Bool := x.reqs.any fun r => x.acq.contains r.num

/-- The slot performs an acquire now: what it loaded before comes first (R157). -/
def Slot.acquire (x : Slot) : Slot := { x with acq := (x.reqs.filter Req.isLoad).map (·.num) }

def Slot.req (x : Slot) (n : Nat) : Option Req := x.reqs.find? (fun r => r.num = n)

def Slot.dropReq (x : Slot) (n : Nat) : Slot := { x with reqs := x.reqs.filter (fun r => r.num ≠ n) }

def Slot.addReq (x : Slot) (r : Req) : Slot := { x with reqs := x.reqs ++ [r] }

/-- Requests of a slot that OUTST counts: those outstanding and the accesses parked in the core (R77). -/
def Slot.outst (x : Slot) : Nat := (x.reqs.filter (fun r => r.counted)).length + (x.parked.filter (fun p => p.kind ≠ 3)).length

/-- OUTST.COUNT of a core (R39). -/
def Core.outst (c : Core) : Nat := (c.slots.toList.map Slot.outst).sum

/-- No further request of the core may issue (R39). -/
def Core.outstFull (c : Core) : Bool := c.limit.toNat ≤ c.outst

/-- Takes a free value of the spec (log 5). -/
def State.draw (s : State) : Word × State := (Config.freeValue s.fresh, { s with fresh := s.fresh + 1 })

end Sys2Proof.Machine
end

