-- ==== Sys2Proof/Machine/Memory.lean ====
section
/-!
DEFINITION. Memory: bytes, full/empty tags and poison by key; the scratchpad window; translation (R251 to R254); the core
data cache (R144). A key is a physical address, or 2^40 + 65536 * core + offset for a scratchpad byte.
-/

namespace Sys2Proof.Machine

/-! ## Addresses and sizes -/

/-- Bits [55:0]. -/
def addr56 (p : Word) : Nat := (p.extractLsb' 0 56).toNat

/-- Size of an access with a size code (R72). -/
def szBytes (z : BitVec 3) : Nat :=
  if z = 0 || z = 4 then 1 else if z = 1 || z = 5 then 2 else if z = 2 || z = 6 then 4 else 8

/-- The address a of a step: (p[55:0] + sext(off)) modulo 2^56 (R208). -/
def stepAddr (p : Word) (off : Word32) : Nat := ((addr56 p : Int) + off.toInt).emod (2 ^ 56) |>.toNat

/-! ## Bytes -/

/-- The bytes of a number, little-endian (R2). -/
def toBytes : Nat → Nat → List Byte
  | 0, _ => []
  | n + 1, v => BitVec.ofNat 8 v :: toBytes n (v / 256)

/-- The number that bytes hold, little-endian (R2). -/
def leNat : List Byte → Nat
  | [] => 0
  | b :: bs => b.toNat + 256 * leNat bs

def State.byte (s : State) (k : Nat) : Byte := mget 0 s.mem k

def State.setByte (s : State) (k : Nat) (b : Byte) : State := { s with mem := mset 0 s.mem k b }

def State.bytes (s : State) (keys : List Nat) : List Byte := keys.map s.byte

/-- The memory with some bytes written. -/
def memPuts (m : List Host.Cell) : List (Nat × Byte) → List Host.Cell
  | [] => m
  | (k, b) :: rest => memPuts (mset 0 m k b) rest

/-- Writes bytes, each at its key, in order. -/
def State.setBytes (s : State) (l : List (Nat × Byte)) : State := { s with mem := memPuts s.mem l }

/-- Reads n bytes from key k. -/
def State.read (s : State) (k n : Nat) : Nat := leNat ((List.range n).map fun i => s.byte (k + i))

/-- Keys k to k + n - 1. -/
def keysFrom (k n : Nat) : List Nat := (List.range n).map (fun i => k + i)

/-- Writes a number as n bytes from key k. -/
def State.write (s : State) (k n v : Nat) : State := s.setBytes ((keysFrom k n).zip (toBytes n v))

/-- The canonical form of memory: addresses strictly rising, no listed byte 0, which an unlisted address reads as. -/
def Memory.wf (m : List Host.Cell) : Bool := mwf 0 m

/-! ## Tags and poison -/

/-- The full/empty tag of word w = key / 4 (R146). -/
def State.tagFull (s : State) (w : Nat) : Bool := mget true s.tags w

def State.setTag (s : State) (w : Nat) (full : Bool) : State := { s with tags := mset true s.tags w full }

def State.setTags (s : State) (ws : List Nat) (full : Bool) : State :=
  { s with tags := ws.foldl (fun t w => mset true t w full) s.tags }

def State.isPoisoned (s : State) (keys : List Nat) : Bool := keys.any fun k => mget false s.poison (k / 4)

/-- The words whose four bytes all stand among the keys, which rise (R147, R297). -/
def wholeWords (keys : List Nat) : List Nat :=
  (keys.filter fun k => k % 4 = 0 && keys.contains (k + 1) && keys.contains (k + 2) && keys.contains (k + 3)).map (· / 4)

/-- The words that contain the keys, each once. -/
def wordsOf : List Nat → List Nat
  | [] => []
  | k :: ks => let r := wordsOf ks; if r.head? = some (k / 4) then r else k / 4 :: r

/-- A write can merge: it covers a word whole or the word is not poisoned (R297). -/
def State.canMerge (s : State) (keys : List Nat) : Bool :=
  keys.all fun k => !(mget false s.poison (k / 4)) || (wholeWords keys).contains (k / 4)

/-- Writes bytes at their keys and clears the poison of words written whole (R297). -/
def State.put (s : State) (keys : List Nat) (bs : List Byte) : State :=
  let s := s.setBytes (keys.zip bs)
  if s.poison = [] then s else { s with poison := (wholeWords keys).foldl (fun p w => mset false p w false) s.poison }

/-! ## Regions -/

/-- First byte of the cluster scratchpad window (R141). -/
def winBase : Nat := 0x7FFFFFFF800000
/-- The end of local addresses: bit 55 (R141). -/
def winEnd : Nat := 2 ^ 55

def inWin (a : Nat) : Bool := winBase ≤ a && a < winEnd

/-- Key of byte o of the scratchpad of a core. -/
def padKey (core o : Nat) : Nat := 2 ^ 40 + core * 65536 + o

/-- Window address of byte o of the scratchpad of a core (R141). -/
def winAddr (core o : Nat) : Nat := winBase + core % 128 * 65536 + o

/-- Bit 55 of an effective address: a peer package (R42, R141). -/
def isPeer (ea : Nat) : Bool := ea / winEnd % 2 = 1

/-- Who makes an access: its context, the first core of its cluster, and CTXID.PHYS (R142, R247). -/
structure Agent where
  ctx : Nat
  base : Option Nat
  phys : Bool
  deriving DecidableEq, Repr

/-- The agent of a core under a CTXID. A control core has no cluster, so no window (log 12). -/
def agentOf (core : Nat) (ctxid : BitVec 7) : Agent :=
  let n := (ctxid.extractLsb' 0 6).toNat
  if isControl core then ⟨n, none, ctxid.getLsbD 6⟩ else ⟨n, some (clusterBase core), false⟩

/-- CTXID of a slot: that of a control core, or the number of the context that holds the core (R247). -/
def State.ctxidOf (s : State) (sl : SlotId) : BitVec 7 :=
  if isControl sl.core then (s.slot sl).ctxid else BitVec.ofNat 7 (s.ctxOf sl % 64)

/-- A slot as an agent. -/
def State.agent (s : State) (sl : SlotId) : Agent := agentOf sl.core (s.ctxidOf sl)

/-- A request acts under the CTXID that its slot had at issue (R244, R247). -/
def Req.agent (r : Req) (sl : SlotId) : Agent := agentOf sl.core r.ctxid

/-- What an access needs (R254). -/
structure Perm where
  r : Bool
  w : Bool
  x : Bool
  deriving DecidableEq, Repr

def permR : Perm := ⟨true, false, false⟩
def permW : Perm := ⟨false, true, false⟩
def permRW : Perm := ⟨true, true, false⟩
def permX : Perm := ⟨false, false, true⟩

/-- Causes of R40. -/
def cILLOP : BitVec 8 := 0x01
def cEMPTYREG : BitVec 8 := 0x02
def cVREGBOUND : BitVec 8 := 0x03
def cMISALIGN : BitVec 8 := 0x04
def cFMTFAULT : BitVec 8 := 0x05
def cPAGEFAULT : BitVec 8 := 0x06
def cACCESS : BitVec 8 := 0x07
def cXMMISMATCH : BitVec 8 := 0x08
def cCHAINFLT : BitVec 8 := 0x09
def cREMOTEFAIL : BitVec 8 := 0x0A
def cENGFAULT : BitVec 8 := 0x0B
def cUNCORR : BitVec 8 := 0x0C
def cBRKPT : BitVec 8 := 0x0D
def cHBOUND : BitVec 8 := 0x0E

/-! ## Translation -/

def bit (v i : Nat) : Bool := v.testBit i

/-- The levels of the page table: first bit and width of each index (R252). -/
def levels : List (Nat × Nat) := [(48, 7), (39, 9), (30, 9), (21, 9), (16, 5)]

/-- The walk (R252 to R254): the leaf entry for va, or the cause; an entry with uncorrectable data gives UNCORR (R297). -/
def walk (s : State) (ctx va : Nat) : Nat → List (Nat × Nat) → Except (BitVec 8) Xlat
  | _, [] => .error cACCESS
  | table, (sh, w) :: rest =>
    let e := s.read (table + 8 * (va / 2 ^ sh % 2 ^ w)) 8
    if s.isPoisoned (keysFrom (table + 8 * (va / 2 ^ sh % 2 ^ w)) 8) then .error cUNCORR
    else if !bit e 0 then .error cPAGEFAULT
    else if e / 2 ^ 40 ≠ 0 || bit e 7 || (bit e 5 && bit e 4) then .error cACCESS
    else
      let pa := e / 256 % 2 ^ 32 * 256
      if bit e 1 then
        if 39 ≤ sh || (bit e 5 && sh == 16) || pa % 2 ^ sh ≠ 0 then .error cACCESS
        else .ok ⟨ctx, va / 2 ^ sh * 2 ^ sh, 2 ^ sh, pa, BitVec.ofNat 64 e⟩
      else if sh == 16 then .error cACCESS
      else walk s ctx va pa rest

/-- The translation of a virtual address: the one a slice holds, else the walk's (R251). -/
def State.xlat (s : State) (ctx va : Nat) : Except (BitVec 8) Xlat :=
  match s.xlats.find? (fun x => x.ctx = ctx && x.va ≤ va && va < x.va + x.size) with
  | some x => .ok x
  | none => walk s ctx va (s.ctx ctx).ptroot.toNat levels

/-- A slice keeps the translation of a valid entry (R251; log 9). -/
def State.keepXlat (s : State) (ctx va : Nat) : State :=
  if s.xlats.any (fun x => x.ctx = ctx && x.va ≤ va && va < x.va + x.size) then s
  else match s.xlat ctx va with
    | .ok x => { s with xlats := x :: s.xlats }
    | .error _ => s

def Xlat.permits (x : Xlat) (p : Perm) : Bool :=
  (!p.r || x.entry.getLsbD 2) && (!p.w || x.entry.getLsbD 3) && (!p.x || x.entry.getLsbD 4)

/-- Where the bytes of an access lie: a key each, live tags (R149), memory-side (R143), scratchpad. -/
structure Loc where
  keys : List Nat
  tagged : Bool
  ms : Bool
  pad : Bool
  deriving DecidableEq, Repr

/-- Translates one page's part of an access. -/
def State.pagePart (s : State) (ctx va n : Nat) (p : Perm) : Except (BitVec 8) Loc :=
  match s.xlat ctx va with
  | .error c => .error c
  | .ok x =>
    if x.permits p then .ok ⟨keysFrom (x.pa + (va - x.va)) n, x.entry.getLsbD 6, x.entry.getLsbD 5, false⟩
    else .error cACCESS

/-- Where n bytes at local address ea lie for an agent, or the cause of the fault (R141, R142, R247, R254). DESIGN CHOICE: R247 has
[54:40] of an untranslated address 0 and names no consequence where they are not; here the access traps ACCESS (log 29). -/
def State.resolve (s : State) (ag : Agent) (ea n : Nat) (p : Perm) : Except (BitVec 8) Loc :=
  let last := ea + n - 1
  if n = 0 then .ok ⟨[], false, false, false⟩
  else if inWin ea || inWin last then
    if !(inWin ea && inWin last) then .error cACCESS
    else
      let c := (ea - winBase) / 65536
      if (last - winBase) / 65536 ≠ c then .error cACCESS
      else match ag.base with
        | none => .error cACCESS
        | some b =>
          if (s.core (b + c)).ctx = some ag.ctx then .ok ⟨keysFrom (padKey (b + c) ((ea - winBase) % 65536)) n, true, false, true⟩
          else .error cACCESS
  else if winEnd ≤ last then .error cACCESS
  else if ag.phys then
    if 2 ^ 40 ≤ last then .error cACCESS else .ok ⟨keysFrom ea n, true, false, false⟩
  else
    let first := min n (65536 - ea % 65536)
    match s.pagePart ag.ctx ea first p with
    | .error c => .error c
    | .ok l =>
      if first = n then .ok l
      else match s.pagePart ag.ctx (ea + first) (n - first) p with
        | .error c => .error c
        | .ok l' => .ok ⟨l.keys ++ l'.keys, l.tagged && l'.tagged, l.ms || l'.ms, false⟩

/-- The translation slices keep what an access used (R251). -/
def State.translated (s : State) (ag : Agent) (ea n : Nat) : State :=
  if n = 0 || ag.phys || inWin ea || inWin (ea + n - 1) then s
  else (s.keepXlat ag.ctx ea).keepXlat ag.ctx (ea + n - 1)

/-! ## The Crema (R145) -/

/-- The leader sets: `some true` inserts its fills at the MRU position, `some false` is bimodal. -/
def leaderSet (set : BitVec 10) : Option Bool :=
  if set.extractLsb' 5 5 = set.extractLsb' 0 5 then some true
  else if set.extractLsb' 5 5 = ~~~(set.extractLsb' 0 5) then some false
  else none

/-- PSEL after a miss in a set. -/
def pselAfter (lead : Option Bool) (p : BitVec 10) : BitVec 10 :=
  match lead with
  | some true => if p = 1023 then p else p + 1
  | some false => if p = 0 then p else p - 1
  | none => p

/-- The lines of a set after a fill: of its 16 ways the least recent one goes. -/
def cremaFill (ways : List Nat) (line : Nat) (recent : Bool) : List Nat :=
  let kept := if ways.length < 16 then ways else ways.dropLast
  if recent then line :: kept else kept ++ [line]

/-- A context's access to a physical address of a page without MS reaches the home bank: a hit makes the line the most recent, a miss
counts in PSEL and fills (R145; log 30). -/
def State.cremaAccess (s : State) (ctx pa : Nat) : State :=
  let line := pa % 2 ^ 40 / 128
  let b := (Config.homeBank line).toNat
  let set := Config.cremaSet line
  let bank := mget ⟨[], 0⟩ s.crema.banks b
  let ways := mget [] bank.sets set.toNat
  let psel := mget 512 s.crema.psel ctx
  let lead := leaderSet set
  if ways.contains line then
    { s with crema := { s.crema with banks := mput s.crema.banks b { bank with sets := mput bank.sets set.toNat (line :: ways.erase line) } } }
  else
    let bimodal := lead = some false || (lead = none && psel.getLsbD 9)
    let recent := !bimodal || (bank.fills + 1) % 32 = 0
    { s with crema :=
        { banks := mput s.crema.banks b ⟨mput bank.sets set.toNat (cremaFill ways line recent), bank.fills + 1⟩,
          psel := mset 512 s.crema.psel ctx (pselAfter lead psel) } }

/-- Some context holds the row of a physical address: its accesses go to the Carafe (R212). -/
def State.rowHeld (s : State) (pa : Nat) : Bool :=
  s.ctxs.any fun c => c.2.holds.any fun h => !h.2.dropped && match h.2.row with | some (_, r) => r / 2048 = pa / 2048 | none => false

/-- The home bank drops the lines of the pages that hold some bytes of an agent (R202). -/
def State.cremaDropLine (s : State) (pa : Nat) : State :=
  let bank (b : CremaBank) : CremaBank := { b with sets := b.sets.map fun t => (t.1, t.2.filter fun line => line ≠ pa / 128) }
  { s with crema := { s.crema with banks := s.crema.banks.map fun b => (b.1, bank b.2) } }

/-- The Crema drops its lines of a row (R212). -/
def State.cremaDrop (s : State) (pa : Nat) : State :=
  let bank (b : CremaBank) : CremaBank := { b with sets := b.sets.map fun t => (t.1, t.2.filter fun line => line / 16 ≠ pa / 2048) }
  { s with crema := { s.crema with banks := s.crema.banks.map fun b => (b.1, bank b.2) } }

/-- The physical address of the Crema line of a virtual address for an agent, if the access goes there. -/
def State.cremaPa (s : State) (ag : Agent) (ea : Nat) : Option Nat :=
  if inWin ea then none
  else if ag.phys then some ea
  else match s.xlat ag.ctx ea with
    | .ok x => if x.entry.getLsbD 5 then none else some (x.pa + (ea - x.va))
    | .error _ => none

/-- One byte's access reaches the Crema. -/
def State.cremaByte (s : State) (ag : Agent) (ea : Nat) : State :=
  match s.cremaPa ag ea with
  | some pa => if s.rowHeld pa then s else s.cremaAccess ag.ctx pa
  | none => s

/-- An access performed at its point of coherence: the slices keep its translations, and the Crema sees it. -/
def State.used (s : State) (ag : Agent) (ea n : Nat) : State :=
  if n = 0 then s
  else
    let s := (s.translated ag ea n).cremaByte ag ea
    if ea / 128 = (ea + n - 1) / 128 then s else s.cremaByte ag (ea + n - 1)

/-- The Crema line of an address, for an agent whose access is carried out below it (R202). -/
def State.cremaShip (s : State) (ag : Agent) (ea : Nat) : State :=
  match s.cremaPa ag ea with
  | some pa => s.cremaDropLine pa
  | none => s

/-- A shipped call's footprint is used: the slices keep its translation, and the home bank writes its line back and drops it (R202). -/
def State.shipped (s : State) (ag : Agent) (ea n : Nat) : State := (s.translated ag ea n).cremaShip ag ea

/-- A window access needs no translation, so its faults are found at issue (R75, R142). -/
def touchesWin (ea n : Nat) : Bool := inWin ea || inWin (ea + n - 1)

/-- The access lies in the scratchpad of the issuing core, which OUTST does not count (R77). -/
def ownPad (core ea n : Nat) : Bool :=
  !isControl core && winAddr core 0 ≤ ea && ea + n ≤ winAddr core 0 + 65536

/-! ## Banks (R200) -/

/-- 1024 * stack + 32 * channel + bank of a physical address. -/
def bankOf (pa : Nat) : Nat := pa / 2 ^ 37 % 8 * 1024 + pa / 2 ^ 11 % 32 * 32 + pa / 2 ^ 16 % 32
def rowOf (pa : Nat) : Nat := pa / 2 ^ 21 % 65536
/-- A bank's subarray, which owns one row buffer. -/
def subarrayOf (pa : Nat) : Nat := bankOf pa * 8 + rowOf pa / 8192

/-- A near-bank unit is at work on a bank; `some true` while it stands at a row boundary (R218, R223). -/
def State.unitAt (s : State) (bank : Nat) : Option Bool :=
  match mget [] s.carafe.nb bank with
  | p :: _ =>
    if (s.ctx p.ctx).st ≠ .running then none
    else if p.st = .running then some false else if p.st = .yielding then some true else none
  | [] => none

def Loc.bank (l : Loc) : Nat := bankOf (l.keys.headD 0)

/-- A near-bank unit is at work on the bank of an access to memory-side words: an ordinary access waits there for the next row boundary
(R218, R223). -/
def State.bankBusy (s : State) (l : Loc) : Bool := l.ms && (s.unitAt l.bank).isSome

/-- The bytes that earlier requests of the slot may still read or write, vector accesses included. -/
def ReqKind.spans : ReqKind → List (Nat × Nat)
  | .ldn _ z _ ea => [(ea.toNat, szBytes z)]
  | .st z _ ea _ => [(ea.toNat, szBytes z)]
  | .vld _ w _ lanes _ => lanes.map fun l => (l.2.toNat, if w = 0 then 33 else w)
  | .vldf _ _ _ lanes _ _ => lanes.map fun l => (l.2.toNat, 4)
  | .vst ws => ws.map fun w => (w.2.1.toNat, w.2.2.length)
  | .chain _ p 0 _ (q :: _) _ => [(stepAddr p q.1, 8)]
  | .ship n _ _ wide p _ _ => [if n < 32 then (addr56 p, if wide then 8 else 4) else (addr56 p / 64 * 64, 64)]
  | _ => []

/-- The bytes that a request still accesses as an ordinary access: for a chain those of the step it is at. -/
def ReqKind.touches : ReqKind → List (Nat × Nat)
  | .chain _ p _ _ (q :: _) _ => [(stepAddr p q.1, 8)]
  | k => k.spans

/-- The bank that a request needs for the bytes at ea, if a near-bank unit is at work there. -/
def State.bankFor (s : State) (ag : Agent) (ea n : Nat) : Option Nat :=
  if isPeer ea then none
  else match s.resolve ag ea n ⟨false, false, false⟩ with
    | .ok l => if s.bankBusy l then some l.bank else none
    | .error _ => none

/-- An entry still waits: what joined the bank has not been served, and could be. -/
def State.stillWaits (s : State) (w : BankWait) : Bool :=
  match w.user with
  | .req sl num =>
    match (s.slot sl).req num with
    | some r => r.kind.touches.any fun p => s.bankFor (r.agent sl) p.1 p.2 = some w.bank
    | none => false
  | .slot sl pc =>
    let x := s.slot sl
    x.pc = pc && (x.wait = .ready || x.wait = .retry) && x.trap.isNone && x.act.isSome && !(s.core sl.core).outstFull
  | .job oct ctx id => (mget [] s.jobs oct).any fun j => j.ctx = ctx && j.id = id && j.st ≠ .stopped
  | .peer f => s.fab.arrived.contains f

/-- What is served first at a bank (R218, R223). -/
def State.bankHead (s : State) (bank : Nat) : Option BankUser :=
  (s.carafe.waiting.find? fun w => w.bank = bank && s.stillWaits w).map (·.user)

/-- A user is at the head of a bank whose unit stands at a boundary. -/
def State.headOfSome (s : State) (u : BankUser) : Bool :=
  s.carafe.waiting.any fun w => w.user = u && s.unitAt w.bank = some true && s.bankHead w.bank = some u

/-- An ordinary access may be served: no near-bank unit is at work on its bank, or the unit stands at a row boundary and nothing came
before (R218, R223). DESIGN CHOICE: a job that needs two banks keeps its place at one of them while it waits for the other (log 46). -/
def State.bankOpen (s : State) (u : BankUser) (l : Loc) : Bool :=
  !s.bankBusy l ||
    (s.unitAt l.bank = some true && (s.bankHead l.bank = none || s.bankHead l.bank = some u || s.headOfSome u))

/-- An access joins those that wait at a bank. -/
def State.joinBank (s : State) (u : BankUser) (bank : Nat) : State :=
  if s.carafe.waiting.contains ⟨bank, u⟩ then s
  else { s with carafe := { s.carafe with waiting := s.carafe.waiting.filter s.stillWaits ++ [⟨bank, u⟩] } }

/-- What a slot issues has been served at a bank where a unit is at work: its entry goes. -/
def State.leaveBank (s : State) (u : BankUser) (l : Loc) : State :=
  if s.bankBusy l then { s with carafe := { s.carafe with waiting := s.carafe.waiting.filter fun w => w.user ≠ u } } else s

/-! ## Tags of an access -/

/-- The words whose tags an access of n bytes at a key uses (R146). -/
def tagWords (l : Loc) : List Nat := wordsOf l.keys

/-- Every word of the access is full; words of a page without TAGGED read full (R149). -/
def State.locFull (s : State) (l : Loc) : Bool := !l.tagged || (tagWords l).all s.tagFull

def State.locEmpty (s : State) (l : Loc) : Bool := l.tagged && (tagWords l).all (fun w => !s.tagFull w)

/-! ## The core data cache -/

/-- A core has a data cache (R144, R246). -/
def cacheable (core : Nat) (l : Loc) : Bool := !isControl core && !l.pad && !l.ms

def lineByte (ls : List Line) (ea : Nat) : Option Byte :=
  match ls.find? (fun l => l.line = ea / 64) with
  | some l => l.bytes[ea % 64]?
  | none => none

/-- The store of the die's slices that a core of the die sees for a byte: the latest forwarded one (R154). -/
def State.sliceByte (s : State) (die key : Nat) : Option Byte :=
  (s.slices.reverse.find? fun e => dieOf e.sl.core = die && e.keys.contains key).bind fun e => e.bytes[e.keys.idxOf key]?

/-- The bytes at some keys as the cores of a die see them: forwarded stores of the die, else memory (R154). -/
def State.seen (s : State) (core : Nat) (keys : List Nat) : List Byte :=
  if s.slices = [] then s.bytes keys
  else keys.map fun k => (s.sliceByte (dieOf core) k).getD (s.byte k)

/-- The store lies over one of the words of some keys. -/
def SliceStore.over (e : SliceStore) (keys : List Nat) : Bool := e.keys.any fun k => keys.any fun q => q / 4 = k / 4

/-- It covers one of the words of some keys in part. -/
def SliceStore.partlyOver (e : SliceStore) (keys : List Nat) : Bool :=
  e.keys.any fun k => !(wholeWords e.keys).contains (k / 4) && keys.any fun q => q / 4 = k / 4

/-- A forwarded store stands before an access of the core at the point of coherence of some words: one of its own die, or one of another die
that covers a word in part, so that every agent sees the writes of a word in one order (R152, R154). -/
def State.sliceOver (s : State) (core : Nat) (keys : List Nat) : Bool :=
  s.slices.any fun e => (dieOf e.sl.core = dieOf core && e.over keys) || e.partlyOver keys

/-- The slices of a die other than the core's hold a store to one of the words, where either covers it in part (R152). -/
def State.sliceClash (s : State) (core : Nat) (keys : List Nat) : Bool :=
  s.slices.any fun e => dieOf e.sl.core ≠ dieOf core &&
    (e.partlyOver keys || keys.any fun k => !(wholeWords keys).contains (k / 4) && e.over [k])

/-- The slices of the core's die hold no store (R154). -/
def State.sliceFree (s : State) (core : Nat) : Bool := s.slices.all fun e => dieOf e.sl.core ≠ dieOf core

/-- By word, whether the 64 bytes from a key are poisoned. -/
def State.badWords (s : State) (key : Nat) : BitVec 16 :=
  if s.poison = [] then 0
  else BitVec.ofNat 16 (((List.range 16).filter fun i => mget false s.poison (key / 4 + i)).foldl (fun a i => a + 2 ^ i) 0)

/-- Fills the line of address ea, whose byte has the given key, if it is absent (R144). -/
def State.fillLine (s : State) (ag : Agent) (core ea key : Nat) : State :=
  let c := s.core core
  let first := key - ea % 64
  if c.dcache.any (fun l => l.line = ea / 64) then s
  else
    let s := s.cremaByte ag ea
    let ways := c.dcache.filter (fun l => l.line % 64 = ea / 64 % 64)
    let new : Line := ⟨ea / 64, s.seen core (keysFrom first 64), s.badWords first⟩
    if ways.length < 2 then s.setCore core { c with dcache := c.dcache ++ [new] }
    else
      let victim := (ways[if Config.evictWay s.fresh then 1 else 0]?.map Line.line).getD 0
      let s := { s with fresh := s.fresh + 1 }
      s.setCore core { c with dcache := c.dcache.filter (fun l => l.line ≠ victim) ++ [new] }

/-- Fills the lines of all bytes of an access. -/
def State.fillLines (s : State) (ag : Agent) (core : Nat) : List (Nat × Nat) → State
  | [] => s
  | (ea, key) :: rest => (s.fillLine ag core ea key).fillLines ag core rest

/-- The value a load sees: the core's line where it holds one, else the die's slices and memory (R144, R154). -/
def State.loadBytes (s : State) (core ea : Nat) (l : Loc) : List Byte :=
  if cacheable core l then
    let ls := (s.core core).dcache
    let below := s.seen core l.keys
    (below.zip (List.range l.keys.length)).map fun p => (lineByte ls (ea + p.2)).getD p.1
  else s.bytes l.keys

/-- The byte of a line is of a word that was poisoned when the line was filled. -/
def lineBad (ls : List Line) (ea : Nat) : Option Bool :=
  (ls.find? (fun l => l.line = ea / 64)).map fun l => l.bad.getLsbD (ea % 64 / 4)

/-- Place of the first byte for which a load meets uncorrectable data: in the core's line where it holds one, else in memory (R144, R297). -/
def State.badByte (s : State) (core ea : Nat) (l : Loc) : Option Nat :=
  (List.range l.keys.length).find? fun i =>
    match (if cacheable core l then lineBad (s.core core).dcache (ea + i) else none) with
    | some b => b
    | none => mget false s.poison (l.keys[i]?.getD 0 / 4)

/-- A load looks the cache up and fills it; where the core has none, it reads at the point of coherence. -/
def State.loadFill (s : State) (ag : Agent) (core ea : Nat) (l : Loc) : State :=
  let s := s.translated ag ea l.keys.length
  if cacheable core l then s.fillLines ag core ((List.range l.keys.length).map (ea + ·) |>.zip l.keys)
  else s.used ag ea l.keys.length

/-- The words of a line that stay poisoned when n bytes at ea are written. -/
def Line.clean (l : Line) (ea n : Nat) : BitVec 16 :=
  if l.bad = 0 then 0
  else BitVec.ofNat 16 (((List.range 16).filter fun i =>
    l.bad.getLsbD i && !(ea ≤ l.line * 64 + 4 * i && l.line * 64 + 4 * i + 4 ≤ ea + n)).foldl (fun a i => a + 2 ^ i) 0)

/-- A store of the core updates a line that holds its bytes (R144); a word that it writes whole is no longer poisoned there (R297). -/
def State.storeLine (s : State) (core ea : Nat) (bs : List Byte) : State :=
  if (s.core core).dcache = [] then s
  else s.modCore core fun c =>
    { c with dcache := c.dcache.map fun l =>
        { l with
            bytes := (l.bytes.zip (List.range 64)).map fun p =>
              let a := l.line * 64 + p.2
              if ea ≤ a && a < ea + bs.length then bs[a - ea]?.getD p.1 else p.1,
            bad := l.clean ea bs.length } }

/-- Invalidates the core's line of an address (R144). -/
def State.dropLine (s : State) (core ea : Nat) : State :=
  if (s.core core).dcache = [] then s
  else s.modCore core fun c => { c with dcache := c.dcache.filter (fun l => l.line ≠ ea / 64) }

/-- An acquire at cluster scope or wider invalidates the core data cache (R144, R156). -/
def State.dropLines (s : State) (core : Nat) : State := s.modCore core fun c => { c with dcache := [] }

/-! ## The past: what fetch and a walk may still see -/

/-- A word is kept as it was before a slot's access writes it, for the cores that see the write now: those of one die, or all others. -/
def State.kept (s : State) (keys : List Nat) (old : List Nat → List Byte) (die : Nat) (here sync : Bool) : State :=
  let ws := (wordsOf keys).filter fun w => !mget false s.poison w
  { s with past := ws.map (fun w => PastEvent.wrote w (old (keysFrom (4 * w) 4)) die here sync) ++ s.past }

/-- No die: a write that every core sees at once. -/
def noDie : Nat := 16

/-- The access of a slot writes words at their point of coherence. -/
def State.keptAll (s : State) (keys : List Nat) (sync : Bool) : State := s.kept keys s.bytes noDie false sync

/-- The cores that a fence of a core at a scope covers (R31). -/
def fenceCovers (core scope c : Nat) : Bool :=
  4 ≤ scope || (scope = 3 && dieOf core = dieOf c) || (scope = 2 && clusterBase core = clusterBase c) || (scope = 1 && core = c)

/-- The bytes of a word that fetch of a core has not gone past: its oldest value since the last FENCE with .I whose scope holds the core
(R36). -/
def unfetched (c w : Nat) : List PastEvent → Option (List Byte)
  | [] => none
  | .fence core scope fetched _ :: rest => if fetched && fenceCovers core scope c then none else unfetched c w rest
  | .wrote v old die here _ :: rest =>
    match unfetched c w rest with
    | some b => some b
    | none => if v = w && (here == (die == dieOf c)) then some old else none

/-- The bytes at some keys as fetch of a core sees them (R36). -/
def State.fetched (s : State) (core : Nat) (keys : List Nat) : List Byte :=
  if s.past = [] then s.seen core keys
  else (keys.zip (s.seen core keys)).map fun p => ((unfetched core (p.1 / 4) s.past).bind fun b => b[p.1 % 4]?).getD p.2

/-- Words that a walk may still see as they were: no release at package scope and no synchronising access has come since (R155, R257). -/
def unfenced : List PastEvent → List (Nat × List Byte)
  | [] => []
  | .fence _ scope _ release :: rest => if release && 4 ≤ scope then [] else unfenced rest
  | .wrote w old _ here sync :: rest => if sync then [] else if here then unfenced rest else (w, old) :: unfenced rest

/-- The memory that such a walk sees. -/
def State.unseen (s : State) : State :=
  (unfenced s.past).foldl (fun s p => s.setBytes ((keysFrom (4 * p.1) 4).zip p.2)) s

/-- A slot executes a fence. -/
def State.fencePast (s : State) (core : Nat) (scope : Nat) (fetched release : Bool) : State :=
  if s.past = [] || scope = 0 || !(fetched || release) then s
  else if fetched && release && 4 ≤ scope then { s with past := [] }
  else { s with past := .fence core scope fetched release :: s.past }

/-! ## Fetch -/

/-- Discards the instruction cache of a core (R36). -/
def State.dropFetched (s : State) (core : Nat) : State := s.modCore core fun c => { c with icache := [] }

/-- The key of a fetched word: its pc, in the address space of CTXID (R36, R247). -/
def State.fetchKey (s : State) (sl : SlotId) : Nat := (s.ctxidOf sl).toNat * 2 ^ 64 + (s.slot sl).pc.toNat

/-- The word a slot fetches at its pc, and the state with it in the instruction cache, or the cause (R36). -/
def State.fetch (s : State) (sl : SlotId) : Except (BitVec 8) (Word32 × State) :=
  let pc := (s.slot sl).pc.toNat
  let c := s.core sl.core
  if winEnd ≤ pc then .error cACCESS
  else
    match mfind c.icache (s.fetchKey sl) with
    | some w => .ok (w, s)
    | none =>
      match s.resolve (s.agent sl) pc 4 permX with
      | .error cause => .error cause
      | .ok l =>
        if s.isPoisoned l.keys then .error cUNCORR
        else
          let w : Word32 := BitVec.ofNat 32 (leNat (s.fetched sl.core l.keys))
          let t := s.used (s.agent sl) pc 4
          .ok (w, t.modCore sl.core fun c => { c with icache := mput c.icache (s.fetchKey sl) w })

end Sys2Proof.Machine
end

