-- ==== Sys2Proof/Machine/Ops.lean ====
section
/-!
DEFINITION. The named operations that the meanings share: pointers, interrupts and logs, fault records, taking a trap
(upcall, kernel trap or fault record, R85, R249) and returning from one, blocking, the checks of R17, waiting on tags
(R148), messages leaving a core (R125), and the ends of requests.
-/

namespace Sys2Proof.Machine

/-! ## Pointers (R41 to R43, R57) -/

def ptrFmt (p : Word) : Nat := (p.extractLsb' 59 5).toNat
def ptrBlk (p : Word) : Nat := (p.extractLsb' 56 3).toNat

/-- The log2 column of R41. -/
def blkOf (fmt : Nat) : Nat := if 17 ≤ fmt && fmt ≤ 19 then 5 else if fmt = 20 then 6 else 0

/-- FMT is assigned and BLK matches it (R43). -/
def ptrOk (p : Word) : Bool := ptrFmt p < 21 && ptrBlk p = blkOf (ptrFmt p)

/-- A block format (R41). -/
def isBlock (fmt : Nat) : Bool := 17 ≤ fmt && fmt ≤ 20

/-- Element size, or packed record size (R41). -/
def packedSize (fmt : Nat) : Nat :=
  if fmt = 0 || fmt = 1 || fmt = 5 || (12 ≤ fmt && fmt ≤ 15) then 1
  else if fmt = 2 || fmt = 6 || fmt = 8 || fmt = 9 || fmt = 16 then 2
  else if fmt = 3 || fmt = 7 || fmt = 10 then 4
  else if fmt = 4 || fmt = 11 then 8
  else if fmt = 17 then 33 else if fmt = 18 then 25 else 17

/-- The bytes of an element as every writer writes them: the unused high bits of an unblocked E3M2 or E2M1 byte are 0 (R41). -/
def stored (fmt : Nat) (bs : List Byte) : List Byte :=
  if fmt = 14 then bs.map (· &&& 0x3F) else if fmt = 15 then bs.map (· &&& 0x0F) else bs

/-- Size of an element or record where it lies: padded in a scratchpad (R41, R57). -/
def elemSize (fmt : Nat) (pad : Bool) : Nat := if isBlock fmt && pad then packedSize fmt + 3 else packedSize fmt

/-- The pointer with its address replaced (R72, R82). -/
def withAddr (p : Word) (a : Nat) : Word := (p.extractLsb' 56 8 ++ BitVec.ofNat 56 a : BitVec 64)

/-- The value a load gives for its bytes: codes 4 to 6 sign-extend (R73). -/
def extend (z : BitVec 3) (bs : List Byte) : Word :=
  let v := leNat bs
  if z = 4 then (BitVec.ofNat 8 v).signExtend 64
  else if z = 5 then (BitVec.ofNat 16 v).signExtend 64
  else if z = 6 then (BitVec.ofNat 32 v).signExtend 64
  else BitVec.ofNat 64 v

/-- The line address that UNCORR reports for an effective address (R297). -/
def lineAddr (ea : Nat) : Word := BitVec.ofNat 64 (ea % 2 ^ 56 / 64 * 64)

/-! ## Interrupts and the error log -/

/-- The live control core that takes interrupts routed to n (R249, R295). -/
def State.routeInt (s : State) (n : Nat) : Nat :=
  (((List.range 16).map fun i => (n + i) % 16).find? fun c => !s.repair.retired.contains (.controlCore c)).getD n

/-- Raises an interrupt on a control core (R249). -/
def State.interrupt (s : State) (core : Nat) (cause : BitVec 8) (val : Word) : State :=
  { s with sched := { s.sched with ints := s.sched.ints ++ [(s.routeInt core, cause, val)] } }

/-- Records in the error log, 0 when it is disabled (R299). -/
def Repair.logSize (r : Repair) : Nat := if r.elogbase.toNat % 16 = 0 then 0 else 2 ^ (r.elogbase.toNat % 16)

/-- The times of a resource's corrected events, oldest first. -/
def Repair.timesOf (r : Repair) (u : RUnit) : List Nat :=
  match r.times.find? fun p => p.1 = u with | some p => p.2 | none => []

def Repair.setTimes (r : Repair) (u : RUnit) (ts : List Nat) : Repair :=
  let rest := r.times.filter fun p => p.1 ≠ u
  { r with times := if ts = [] then rest else rest ++ [(u, ts)] }

/-- W in ns (R294). -/
def Repair.window (r : Repair) : Nat := r.errwin.toNat * 1000

/-- Corrected events of a resource within W (R299). -/
def State.eventsIn (s : State) (u : RUnit) : Nat := ((s.repair.timesOf u).filter fun t => s.time - t < s.repair.window).length

/-- Writes an error-log record given as its doublewords, or counts it in LOGDROP (R299). -/
def State.logRecord (s : State) (event unit cause : Nat) (ctx : Option Nat) (location extent repl count : Nat) : State :=
  let r := s.repair
  let head := r.eloghead.toNat
  let n := r.logSize
  if head - r.elogtail.toNat < n && r.elogtail.toNat ≤ head then
    let at_ := r.elogbase.toNat / 4096 % 2 ^ 28 * 4096 + 64 * (head % n)
    let d0 := event + unit * 256 + cause * 65536 + (match ctx with | some c => c * 2 ^ 32 + 2 ^ 38 | none => 0)
    let ws := [d0, location, extent, s.time, repl, count, 0, 0]
    let s := s.put (keysFrom at_ 64) (ws.flatMap (toBytes 8))
    { s with repair := { s.repair with eloghead := r.eloghead + 1 }, host := { s.host with msi := s.host.msi ++ [0] } }.interrupt 0 4 r.eloghead
  else { s with repair := { r with logdrop := if r.logdrop = 0xFFFF then r.logdrop else r.logdrop + 1 } }

/-! ## Waiting on tags (R148) -/

/-- A store of some kind: what a send, a fork or a post makes visible (R127, R139, R241). -/
def ReqKind.isStore : ReqKind → Bool
  | .st .. | .vst .. | .store .. | .amo .. | .ship .. => true
  | .image op .. => op = 3
  | _ => false

/-- Every earlier store of the slot is performed. -/
def Slot.storesDone (x : Slot) : Bool := !x.reqs.any fun r => r.kind.isStore

/-- Every earlier load of the slot has its value. -/
def Slot.loadsDone (x : Slot) : Bool := !x.reqs.any Req.isLoad

/-- Numbers of the stores that a message of the slot follows: those of the slot that are not performed and those that the slices of its
die hold, which the slot may have read (R127, R154, R155). -/
def State.storesBefore (s : State) (sl : SlotId) : List Nat :=
  ((s.slot sl).reqs.filter fun r => r.kind.isStore).map (·.num) ++ (s.slices.filter fun e => dieOf e.sl.core = dieOf sl.core).map (·.num)

/-- Every store of the slot is performed at its point of coherence, and the slices of its die hold none (R156). -/
def State.released (s : State) (sl : SlotId) : Bool := (s.slot sl).storesDone && s.sliceFree sl.core

/-- A store of the slot may not be performed yet: a release ordered stores before it that the die's slices still hold (R156). -/
def State.releasing (s : State) (sl : SlotId) : Bool := s.slices.any fun e => (s.slot sl).rel.contains e.num

/-- The line of the first poisoned word among the bytes of an access at ea (R297). -/
def State.badLine (s : State) (ea : Nat) (keys : List Nat) : Word := lineAddr (ea + keys.findIdx fun k => s.isPoisoned [k])

/-- A blocking request of a slot is done: the slot goes on after the instruction, and is held there if it is to halt (R261). -/
def Slot.complete (x : Slot) (req : Nat) : Slot := (x.dropReq req).next

/-- Extends the value of a blocking load into its register (R74, R160). -/
def Slot.completeLoad (x : Slot) (req : Nat) (rd : Reg) (v : Word) : Slot := (x.complete req).writeG rd v

/-- The keys of a waiter. -/
def Waiter.keys (w : Waiter) : List Nat := keysFrom w.key w.n

/-- The operation waits for empty (R148). -/
def Waiter.wantsEmpty (w : Waiter) : Bool :=
  match w.kind with
  | .ste => true
  | .peer f _ _ _ => match f.body with | .access (.syncStore ..) => true | _ => false
  | _ => false

/-- The condition of a waiting operation holds (R148). -/
def Waiter.holds (s : State) (w : Waiter) : Bool := (wordsOf w.keys).all fun k => s.tagFull k != w.wantsEmpty

/-- Puts a frame of this package into the send queue of a device (R272); it gets its sequence number when it leaves. -/
def State.sendFrame (s : State) (dev : Nat) (sl : SlotId) (req elem : Nat) (body : FrameBody) : State :=
  { s with fab := { s.fab with queue := s.fab.queue ++ [⟨s.fab.devno.toNat, dev, sl, req, elem, 0, 0, 0, body⟩] } }

/-- Puts the answer to a peer's frame into the send queue of its device (R272, R290). -/
def State.answer (s : State) (f : Frame) (code : Nat) (data : List Byte) (entry : Option Nat) : State :=
  s.sendFrame f.src f.slot f.req f.elem (.reply code data entry)

/-- Performs a peer's synchronising access whose condition holds, and answers it (R160, R275). -/
def State.servePeer (s : State) (f : Frame) (entry : Nat) (keys : List Nat) : State :=
  match f.body with
  | .access (.syncLoad _ _ empties) =>
    if s.isPoisoned keys then s.answer f 12 [] (some entry)
    else
      let bs := s.bytes keys
      (if empties then s.setTags (wordsOf keys) false else s).answer f 0 bs (some entry)
  | .access (.syncStore _ bs _) =>
    if !s.canMerge keys then s.answer f 12 [] (some entry)
    else ((s.put keys bs).setTags (wordsOf keys) true).answer f 0 [] (some entry)
  | _ => s

/-- The value of the lanes of a VLDF in place of those of the register (R111). -/
def laneValues (got : List (Nat × Word32)) (old : Vector Word32 16) : Vector Word32 16 :=
  Vector.ofFn fun i => match got.find? (fun p => p.1 = i.val) with | some p => p.2 | none => old[i]

/-- Wakes the slots of a core that wait in WFE for a message (R90). -/
def Core.wakeAll (c : Core) : Core := { c with slots := c.slots.map Slot.wake }

/-- Replaces what a request of a slot still does. -/
def Slot.setKind (x : Slot) (num : Nat) (k : ReqKind) : Slot :=
  { x with reqs := x.reqs.map fun q => if q.num = num then { q with kind := k } else q }

/-- The cause and TVAL of the lowest-numbered lane that failed (R108). -/
def lowestLane : List (Nat × BitVec 8 × Word) → Option (Nat × BitVec 8 × Word)
  | [] => none
  | f :: rest => match lowestLane rest with | some g => some (if g.1 < f.1 then g else f) | none => some f

/-- A vector load whose last lane has ended: its register holds `v`, and is poisoned if a lane failed (R108). -/
def State.endVector (s : State) (sl : SlotId) (req vd : Nat) (v : Vector Word32 16) (bad : List (Nat × BitVec 8 × Word)) : State :=
  let s := s.modCore sl.core fun c =>
    match lowestLane bad with
    | none => c.writeV vd v
    | some (_, cause, tval) => (c.writeV vd v).setTagV vd (.poisoned cause tval)
  s.modSlot sl fun x => (x.dropReq req).wake

/-- A lane of a VLDF has ended, with a value or a failure; with the last lane the register is full or poisoned (R108, R111). -/
def State.vldfEnds (s : State) (sl : SlotId) (req l : Nat) (v : Option Word32) (fail : Option (BitVec 8 × Word)) : State :=
  match (s.slot sl).req req with
  | some r =>
    match r.kind with
    | .vldf vd p mask lanes got bad =>
      let left := lanes.filter (fun q => q.1 ≠ l)
      let got := match v with | some v => (l, v) :: got | none => got
      let bad := match fail with | some f => (l, f) :: bad | none => bad
      if left = [] then s.endVector sl req vd (laneValues got ((s.core sl.core).readV vd)) bad
      else s.modSlot sl fun x => x.setKind req (.vldf vd p mask left got bad)
    | _ => s
  | none => s

/-- One lane of a VLDF has its value: an acquire, which invalidates the core's data cache (R111, R157). -/
def State.vldfLane (s : State) (sl : SlotId) (req l : Nat) (v : Word32) : State := (s.vldfEnds sl req l (some v) none).dropLines sl.core

/-- Elements of a vector load have ended: their lanes are written, or their failures are kept until the last has ended (R108). -/
def State.vldEnds (s : State) (sl : SlotId) (req : Nat) (ends : List Nat) (lanes : List (Nat × Word32))
    (fails : List (Nat × BitVec 8 × Word)) : State :=
  match (s.slot sl).req req with
  | some r =>
    match r.kind with
    | .vld vd w fmt es bad =>
      let left := es.filter fun q => !ends.contains q.1
      let new := laneValues lanes ((s.core sl.core).readV vd)
      if left = [] then s.endVector sl req vd new (fails ++ bad)
      else
        let s := s.modCore sl.core fun c => (c.writeV vd new).setTagV vd .empty
        s.modSlot sl fun x => x.setKind req (.vld vd w fmt left (fails ++ bad))
    | _ => s
  | none => s

/-- An element of a vector load failed (R108). -/
def State.laneFails (s : State) (sl : SlotId) (req l : Nat) (cause : BitVec 8) (tval : Word) : State :=
  match (s.slot sl).req req with
  | none => s
  | some r =>
    match r.kind with
    | .vldf .. =>
      let ws := s.waiters.filter fun w => !(w.sl = sl && w.req = req && w.kind = .lane l)
      { s with waiters := ws }.vldfEnds sl req l none (some (cause, tval))
    | .vld .. => s.vldEnds sl req [l] [] [(l, cause, tval)]
    | _ => s

/-- Elements of a vector store need nothing more: the request ends once none is left and the die's slices hold none of it (R109, R154). -/
def State.vstEnds (s : State) (sl : SlotId) (req : Nat) (ends : List Nat) : State :=
  match (s.slot sl).req req with
  | some r =>
    match r.kind with
    | .vst ws =>
      let left := ws.filter fun w => !ends.contains w.1
      if left = [] && s.slices.all (fun e => !(e.job.isNone && e.sl = sl && e.req = req)) then s.modSlot sl fun x => x.dropReq req
      else s.modSlot sl fun x => x.setKind req (.vst left)
    | _ => s
  | none => s

/-- A blocking access of a slot met uncorrectable data: it traps UNCORR once its producers have settled (R74, R160). -/
def State.failAccess (s : State) (sl : SlotId) (req : Nat) (ea : Nat) : State :=
  s.modSlot sl fun x => { x.dropReq req with trap := some ⟨cUNCORR, lineAddr ea, x.pc, 0⟩, wait := .ready }

/-- The octet of a core. -/
def State.octJobs (s : State) (core : Nat) : List Job := mget [] s.jobs (octetOf core)

/-- The answer to what a job asked for, or to a block that it sent, under a request number of its slot (R148, R274, R286). -/
def Job.answered (j : Job) (sl : SlotId) (num code : Nat) (data : List Byte) : Job :=
  if j.owner ≠ sl then j
  else
    { j with ask := j.ask.map fun a => if a.num = num then { a with answer := some (code, data) } else a,
             sends := j.sends.map fun b => if b.num = num && b.st = .out then { b with st := .answered code } else b }

def State.answerJob (s : State) (sl : SlotId) (num code : Nat) (data : List Byte) : State :=
  let js := (s.octJobs sl.core).map fun j => j.answered sl num code data
  { s with jobs := mput s.jobs (octetOf sl.core) js }

/-- Performs a waiting operation whose condition holds (R148, R160): acquires invalidate the core's data cache (R157). -/
def State.serve (s : State) (w : Waiter) : State :=
  let bs := s.bytes w.keys
  let bad := s.isPoisoned w.keys
  match w.kind, (s.slot w.sl).req w.req with
  | .peer f entry _ _, _ => s.servePeer f entry w.keys
  | .job .., _ => s.answerJob w.sl w.req (if bad then 12 else 0) (if bad then [] else bs)
  | _, none => s
  | _, some r =>
    match r.kind, w.kind with
    | .vldf _ _ _ lanes _ _, .lane l =>
      if bad then
        let ea := match lanes.find? (fun q => q.1 = l) with | some q => q.2.toNat | none => 0
        s.laneFails w.sl w.req l cUNCORR (lineAddr ea)
      else s.vldfLane w.sl w.req l (BitVec.ofNat 32 (leNat bs))
    | .load rd z ea empties, _ =>
      if bad then s.failAccess w.sl w.req ea.toNat
      else
        let s := if empties then s.setTags (wordsOf w.keys) false else s
        (s.modSlot w.sl fun x => (x.completeLoad w.req rd (extend z bs)).acquire).dropLines w.sl.core
    | .store _ ea data, _ =>
      if !s.canMerge w.keys then s.failAccess w.sl w.req ea.toNat
      else
        let s := (((s.keptAll w.keys true).put w.keys (toBytes w.n data.toNat)).setTags (wordsOf w.keys) true).dropLine w.sl.core ea.toNat
        s.modSlot w.sl fun x => x.complete w.req
    | _, _ => s

/-- Serves the oldest waiting operation whose condition holds, as often as one is left (R148). -/
def serveAll : Nat → State → State
  | 0, s => s
  | n + 1, s =>
    match s.waiters.find? (Waiter.holds s) with
    | some w => serveAll n ({ s with waiters := s.waiters.erase w }.serve w)
    | none => s

/-- The point of coherence serves the waiting operations after a tag change (R148). -/
def State.served (s : State) : State := serveAll s.waiters.length s

/-- Sets words full or empty and serves the operations that wait on tags (R147, R148). -/
def State.retag (s : State) (ws : List Nat) (full : Bool) : State :=
  if ws = [] then s else (s.setTags ws full).served

/-- An engine, copy, pour or device write: every word written whole becomes full (R147). -/
def State.putFull (s : State) (keys : List Nat) (bs : List Byte) : State := (s.put keys bs).retag (wholeWords keys) true

/-! ## Fault records (R258, R259) -/

def State.kernelAgent (_ : State) (ctx : Nat) : Agent := ⟨ctx, none, false⟩

/-- Where n bytes of a queue lie, if the page has R, W and TAGGED (R256, R258). -/
def State.queueLoc (s : State) (ctx ea n : Nat) : Option (List Nat) :=
  match s.resolve (s.kernelAgent ctx) ea n permRW with
  | .ok l => if l.tagged && !touchesWin ea n then some l.keys else none
  | .error _ => none

/-- STATE of a context as the table holds it (R245, R250). -/
def ctxCode : CtxSt → Nat
  | .free => 0
  | .running => 1
  | .saving => 2
  | .saved => 3
  | .stopped => 4

/-- The scheduler changes STATE, and writes it to the context table (R245). -/
def State.setCtxSt (s : State) (n : Nat) (st : CtxSt) : State :=
  (s.write (s.sched.ctxtab.toNat + 256 * n) 8 (ctxCode st)).modCtx n fun c => { c with st := st }

/-- A record deschedules its context (R259). -/
def State.deschedule (s : State) (ctx : Nat) : State :=
  if (s.ctx ctx).st = .running then (s.setCtxSt ctx .saving).modCtx ctx fun c => { c with after := .stopped, haltAt := s.time } else s

/-- LAUNCHID of the launch of a slot's activation, 0 where there is none (R258). -/
def State.launchidOf (s : State) (sl : SlotId) : Word :=
  match (s.slot sl).act with
  | some a =>
    match a.launch with
    | some (n, _) => match s.sched.launches.find? (fun l => l.num = n) with | some l => l.desc.launchid | none => 0
    | none => 0
  | none => 0

/-- Writes a record into the fault queue of a context, counts it as lost, or diverts it to the error log; raises
interrupt 1; deschedules the context (R258, R259). DESIGN CHOICE: a queue whose header holds uncorrectable data cannot be written, as one
whose page is not mapped; R258 and R297 do not say it (log 27). -/
def State.queueFault (s : State) (ctx : Nat) (r : FaultRec) : State :=
  let c := s.ctx ctx
  let base := c.fqbase.toNat % 2 ^ 56
  let s1 :=
    match s.queueLoc ctx base 64 with
    | none => none
    | some h =>
      if s.isPoisoned (h.take 16) then none else
      let widx := leNat (s.bytes (h.take 8))
      match s.queueLoc ctx (base + 64 + 64 * (widx % 2 ^ c.fqlog)) 64 with
      | none => none
      | some k =>
        if (wordsOf (k.take 8)).any s.tagFull then
          let dropped := leNat (s.bytes ((h.drop 8).take 8))
          some (s.put ((h.drop 8).take 8) (toBytes 8 (min (dropped + 1) (2 ^ 64 - 1))))
        else
          let d0 := r.cause.toNat + r.source.toNat * 256
          let ws := [d0, r.tval.toNat, r.slotid.toNat, r.launchid.toNat, s.time, r.extra.toNat, r.va.toNat, 0]
          let s := (s.put k (ws.flatMap (toBytes 8))).retag (wordsOf (k.take 8)) true
          some (s.put (h.take 8) (toBytes 8 (widx + 1)))
  let s2 :=
    match s1 with
    | some s => s
    | none => s.logRecord 11 0 r.cause.toNat (some ctx) r.tval.toNat 0 r.slotid.toNat r.source.toNat
  (s2.interrupt (ctx % 16) 1 (BitVec.ofNat 64 ctx)).deschedule ctx

/-- The record of a slot's fault (R258). -/
def State.slotFault (s : State) (sl : SlotId) (source : BitVec 4) (cause : BitVec 8) (tval va : Word) : State :=
  s.queueFault (s.ctxOf sl)
    { cause := cause, source := source, tval := tval, slotid := s.slotid sl, launchid := s.launchidOf sl, extra := 0, va := va }

/-! ## Loads and stores of a slot that overlap (R78) -/

def overlaps (a n b m : Nat) : Bool := a < b + m && b < a + n

/-- A later access of n bytes at ea waits: an earlier request of the slot that it overlaps is not performed yet (R78). -/
def Slot.waitsFor (x : Slot) (ea n : Nat) : Bool :=
  x.reqs.any fun r => r.kind.spans.any fun p => overlaps ea n p.1 p.2

/-- It overlaps an access of the slot that has parked (R78). -/
def Slot.parkedOver (x : Slot) (ea n : Nat) : Bool :=
  x.parked.any fun p => overlaps ea n p.ea.toNat (szBytes p.sz)

/-! ## Taking a trap and returning from one -/

/-- A tag as the fibre record codes it (R86). -/
def tagCode : Tag → Nat
  | .full => 0
  | .empty => 1
  | .poisoned _ _ => 2

/-- A replay entry as three doublewords (R86, R262). -/
def Replay.words (r : Replay) : List Nat :=
  [r.ptr.toNat, r.data.toNat,
    r.kind.toNat + (if r.kind = 3 then r.rd.toNat * 2 ^ 16 + r.mask.toNat * 2 ^ 32 else r.sz.toNat * 2 ^ 12 + r.rd.toNat * 2 ^ 16)]

/-- The g registers of a slot by number, with value and tag. -/
def Slot.regs (x : Slot) : List (Word × Tag) :=
  (List.range 32).map fun n => (x.readG (BitVec.ofNat 5 n), x.tagG (BitVec.ofNat 5 n))

/-- The fibre record of R86, 1,920 bytes, with given pc, cause, value and replay entries. -/
def Slot.record (x : Slot) (tpc : Word) (tcause : BitVec 8) (tval : Word) (replay : List Replay) : List Byte :=
  let rs := x.regs
  let tags := (rs.zip (List.range 32)).foldl (fun a p => a + tagCode p.1.2 * 4 ^ p.2) 0
  let head := [tpc.toNat, tcause.toNat, tval.toNat, x.fstat.toNat, (x.vi.signExtend 64).toNat, tags, 0, 0]
  let vals := rs.map fun p => match p.2 with | .poisoned _ t => t.toNat | _ => p.1.toNat
  let causes : List Byte := rs.map fun p => match p.2 with | .poisoned c _ => c | _ => 0
  let n := min replay.length 64
  head.flatMap (toBytes 8) ++ vals.flatMap (toBytes 8) ++ causes ++ ([n, 0, 0, 0].flatMap (toBytes 8))
    ++ ((replay.take 64).flatMap (fun r => r.words.flatMap (toBytes 8))) ++ List.replicate ((64 - n) * 24) 0

/-- Where the fibre record lies: UPSAVE as a pointer, in local memory, writable or readable (R84, R85). -/
def State.recordLoc (s : State) (sl : SlotId) (p : Perm) : Except (BitVec 8) Loc :=
  let u := (s.slot sl).upsave
  if !ptrOk u then .error cFMTFAULT
  else if isPeer (addr56 u) then .error cACCESS
  else s.resolve (s.agent sl) (addr56 u) 1920 p

/-- A remote region ends without rollback: what is still outstanding counts as outside it (R284). -/
def Slot.closeRegion (x : Slot) : Slot :=
  { x with region := none, reqs := x.reqs.map fun r => { r with region := false } }

/-- A trap taken in a compute slot (R85): the fibre record and the handler, or the record to
the kernel while UE = 0 or when the fibre record cannot be written: its context is descheduled, and the slot halts. -/
def State.deliver (s : State) (sl : SlotId) (t : TrapRec) : State :=
  let x := s.slot sl
  match x.upvec.getLsbD 0, s.recordLoc sl permW with
  | true, .ok l =>
    let s := (s.put l.keys (x.record t.pc t.cause t.tval x.parked)).storeLine sl.core (addr56 x.upsave)
      (x.record t.pc t.cause t.tval x.parked)
    s.modSlot sl fun x =>
      { x.closeRegion with
          tpc := t.pc, tcause := t.cause, tval := t.tval, parked := [], upvec := x.upvec &&& ~~~(1#64),
          pc := x.upvec &&& ~~~(3#64), trap := none, wait := .ready }
  | _, _ => (s.modSlot sl fun x => { x with trap := none, wait := .halted }).slotFault sl 1 t.cause t.tval t.va

/-- A kernel trap on a control core; with IE = 0 it stops the core, all its slots (R249). -/
def State.kernelTrap (s : State) (sl : SlotId) (t : TrapRec) : State :=
  let x := s.slot sl
  if x.kvec.getLsbD 0 then
    s.modSlot sl fun x =>
      { x with ktpc := t.pc, kcause := t.cause.setWidth 64, ktval := t.tval, kvec := x.kvec &&& ~~~(1#64),
               pc := x.kvec &&& ~~~(3#64), trap := none, wait := .ready }
  else
    let stop (x : Slot) : Slot := { x with trap := none, wait := .stopped }
    ((s.modCore sl.core fun c => { c with slots := c.slots.map stop }).logRecord 10 14 t.cause.toNat none (coordOf sl.core) 0 0
      (s.eventsIn (.controlCore (sl.core - computeCores))))

/-- A trap of a slot may be delivered: what it waits for has settled, and no store to the record's area is on its way (R78, R85). -/
def State.trapReady (s : State) (sl : SlotId) : Bool :=
  let x := s.slot sl
  x.quiet && !x.waitsFor (addr56 x.upsave) 1920 &&
    match s.recordLoc sl permW with
    | .ok l => !s.sliceOver sl.core l.keys
    | .error _ => true

/-- A trap of a slot, at its pc: on a control core, or while UE = 0, at once; else once the slot's producers have settled (R85,
R249). `va` is the address of a translation fault (R258). -/
def State.takeTrapAt (s : State) (sl : SlotId) (cause : BitVec 8) (tval va : Word) : State :=
  let x := s.slot sl
  let t : TrapRec := ⟨cause, tval, x.pc, va⟩
  if isControl sl.core then s.kernelTrap sl t
  else if s.trapReady sl || !x.upvec.getLsbD 0 then s.deliver sl t
  else s.modSlot sl fun x => { x with trap := some t, wait := .ready }

/-- A trap that is no translation fault. -/
def State.takeTrap (s : State) (sl : SlotId) (cause : BitVec 8) (tval : Word) : State := s.takeTrapAt sl cause tval 0

/-- The slot is blocked at issue, before the instruction (R17 steps 4 and 5). -/
def State.block (s : State) (sl : SlotId) : State := s.modSlot sl fun x => { x with wait := .retry }

/-- A trap of the current slot. -/
def State.trap (s : State) (cause : BitVec 8) (tval : Word) : Out := .next (s.takeTrap s.cur cause tval)

/-- TVAL of an access that its translation faults: the virtual address, or its line where the walk met uncorrectable data (R40, R297). -/
def faultTval (cause : BitVec 8) (ea : Nat) : Word := if cause = cUNCORR then lineAddr ea else BitVec.ofNat 64 ea

/-- A translation fault of the current slot at a virtual address. -/
def State.trapAt (s : State) (cause : BitVec 8) (ea : Nat) : Out := .next (s.takeTrapAt s.cur cause (faultTval cause ea) (BitVec.ofNat 64 ea))

/-- The current slot blocks. -/
def State.stall (s : State) : Out := .next (s.block s.cur)

/-- The slot that issues. -/
def State.me (s : State) : Slot := s.slot s.cur

/-- Changes the slot that issues. -/
def State.modMe (s : State) (f : Slot → Slot) : State := s.modSlot s.cur f

/-- The core that issues. -/
def State.myCore (s : State) : Core := s.core s.cur.core

/-- The instruction ends with the slot changed by f and its pc at the next word. -/
def State.retire (s : State) (f : Slot → Slot) : Out := .next (s.modMe fun x => (f x).next)

/-- The instruction ends writing v to register d. -/
def State.retireG (s : State) (d : Reg) (v : Word) : Out := s.retire fun x => x.writeG d v

/-- The instruction ends with no register written. -/
def State.done (s : State) : Out := s.retire id

/-- A word that is not a legal instruction, or a write it may not make: TVAL holds the word (R34). -/
def State.illegal (s : State) (w : BitVec 32) : Out := s.trap cILLOP (w.setWidth 64)

/-! ## The checks of R17 -/

/-- A source of an instruction: a g register, the code of its operand for EMPTYREG, whether it is read in trap mode; or a core
vector register. -/
inductive Source where
  | g (r : Reg) (operand : Nat) (trapMode : Bool)
  | v (n : Nat)
  deriving DecidableEq, Repr

/-- A destination. -/
inductive Dest where
  | g (r : Reg)
  | v (n : Nat)
  deriving DecidableEq, Repr

def Source.tag (c : Core) (x : Slot) : Source → Tag
  | .g r _ _ => x.tagG r
  | .v n => c.tagV n

def Dest.tag (c : Core) (x : Slot) : Dest → Tag
  | .g r => x.tagG r
  | .v n => c.tagV n

/-- What the checks of R17 steps 3 and 4 decide. -/
inductive Verdict where
  | go
  | trap (cause : BitVec 8) (tval : Word)
  | block
  deriving DecidableEq, Repr

/-- The first poisoned source (R17 step 3). -/
def firstPoison (c : Core) (x : Slot) : List Source → Option (BitVec 8 × Word)
  | [] => none
  | src :: rest => match src.tag c x with | .poisoned k t => some (k, t) | _ => firstPoison c x rest

/-- The first empty source read in trap mode, as TVAL of EMPTYREG (R17 step 3, R40). -/
def firstEmpty (x : Slot) : List Source → Option Word
  | [] => none
  | .g r o true :: rest => if x.tagG r = .empty then some (BitVec.ofNat 64 (o * 256 + r.toNat)) else firstEmpty x rest
  | _ :: rest => firstEmpty x rest

/-- R17 steps 3 and 4. -/
def verdict (c : Core) (x : Slot) (srcs : List Source) (dsts : List Dest) : Verdict :=
  match firstPoison c x srcs with
  | some (k, t) => .trap k t
  | none =>
    match firstEmpty x srcs with
    | some t => .trap cEMPTYREG t
    | none =>
      if srcs.any (fun a => a.tag c x == .empty) || dsts.any (fun a => a.tag c x == .empty) then .block else .go

/-- Runs k once the operands pass R17 steps 3 and 4. -/
def withOperands (s : State) (srcs : List Source) (dsts : List Dest) (k : Out) : Out :=
  match verdict s.myCore s.me srcs dsts with
  | .go => k
  | .trap c t => s.trap c t
  | .block => s.stall

/-- Resolves vector operands in order; the first out of bounds traps VREGBOUND (R17 step 2, R22). DESIGN CHOICE: neither rule orders the
operands of one instruction; here vd is checked before va, and va before vb (log 76). -/
def withV (s : State) (r : VReg) (k : Nat → Out) : Out :=
  match s.me.vreg r with
  | .ok n => k n
  | .error i => s.trap cVREGBOUND (BitVec.ofInt 64 i)

/-! ## Messages leave a core (R125) -/

/-- Room in the outbound queue of the issuing core. -/
def State.outRoom (s : State) : Bool := s.myCore.outq.length < 16

/-- Adds a message to the outbound queue of a core. -/
def State.enqueue (s : State) (core : Nat) (m : Msg) : State := s.modCore core fun c => { c with outq := c.outq ++ [m] }

/-- The core that bits [18:2] of a destination word name (R123); cluster 127 is a control core's own coordinate (log 12). DEDUCED: in
a word that no check has seen, a cluster from 100 to 126 names no core (R8), so that no context holds it (R124; log 42). -/
def destCore (w : Word) : Nat :=
  if w.extractLsb' 9 7 = 127 then computeCores + (w.extractLsb' 2 7).toNat
  else if 99 < (w.extractLsb' 9 7).toNat then allCores
  else coreAt (w.extractLsb' 16 3).toNat (w.extractLsb' 9 7).toNat (w.extractLsb' 2 7).toNat

/-- The number of the open remote region's next request, for what is sent inside it. -/
def State.newReq (s : State) : Nat × State := (s.nextReq, { s with nextReq := s.nextReq + 1 })

/-- A counter message to a local core, not sent by a core's slot (R217, R286): it waits in the network. -/
def State.post (s : State) (m : Msg) : State := { s with net := s.net ++ [m] }

/-- Every request of the slot numbered before `num` that overlaps the bytes has been performed (R78). -/
def Slot.mayPerform (x : Slot) (num ea n : Nat) : Bool :=
  x.reqs.all fun r => num ≤ r.num || !(r.kind.spans.any fun p => overlaps ea n p.1 p.2)

end Sys2Proof.Machine
end

