-- ==== Sys2Proof/Machine/Flags.lean ====
section
/-!
DEFINITION. Number formats (R41 to R67): decoding to exact values, rounding once under a mode, the flags a result sets,
block records, codebook weights, and the floating-point functions of the scalar and vector families.
-/

namespace Sys2Proof.Machine

/-- Flags as FSTAT[9:4] holds them: NV DZ OF UF NX SUPN (R38). -/
abbrev Flags := BitVec 6

def fNV : Flags := 0x20
def fDZ : Flags := 0x10
def fOF : Flags := 0x08
def fUF : Flags := 0x04
def fNX : Flags := 0x02
def fSUPN : Flags := 0x01

/-- FSTAT with flags added (R53). -/
def orFlags (fstat : BitVec 10) (f : Flags) : BitVec 10 := fstat ||| (f ++ (0 : BitVec 4))

def Slot.flag (x : Slot) (f : Flags) : Slot := { x with fstat := orFlags x.fstat f }

/-- An exact value: m * 2^e with a sign, an infinity, or a NaN, signalling or not (R45 to R47). -/
inductive FVal where
  | nan (signalling : Bool)
  | inf (neg : Bool)
  | fin (neg : Bool) (m : Nat) (e : Int)
  deriving DecidableEq, Repr

/-- An element format with an exponent: width of exponent and fraction, bias (R45, R47). -/
structure FFmt where
  eb : Nat
  fb : Nat
  bias : Int
  deriving DecidableEq, Repr

/-- The floating-point formats by code (R41, R45, R47). -/
def ffmt (fmt : Nat) : FFmt :=
  if fmt = 8 then ⟨8, 7, 127⟩ else if fmt = 9 then ⟨5, 10, 15⟩ else if fmt = 12 then ⟨4, 3, 7⟩
  else if fmt = 13 then ⟨5, 2, 15⟩ else if fmt = 14 then ⟨3, 2, 3⟩ else if fmt = 15 then ⟨2, 1, 1⟩ else ⟨8, 23, 127⟩

/-- FP32, FP16, BF16 and, under XM = 1, E4M3, E5M2 and E3M2 keep the top exponent code for infinity and NaN (R45, R47). -/
def topSpecial (fmt : Nat) (xm : Bool) : Bool := fmt = 8 || fmt = 9 || fmt = 10 || (12 ≤ fmt && fmt ≤ 14 && xm)

/-- Destinations that saturate on overflow: narrow formats under XM = 0, and E2M1 (R51). -/
def saturates (fmt : Nat) (xm : Bool) : Bool := fmt = 15 || (12 ≤ fmt && fmt ≤ 14 && !xm)

/-- Format codes that FCVT and copies convert: 1 to 10 and 12 to 15 (R81, R165). -/
def convertible (fmt : Nat) : Bool := (1 ≤ fmt && fmt ≤ 10) || (12 ≤ fmt && fmt ≤ 15)

/-- Integer formats (R44). -/
def isInt (fmt : Nat) : Bool := 1 ≤ fmt && fmt ≤ 7

def intSigned (fmt : Nat) : Bool := 1 ≤ fmt && fmt ≤ 4

def intBits (fmt : Nat) : Nat :=
  if fmt = 1 || fmt = 5 then 8 else if fmt = 2 || fmt = 6 then 16 else if fmt = 4 then 64 else 32

/-- Decodes a floating-point encoding (R45, R47); high bits of E3M2 and E2M1 bytes are ignored (R41). DESIGN CHOICE: R46 does not say which NaN
encodings of E4M3, E5M2 and E3M2 are signalling; here none is (log 71). -/
def fdecode (fmt : Nat) (xm : Bool) (bits : Nat) : FVal :=
  let F := ffmt fmt
  let neg := bits / 2 ^ (F.eb + F.fb) % 2 = 1
  let e := bits / 2 ^ F.fb % 2 ^ F.eb
  let f := bits % 2 ^ F.fb
  let top := e = 2 ^ F.eb - 1
  if topSpecial fmt xm && top then
    if f = 0 then .inf neg else .nan ((fmt = 8 || fmt = 9 || fmt = 10) && f < 2 ^ (F.fb - 1))
  else if fmt ≠ 15 && top && f = 2 ^ F.fb - 1 then .nan false
  else if e = 0 then .fin neg f (1 - F.bias - F.fb)
  else .fin neg (2 ^ F.fb + f) ((e : Int) - F.bias - F.fb)

/-- The value of an integer encoding (R44). -/
def idecode (fmt : Nat) (bits : Nat) : Int :=
  let n := intBits fmt
  let v := bits % 2 ^ n
  if intSigned fmt && 2 ^ (n - 1) ≤ v then (v : Int) - 2 ^ n else v

def ofInt (i : Int) : FVal := .fin (i < 0) i.natAbs 0

/-- The value of an element of a convertible format. -/
def decodeVal (fmt : Nat) (xm : Bool) (bits : Nat) : FVal :=
  if isInt fmt then ofInt (idecode fmt bits) else fdecode fmt xm bits

/-- Bits of a number: the position of its highest one bit plus one. -/
def bitLen (m : Nat) : Nat := if m = 0 then 0 else Nat.log2 m + 1

/-- The canonical NaN of a format (R46). -/
def canonNaN (fmt : Nat) : Nat :=
  if fmt = 10 then 0x7FC00000 else if fmt = 9 then 0x7E00 else if fmt = 8 then 0x7FC0 else if fmt = 14 then 0x1F
  else if fmt = 15 then 0 else 0x7F

/-- The largest finite encoding without its sign (R48). -/
def maxFinite (fmt : Nat) (xm : Bool) : Nat :=
  let F := ffmt fmt
  if topSpecial fmt xm then (2 ^ F.eb - 1) * 2 ^ F.fb - 1
  else if fmt = 15 then 2 ^ (F.eb + F.fb) - 1
  else 2 ^ (F.eb + F.fb) - 2

def signBit (fmt : Nat) (neg : Bool) : Nat := if neg then 2 ^ ((ffmt fmt).eb + (ffmt fmt).fb) else 0

/-- Rounds m * 2^e to a multiple of 2^q under mode rm with word w: the multiple, and whether bits were lost (R49, R50). -/
def roundAt (rm w : Nat) (neg : Bool) (m : Nat) (e q : Int) : Nat × Bool :=
  if q ≤ e then (m * 2 ^ (e - q).toNat, false)
  else
    let sh := (q - e).toNat
    let ip := m / 2 ^ sh
    let rem := m % 2 ^ sh
    let half := 2 ^ (sh - 1)
    let up :=
      if rm = 0 then half < rem || (rem = half && ip % 2 = 1)
      else if rm = 2 then rem ≠ 0 && !neg
      else if rm = 3 then rem ≠ 0 && neg
      else if rm = 4 then 65536 ≤ rem * 65536 / 2 ^ sh + w
      else false
    (if up then ip + 1 else ip, rem ≠ 0)

/-- Whether an overflow gives infinity under a mode (R51). -/
def overflowsToInf (rm : Nat) (neg : Bool) : Bool := rm = 0 || rm = 4 || (rm = 2 && !neg) || (rm = 3 && neg)

/-- Rounds an exact value once into a floating-point format: the encoding and the flags (R49 to R51). `sat`: an overflow
saturates in every mode. A NaN given to a format below FP16 sets NV (R51). -/
def fround (fmt : Nat) (xm sat : Bool) (rm w : Nat) (v : FVal) : Nat × Flags :=
  let F := ffmt fmt
  match v with
  | .nan sig => (canonNaN fmt, if sig || 12 ≤ fmt then fNV else 0)
  | .inf neg =>
    if sat then (signBit fmt neg + maxFinite fmt xm, fOF)
    else (signBit fmt neg + (2 ^ F.eb - 1) * 2 ^ F.fb, 0)
  | .fin neg m e =>
    if m = 0 then (signBit fmt neg, 0)
    else
      let lead := e + (bitLen m : Int) - 1
      let qmin := 1 - F.bias - F.fb
      let q := max (lead - F.fb) qmin
      let (r, inexact) := roundAt rm w neg m e q
      let enc : Nat := if r < 2 ^ F.fb then r else ((q + F.bias + F.fb).toNat * 2 ^ F.fb) + (r - 2 ^ F.fb)
      if maxFinite fmt xm < enc then
        let fl := fOF ||| fNX
        if sat || !overflowsToInf rm neg then (signBit fmt neg + maxFinite fmt xm, fl)
        else (signBit fmt neg + (2 ^ F.eb - 1) * 2 ^ F.fb, fl)
      else
        let tiny :=
          if lead < 1 - F.bias then
            if rm = 4 then r < 2 ^ F.fb
            else
              let r' := (roundAt rm w neg m e (lead - F.fb)).1
              r' < 2 ^ (F.fb + 1) || lead + 1 < 1 - F.bias
          else false
        (signBit fmt neg + enc, (if inexact then fNX else 0) ||| (if tiny && inexact then fUF else 0))

/-- Rounds to an integer format with saturation (R52). -/
def iround (fmt : Nat) (rm w : Nat) (v : FVal) : Nat × Flags :=
  let n := intBits fmt
  let hi : Nat := if intSigned fmt then 2 ^ (n - 1) - 1 else 2 ^ n - 1
  let lo : Nat := if intSigned fmt then 2 ^ (n - 1) else 0
  match v with
  | .nan _ => (0, fNV)
  | .inf neg => (if neg then (2 ^ n - lo) % 2 ^ n else hi, fNV)
  | .fin neg m e =>
    let (r, inexact) := roundAt rm w neg m e 0
    let fl : Flags := if inexact then fNX else 0
    if neg then (if lo < r then ((2 ^ n - lo) % 2 ^ n, fNV) else ((2 ^ n - r) % 2 ^ n, fl))
    else if hi < r then (hi, fNV) else (r, fl)

/-- Encodes a value into a convertible format (R49 to R52). -/
def encodeVal (fmt : Nat) (xm : Bool) (rm w : Nat) (v : FVal) : Nat × Flags :=
  if isInt fmt then iround fmt rm w v else fround fmt xm (saturates fmt xm) rm w v

/-- A conversion between convertible formats rounds unless both are integer formats (R50). -/
def convRounds (src dst : Nat) : Bool := !(isInt src && isInt dst)

/-- The next state of the generator of R50. -/
def lfsrNext (s : BitVec 16) : BitVec 16 :=
  (s <<< 1) ||| (if (s.getLsbD 15 ^^ s.getLsbD 13 ^^ s.getLsbD 12 ^^ s.getLsbD 10) then 1 else 0)

/-- The word of the next rounding, and the state after it: only SR draws (R50). -/
def drawWord (rm : Nat) (s : BitVec 16) : Nat × BitVec 16 := if rm = 4 then (s.toNat, lfsrNext s) else (0, s)

/-- The states of the generator before each of n roundings, and after them. -/
def drawWords (rm : Nat) : Nat → BitVec 16 → List Nat × BitVec 16
  | 0, s => ([], s)
  | n + 1, s =>
    let (w, s1) := drawWord rm s
    let (ws, s2) := drawWords rm n s1
    (w :: ws, s2)

/-! ## Exact operations -/

def FVal.neg : FVal → FVal
  | .nan s => .nan s
  | .inf n => .inf (!n)
  | .fin n m e => .fin (!n) m e

def FVal.sig : FVal → Bool
  | .nan s => s
  | _ => false

def FVal.isNaN : FVal → Bool
  | .nan _ => true
  | _ => false

def FVal.isZero : FVal → Bool
  | .fin _ 0 _ => true
  | _ => false

def FVal.isNeg : FVal → Bool
  | .nan _ => false
  | .inf n => n
  | .fin n _ _ => n

/-- NV when an operand is a signalling NaN (R46). -/
def sigFlag (l : List FVal) : Flags := if l.any FVal.sig then fNV else 0

/-- m * 2^e as an integer multiple of 2^lo, for lo below e. -/
def scaled (neg : Bool) (m : Nat) (e lo : Int) : Int := (if neg then -1 else 1) * ((m * 2 ^ (e - lo).toNat : Nat) : Int)

/-- The exact sum of two finite values; an exact zero takes its sign from IEEE addition under rm (R63). -/
def addFin (rm : Nat) (n1 : Bool) (m1 : Nat) (e1 : Int) (n2 : Bool) (m2 : Nat) (e2 : Int) : FVal :=
  if m1 = 0 && m2 = 0 then .fin (if n1 = n2 then n1 else rm = 3) 0 0
  else if m1 = 0 then .fin n2 m2 e2
  else if m2 = 0 then .fin n1 m1 e1
  else
    let lo := min e1 e2
    let t := scaled n1 m1 e1 lo + scaled n2 m2 e2 lo
    if t = 0 then .fin (rm = 3) 0 0 else .fin (t < 0) t.natAbs lo

/-- a + b, exact, with NV for ∞ - ∞ and for signalling NaNs. -/
def faddV (rm : Nat) (a b : FVal) : FVal × Flags :=
  match a, b with
  | .nan s, .nan t => (.nan false, if s || t then fNV else 0)
  | .nan s, _ => (.nan false, if s then fNV else 0)
  | _, .nan t => (.nan false, if t then fNV else 0)
  | .inf m, .inf n => if m = n then (.inf m, 0) else (.nan false, fNV)
  | .inf m, _ => (.inf m, 0)
  | _, .inf n => (.inf n, 0)
  | .fin n1 m1 e1, .fin n2 m2 e2 => (addFin rm n1 m1 e1 n2 m2 e2, 0)

/-- a * b, exact, with NV for 0 * ∞ and for signalling NaNs. -/
def fmulV (a b : FVal) : FVal × Flags :=
  match a, b with
  | .nan s, .nan t => (.nan false, if s || t then fNV else 0)
  | .nan s, _ => (.nan false, if s then fNV else 0)
  | _, .nan t => (.nan false, if t then fNV else 0)
  | .inf m, .inf n => (.inf (m != n), 0)
  | .inf m, .fin n k _ => if k = 0 then (.nan false, fNV) else (.inf (m != n), 0)
  | .fin m k _, .inf n => if k = 0 then (.nan false, fNV) else (.inf (m != n), 0)
  | .fin n1 m1 e1, .fin n2 m2 e2 => (.fin (n1 != n2) (m1 * m2) (e1 + e2), 0)

/-- An inexact value m * 2^e + something below 2^e: one more bit, set, stands for what is lost. -/
def sticky (neg : Bool) (m : Nat) (e : Int) (lost : Bool) : FVal :=
  if lost then .fin neg (2 * m + 1) (e - 1) else .fin neg m e

/-- a / b to 100 bits and a sticky bit: DZ for finite non-zero over zero, NV for 0/0 and ∞/∞ (R80). -/
def fdivV (a b : FVal) : FVal × Flags :=
  match a, b with
  | .nan s, .nan t => (.nan false, if s || t then fNV else 0)
  | .nan s, _ => (.nan false, if s then fNV else 0)
  | _, .nan t => (.nan false, if t then fNV else 0)
  | .inf _, .inf _ => (.nan false, fNV)
  | .inf m, .fin n _ _ => (.inf (m != n), 0)
  | .fin m _ _, .inf n => (.fin (m != n) 0 0, 0)
  | .fin n1 m1 e1, .fin n2 m2 e2 =>
    if m2 = 0 then (if m1 = 0 then (.nan false, fNV) else (.inf (n1 != n2), fDZ))
    else
      let t := m1 * 2 ^ 128
      (sticky (n1 != n2) (t / m2) (e1 - e2 - 128) (t % m2 ≠ 0), 0)

/-- The integer square root, bit by bit from bit n - 1. -/
def isqrtFrom (x : Nat) : Nat → Nat → Nat
  | 0, r => r
  | n + 1, r => let t := r + 2 ^ n; isqrtFrom x n (if t * t ≤ x then t else r)

def isqrt (x : Nat) : Nat := isqrtFrom x (bitLen x / 2 + 1) 0

/-- The square root (R80). -/
def fsqrtV (a : FVal) : FVal × Flags :=
  match a with
  | .nan s => (.nan false, if s then fNV else 0)
  | .inf n => if n then (.nan false, fNV) else (.inf false, 0)
  | .fin n m e =>
    if m = 0 then (.fin n 0 0, 0)
    else if n then (.nan false, fNV)
    else
      let (m1, e1) := if e % 2 = 0 then (m, e) else (2 * m, e - 1)
      let t := m1 * 2 ^ 160
      let r := isqrt t
      (sticky false r (e1 / 2 - 80) (r * r ≠ t), 0)

/-- 1 / √a (R97). -/
def frsqV (a : FVal) : FVal × Flags :=
  match a with
  | .nan s => (.nan false, if s then fNV else 0)
  | .inf n => if n then (.nan false, fNV) else (.fin false 0 0, 0)
  | .fin n m e =>
    if m = 0 then (.inf n, fDZ)
    else if n then (.nan false, fNV)
    else
      let (m1, e1) := if e % 2 = 0 then (m, e) else (2 * m, e - 1)
      let r := isqrt (2 ^ 256 / m1)
      (sticky false r (-(e1 / 2) - 128) (r * r * m1 ≠ 2 ^ 256), 0)

/-- ln 2 in units of 2^-256, rounded down. -/
def ln2Fixed : Nat := 80260960185991308862233904206310070533990667611589946606122867505419956976171

/-- The exponential series in units of 2^-256: the sum so far and the last term y^k / k!. -/
def expSeries (y : Nat) : Nat → Nat → Nat → Nat → Nat
  | 0, _, _, sum => sum
  | n + 1, k, term, sum => let t := term * y / 2 ^ 256 / k; expSeries y n (k + 1) t (sum + t)

/-- 2^a (R98): the fraction of a through a 256-bit series, one sticky bit (log 17). -/
def fexp2V (a : FVal) : FVal × Flags :=
  match a with
  | .nan s => (.nan false, if s then fNV else 0)
  | .inf n => if n then (.fin false 0 0, 0) else (.inf false, 0)
  | .fin n m e =>
    let num : Int := scaled n m (max e 0) 0
    let whole : Int := if 0 ≤ e then num else (if n then -1 else 1) * (m : Int) / 2 ^ (-e).toNat
    let rest : Nat := if 0 ≤ e then 0 else ((if n then -1 else 1) * (m : Int) % 2 ^ (-e).toNat).toNat
    let k := max (-400) (min 400 whole)
    if rest = 0 then (.fin false 1 k, 0)
    else
      let f := rest * 2 ^ 256 / 2 ^ (-e).toNat
      let r := expSeries (f * ln2Fixed / 2 ^ 256) 64 1 (2 ^ 256) (2 ^ 256)
      (sticky false r (k - 256) true, 0)

/-- n more bits of log2 y, for y in [1, 2) in units of 2^-256, by repeated squaring. -/
def log2Bits : Nat → Nat → Nat → Nat
  | 0, _, acc => acc
  | n + 1, y, acc =>
    let z := y * y / 2 ^ 256
    if 2 ^ 257 ≤ z then log2Bits n (z / 2) (2 * acc + 1) else log2Bits n z (2 * acc)

/-- log2 a (R98): 120 fraction bits and one sticky bit, exact for powers of two (log 17). -/
def flog2V (a : FVal) : FVal × Flags :=
  match a with
  | .nan s => (.nan false, if s then fNV else 0)
  | .inf n => if n then (.nan false, fNV) else (.inf false, 0)
  | .fin n m e =>
    if m = 0 then (.inf true, fDZ)
    else if n then (.nan false, fNV)
    else
      let l := bitLen m - 1
      let k : Int := e + l
      if m = 2 ^ l then (.fin (k < 0) k.natAbs 0, 0)
      else
        let t : Int := 2 * (k * 2 ^ 120 + (log2Bits 120 (m * 2 ^ 256 / 2 ^ l) 0 : Nat)) + 1
        (.fin (t < 0) t.natAbs (-121), 0)

/-! ## FP32 functions of the scalar and vector families -/

def f32 (b : Word32) : FVal := fdecode 10 false b.toNat

/-- Rounds a result into FP32, adding the flags of the operation. -/
def pack32 (rm w : Nat) (v : FVal × Flags) : Word32 × Flags :=
  let (r, fl) := fround 10 false false rm w v.1
  (BitVec.ofNat 32 r, v.2 ||| fl)

def fAdd (rm w : Nat) (a b : Word32) : Word32 × Flags := pack32 rm w (faddV rm (f32 a) (f32 b))
def fSub (rm w : Nat) (a b : Word32) : Word32 × Flags := pack32 rm w (faddV rm (f32 a) (f32 b).neg)
def fMul (rm w : Nat) (a b : Word32) : Word32 × Flags := pack32 rm w (fmulV (f32 a) (f32 b))
def fDiv (rm w : Nat) (a b : Word32) : Word32 × Flags := pack32 rm w (fdivV (f32 a) (f32 b))

/-- a * b + c with one rounding (R80, R97). DESIGN CHOICE: 0 times infinity sets NV even when c is a quiet NaN, which IEEE 754-2019 leaves
open and no rule decides for this instruction (log 36). -/
def fFma (rm w : Nat) (a b c : Word32) : Word32 × Flags :=
  let p := fmulV (f32 a) (f32 b)
  let s := faddV rm p.1 (f32 c)
  pack32 rm w (s.1, p.2 ||| s.2)

def fSqrt (rm w : Nat) (a : Word32) : Word32 × Flags := pack32 rm w (fsqrtV (f32 a))
def fRcp (rm w : Nat) (a : Word32) : Word32 × Flags := pack32 rm w (fdivV (.fin false 1 0) (f32 a))
def fRsq (rm w : Nat) (a : Word32) : Word32 × Flags := pack32 rm w (frsqV (f32 a))
def fExp2 (rm w : Nat) (a : Word32) : Word32 × Flags := pack32 rm w (fexp2V (f32 a))
def fLog2 (rm w : Nat) (a : Word32) : Word32 × Flags := pack32 rm w (flog2V (f32 a))

/-- a < b for values that are no NaN; -0 and +0 are equal. -/
def fltV (a b : FVal) : Bool :=
  match a, b with
  | .nan _, _ => false
  | _, .nan _ => false
  | .inf m, .inf n => m && !n
  | .inf m, _ => m
  | _, .inf n => !n
  | .fin n1 m1 e1, .fin n2 m2 e2 => let lo := min e1 e2; scaled n1 m1 e1 lo < scaled n2 m2 e2 lo

/-- The code of FCMP (R80). -/
def fCmp (a b : Word32) : Word32 × Flags :=
  let x := f32 a
  let y := f32 b
  (if x.isNaN || y.isNaN then 8 else if fltV x y then 1 else if fltV y x then 4 else 2, sigFlag [x, y])

/-- minimumNumber (less) or maximumNumber: a NaN yields the other operand, -0 < +0 (R80). -/
def fMinMax (less : Bool) (a b : Word32) : Word32 × Flags :=
  let x := f32 a
  let y := f32 b
  let fl := sigFlag [x, y]
  if x.isNaN && y.isNaN then (0x7FC00000, fl)
  else if x.isNaN then (b, fl)
  else if y.isNaN then (a, fl)
  else
    let aFirst := fltV x y || (!fltV y x && x.isNeg)
    (if aFirst = less then a else b, fl)

/-- The class bit of FCLASS (R80). -/
def fClass (a : Word32) : Word32 :=
  match f32 a with
  | .nan true => 0x100
  | .nan false => 0x200
  | .inf n => if n then 1 else 0x80
  | .fin n m _ =>
    if m = 0 then (if n then 8 else 0x10)
    else if m < 2 ^ 23 then (if n then 4 else 0x20)
    else if n then 2 else 0x40

/-! ## Sums of products (R63, R64, R100) -/

/-- The exact sum of finite values as an integer multiple of 2^lo. -/
def sumFin (lo : Int) : List FVal → Int
  | [] => 0
  | .fin n m e :: rest => scaled n m (max e lo) lo + sumFin lo rest
  | _ :: rest => sumFin lo rest

def minExp : List FVal → Int
  | [] => 0
  | [.fin _ _ e] => e
  | .fin _ _ e :: rest => min e (minExp rest)
  | _ :: rest => minExp rest

/-- The sum of the products of one k-step: NaN, infinity or the exact sum, with its zero sign (R63). -/
def sumProducts (rm : Nat) (ps : List FVal) : FVal × Flags :=
  let pos := ps.any (fun p => p = .inf false)
  let neg := ps.any (fun p => p = .inf true)
  if ps.any FVal.isNaN || (pos && neg) then (.nan false, fNV)
  else if pos || neg then (.inf neg, 0)
  else
    let lo := minExp ps
    let t := sumFin lo ps
    if t ≠ 0 then (.fin (t < 0) t.natAbs lo, 0)
    else if ps ≠ [] && ps.all (fun p => p.isZero && p.isNeg) then (.fin true 0 0, 0)
    else if ps.all (fun p => p.isZero && !p.isNeg) then (.fin false 0 0, 0)
    else (.fin (rm = 3) 0 0, 0)

/-- A product of a k-step: with ZS a product with a zero operand is +0, and SUPN says that it would have been NaN (R64). -/
def product (zs : Bool) (a b : FVal) : FVal × Flags :=
  let p := fmulV a b
  if zs && (a.isZero || b.isZero) then (.fin false 0 0, if p.1.isNaN then fSUPN else 0)
  else (p.1, if p.1.isNaN then fNV else 0)

/-! ## Block records and codebooks (R54 to R60) -/

/-- Element format, element width and element count of a block format (R41, R55). -/
def blockElem (fmt : Nat) : Nat × Nat × Nat :=
  if fmt = 17 then (12, 8, 32) else if fmt = 18 then (14, 6, 32) else if fmt = 19 then (15, 4, 32) else (16, 16, 4)

/-- A value multiplied by 2^k. -/
def FVal.shift (v : FVal) (k : Int) : FVal := match v with | .fin n m e => .fin n m (e + k) | _ => v

/-- Element i of a packed record with an E4M3, E3M2 or E2M1 element (R55, R56). -/
def recElem (fmt : Nat) (xm : Bool) (rec : List Byte) (i : Nat) : FVal :=
  let (ef, w, _) := blockElem fmt
  let scale := leNat (rec.take 1)
  let bits := leNat (rec.drop 1)
  if scale = 255 then .nan false
  else (fdecode ef xm (bits / 2 ^ (w * i) % 2 ^ w)).shift ((scale : Int) - 127)

/-- The exponent of the largest finite element value (R59). -/
def emaxOf (fmt : Nat) (xm : Bool) : Int := if fmt = 17 then (if xm then 7 else 8) else if fmt = 18 then (if xm then 3 else 4) else 2

def FVal.isFin : FVal → Bool
  | .fin .. => true
  | _ => false

/-- floor(log2 |v|) of a finite non-zero value. -/
def FVal.lead : FVal → Int
  | .fin _ m e => e + (bitLen m : Int) - 1
  | _ => 0

/-- The scale of a record of finite values: from the largest magnitude, clamped (R59). -/
def blockScale (fmt : Nat) (xm : Bool) (vs : List FVal) : Nat :=
  let nz := vs.filter (fun v => !v.isZero)
  match nz with
  | [] => 127
  | v :: rest => (max 0 (min 254 ((rest.foldl (fun a x => max a x.lead) v.lead) - emaxOf fmt xm + 127))).toNat

/-- Encodes 32 values into a packed record (R59); `ws` are the words of the 32 roundings. -/
def encodeRecord (fmt : Nat) (xm : Bool) (rm : Nat) (ws : List Nat) (vs : List FVal) : List Byte × Flags :=
  let (ef, w, _) := blockElem fmt
  let n := packedSize fmt - 1
  if vs.all FVal.isFin then
    let scale := blockScale fmt xm vs
    let es := (vs.zip ws).map fun p => fround ef xm true rm p.2 (p.1.shift (127 - (scale : Int)))
    let bits := (es.zip (List.range 32)).foldl (fun a p => a + p.1.1 % 2 ^ w * 2 ^ (w * p.2)) 0
    (BitVec.ofNat 8 scale :: toBytes n bits, es.foldl (fun f e => f ||| e.2) 0)
  else (255 :: toBytes n 0, fNV)

/-- Weight j of a CB2 index through a code table (R60). -/
def cbWeight (table : Nat → Byte) (xm : Bool) (index j : Nat) : FVal :=
  let b := (table (8 * (index / 256 % 256) + j)).toNat % 128
  match fdecode 12 xm b with
  | .fin _ m e => .fin (index.testBit j) m e
  | .inf _ => .inf (index.testBit j)
  | .nan s => .nan s

end Sys2Proof.Machine
end

