-- ==== Sys2Proof/Machine/Remote.lean ====
section
/-!
DEFINITION. Peers: the slot table in force (R270 to R273), sending a request to a peer (R274, R281) and what becomes of one
that fails (R281 to R283).
-/

namespace Sys2Proof.Machine

def Fabric.enabled (f : Fabric) : Bool := f.ctrl.getLsbD 8
def Fabric.nslot (f : Fabric) : Nat := (f.ctrl.extractLsb' 0 7).toNat
def Fabric.table (f : Fabric) : List (Word × Word) := f.slots.toList.take f.nslot

def slotLen (e : Word × Word) : Nat := (e.1.extractLsb' 32 32).toNat
def slotGuard (e : Word × Word) : Nat := (e.1.extractLsb' 0 32).toNat
/-- The device that port die p reaches in an entry, if its destination is valid (R270). -/
def slotDest (e : Word × Word) (p : Nat) : Option Nat :=
  let d := e.2.toNat / 2 ^ (16 * p) % 65536
  if 32768 ≤ d then some (d - 32768) else none

/-- P of R271. -/
def Fabric.period (f : Fabric) : Nat := (f.table.map slotLen).sum

/-- The entry that offset o falls in: its number and the offset inside it (R271). -/
def slotAt : List (Word × Word) → Nat → Nat → Option (Nat × Nat)
  | [], _, _ => none
  | e :: rest, n, o => if o < slotLen e then some (n, o) else slotAt rest (n + 1) (o - slotLen e)

/-- A rotation of the table in force has begun (R273). -/
def Fabric.running (f : Fabric) (time : Nat) : Bool := f.enabled && f.rotbase.toNat ≤ time

/-- The current slot and the ns since its start (R271). -/
def Fabric.current (f : Fabric) (time : Nat) : Option (Nat × Nat) :=
  if f.running time && 0 < f.period then slotAt f.table 0 ((time - f.rotbase.toNat) % f.period) else none

/-- Port die p has a live wavelength (R306). -/
def Fabric.portLive (f : Fabric) (p : Nat) : Bool := if h : p < 4 then f.waves[p] ≠ 0 else false

/-- Port die p serves the queue of a device now: its slot names it and the window is open (R272). -/
def Fabric.open? (f : Fabric) (time p dev : Nat) : Bool :=
  match f.current time with
  | none => false
  | some (n, o) =>
    match f.table[n]? with
    | none => false
    | some e => slotDest e p = some dev && o < slotLen e - slotGuard e && f.portLive p

/-- A destination is reachable (R271, R306). -/
def Fabric.reaches (f : Fabric) (dev : Nat) : Bool :=
  f.table.any fun e => [0, 1, 2, 3].any fun p => slotDest e p = some dev && f.portLive p

/-- TLIM (R281). -/
def Fabric.tlim (f : Fabric) : Nat := if f.enabled then 2 * f.period + 1000000 else 1000000

/-- Device and window offset of a peer address (R42, R274). -/
def peerDev (ea : Nat) : Nat := ea / 2 ^ 40 % 2 ^ 15
def peerOff (ea : Nat) : Nat := ea % 2 ^ 40

/-- A peer address that names this package traps ACCESS (R274). -/
def State.ownDevice (s : State) (ea : Nat) : Bool := isPeer ea && peerDev ea = s.fab.devno.toNat

/-- TVAL of REMOTEFAIL (R281). -/
def remoteTval (code dev : Nat) : Word := BitVec.ofNat 64 (code % 256 + dev % 2 ^ 15 * 2 ^ 40)

/-- TVAL of CHAINFLT (R209). -/
def chainTval (step why addr : Nat) : Word := BitVec.ofNat 64 (step % 8 * 2 ^ 61 + why % 32 * 2 ^ 56 + addr % 2 ^ 56)

/-- A chain fails: gd takes 0 and is poisoned (R209). -/
def State.chainFail (s : State) (sl : SlotId) (req : Nat) (rd : Reg) (step why addr : Nat) : State :=
  s.modSlot sl fun x => (((x.dropReq req).writeG rd 0).poisonG rd cCHAINFLT (chainTval step why addr)).wake

/-- The register a request would fill becomes full again with the value it had: its region rolls back (R283). -/
def Slot.release (x : Slot) : ReqKind → Slot
  | .ldn rd .. | .eng rd _ | .ship _ rd true _ _ _ _ | .chain rd .. => x.setTagG rd .full
  | _ => x

def Core.release (c : Core) : ReqKind → Core
  | .vld v .. | .vldf v .. => c.setTagV v .full
  | _ => c

/-- The open region of the slot notes a failure: the first one, with its TIME (R283). -/
def Slot.noteFailure (x : Slot) (code : BitVec 16) (time : Nat) : Slot :=
  { x with region := x.region.map fun g => { g with failed := g.failed <|> some (code, time) } }

/-- The answers of this package's target to a chain's step beside the codes of R281: 12 uncorrectable data, 15 a page that is not mapped
there (log 26). -/
def chainWhy (code : Nat) : Nat := if code = 15 then 1 else if code = 6 then 2 else if code = 12 then 7 else 6

/-- An element of a request of a slot fails with a code of R281. A failure of an open region is noted for its rollback and poisons nothing
(R283), nor does one of a region that ended by its limit; outside, each kind reports it as its own rule lays down. A vector access goes on with its other elements (R108, R109). -/
def State.remoteFail (s : State) (sl : SlotId) (req elem code dev : Nat) : State :=
  match (s.slot sl).req req with
  | none => s
  | some r =>
    let tval := remoteTval code dev
    let inside := (r.region && (s.slot sl).region.isSome) || r.quiet
    let s := if inside && !r.quiet && !(match r.kind with | .chain .. => chainWhy code ≠ 6 | _ => false) then
        s.modSlot sl fun x => x.noteFailure (BitVec.ofNat 16 code) s.time else s
    match r.kind with
    | .vld .. => if inside then s.vldEnds sl req [elem] [] [] else s.laneFails sl req elem cREMOTEFAIL tval
    | .vldf .. => if inside then s.vldfEnds sl req elem none none else s.laneFails sl req elem cREMOTEFAIL tval
    | .vst .. =>
      let t := s.vstEnds sl req [elem]
      if inside then t else t.slotFault sl 2 cREMOTEFAIL tval 0
    | .chain rd p step _ steps _ =>
      if inside && chainWhy code = 6 then s.modSlot sl fun x => ((x.release r.kind).dropReq req).wake
      else s.chainFail sl req rd step (chainWhy code) (stepAddr p (steps.headD (0, 0)).1)
    | kind =>
      if inside then
        s.modSlot sl fun x =>
          { (x.release kind).dropReq req with wait := if x.wait = .sent req then .ready else x.wake.wait }
      else
        let t := s.modSlot sl fun x => x.dropReq req
        match kind with
        | .ldn rd .. => t.modSlot sl fun x => (x.poisonG rd cREMOTEFAIL tval).wake
        | .ship _ rd true _ _ _ _ => t.modSlot sl fun x => (x.poisonG rd cREMOTEFAIL tval).wake
        | .load .. | .amo .. | .store .. | .image .. => (t.modSlot sl fun x => { x with wait := .ready }).takeTrap sl cREMOTEFAIL tval
        | .st .. => t.slotFault sl 2 cREMOTEFAIL tval 0
        | _ => t.slotFault sl 8 cREMOTEFAIL tval 0

/-- A new request of a slot, by number: issued now, under its CTXID, in the region that is open (R247, R281, R282). -/
def State.newReqOf (s : State) (sl : SlotId) (kind : ReqKind) (counted peer : Bool) : Req :=
  ⟨s.nextReq, kind, counted, peer, peer && (s.slot sl).region.isSome, false, s.time, s.ctxidOf sl, false⟩

/-- Adds a request to the slot that issues. -/
def State.addReq (s : State) (kind : ReqKind) (counted peer : Bool) : State :=
  { s.modMe fun x => x.addReq (s.newReqOf s.cur kind counted peer) with nextReq := s.nextReq + 1 }

/-- Puts the frames of request `req` of a slot, by element, into the send queues of their devices; an element fails at once with code 5
where its device is not reachable (R272, R274). -/
def State.sendFrames (s : State) (sl : SlotId) (req : Nat) : List (Nat × Nat × PeerOp) → State
  | [] => s
  | (elem, dev, op) :: rest =>
    (if s.fab.reaches dev then s.sendFrame dev sl req elem (.access op) else s.remoteFail sl req elem 5 dev).sendFrames sl req rest

/-- A blocking request to a peer: the slot waits for the answer (R74, R274). -/
def State.askPeer (s : State) (kind : ReqKind) (dev : Nat) (op : PeerOp) : State :=
  let n := s.nextReq
  let s := (s.addReq kind true true).modMe fun x => { x with wait := .sent n }
  s.sendFrames s.cur n [(0, dev, op)]

/-- A request to a peer that lets the slot go on, with the slot changed by f at issue. -/
def State.tellPeer (s : State) (kind : ReqKind) (dev : Nat) (op : PeerOp) (f : Slot → Slot) : State :=
  let n := s.nextReq
  let s := (s.addReq kind true true).modMe fun x => (f x).next
  s.sendFrames s.cur n [(0, dev, op)]

/-! ## Returning from an upcall -/

/-- The n-th doubleword of a record. -/
def dword (bs : List Byte) (n : Nat) : Nat := leNat ((bs.drop (8 * n)).take 8)

/-- Replay entry n of a fibre record (R86). -/
def replayAt (bs : List Byte) (n : Nat) : Nat × Nat × Nat := (dword bs (48 + 3 * n), dword bs (49 + 3 * n), dword bs (50 + 3 * n))

/-- The third doubleword of a replay entry: kind 1 or 2, no reserved bit, a size its kind allows (R86, R88). -/
def replayOk (d : Nat) : Bool :=
  let sz := d / 2 ^ 12 % 8
  d < 2 ^ 21 && d / 2 ^ 8 % 16 = 0 && !bit d 15 &&
    ((d % 256 = 1 && sz < 7) || (d % 256 = 2 && sz < 4 && d / 2 ^ 16 = 0))

/-- Replay entry n is a load into register r. -/
def replayLoads (bs : List Byte) (r n : Nat) : Bool :=
  let d := (replayAt bs n).2.2
  d % 256 = 1 && d / 2 ^ 16 % 32 = r

/-- The tag code and the poison cause of register r in a record (R86). -/
def recTag (bs : List Byte) (r : Nat) : Nat := dword bs 5 / 4 ^ r % 4
def recCause (bs : List Byte) (r : Nat) : Nat := leNat ((bs.drop (0x140 + r)).take 1)

/-- What UPRET checks of a record before it changes anything (R88). -/
def recordOk (bs : List Byte) : Bool :=
  let n := dword bs 44
  n ≤ 64 && dword bs 3 < 2 ^ 10 && dword bs 3 % 8 ≤ 4 &&
    (List.range n).all (fun i => replayOk (replayAt bs i).2.2) &&
    (List.range 32).all fun r => r = 0 ||
      (recTag bs r ≠ 3 && ((recTag bs r = 1) == (List.range n).any (replayLoads bs r)) &&
        (recTag bs r ≠ 2 || (1 ≤ recCause bs r && recCause bs r ≤ 14)))

/-- The tag of register r that a record holds. -/
def recTagOf (bs : List Byte) (r : Nat) : Tag :=
  if r = 0 || recTag bs r = 0 then .full
  else if recTag bs r = 1 then .empty
  else .poisoned (BitVec.ofNat 8 (recCause bs r)) (BitVec.ofNat 64 (dword bs (8 + r)))

/-- Loads g1 to g31 with tags, FSTAT and VI from a record (R88 steps 4 and 5). -/
def Slot.loadRecord (x : Slot) (bs : List Byte) : Slot :=
  { x with g := Vector.ofFn fun i => if i.val = 0 then x.g[i] else BitVec.ofNat 64 (dword bs (8 + i.val)),
           gt := Vector.ofFn fun i => recTagOf bs i.val, fstat := BitVec.ofNat 10 (dword bs 3), vi := BitVec.ofNat 8 (dword bs 4) }

/-- A replay entry as a request: reissued to its peer where its pointer names one (R88 step 6). DESIGN CHOICE: R88 lists no check of its
pointer, so that a misaligned one is performed as it stands, FMT and BLK are not looked at, and one that names a scratchpad the context
does not hold, or this package as a peer, parks with ACCESS (log 72). -/
def State.replayReq (s : State) (num : Nat) (e : Nat × Nat × Nat) : Req :=
  let ea : Word := BitVec.ofNat 64 (e.1 % 2 ^ 56)
  let z := BitVec.ofNat 3 (e.2.2 / 2 ^ 12)
  let kind : ReqKind := if e.2.2 % 256 = 1 then .ldn (BitVec.ofNat 5 (e.2.2 / 2 ^ 16)) z (BitVec.ofNat 64 e.1) ea
    else .st z (BitVec.ofNat 64 e.1) ea (BitVec.ofNat 64 e.2.1)
  { s.newReqOf s.cur kind (!ownPad s.cur.core ea.toNat (szBytes z)) (isPeer ea.toNat && !s.ownDevice ea.toNat) with num := num }

/-- What a reissued request asks of its peer. -/
def Req.replayFrames (r : Req) : List (Nat × Nat × PeerOp) :=
  match r.peer, r.kind with
  | true, .ldn _ z _ ea => [(0, peerDev ea.toNat, .read (peerOff ea.toNat) (szBytes z))]
  | true, .st z _ ea data => [(0, peerDev ea.toNat, .write (peerOff ea.toNat) (toBytes (szBytes z) data.toNat))]
  | _, _ => []

/-- UPRET (R88): waits for producers and for the slot's own stores to the record (R78), reads and checks the record, waits for room, then restores, reissues and goes on at TPC.
DESIGN CHOICE: TVAL of a translation fault while the record is read is the address in UPSAVE, whichever page of the record faults, for
R88 names none (log 31). -/
def State.upReturn (s : State) : Out :=
  let x := s.me
  if !x.settled then s.stall
  else
    match s.recordLoc s.cur permR with
    | .error c => if c = cFMTFAULT then s.trap c x.upsave else s.trapAt c (addr56 x.upsave)
    | .ok l =>
      if x.waitsFor (addr56 x.upsave) 1920 || x.parkedOver (addr56 x.upsave) 1920 then s.stall
      else if s.isPoisoned l.keys then s.trap cUNCORR (s.badLine (addr56 x.upsave) l.keys)
      else
        let bs := s.seen s.cur.core l.keys
        let n := dword bs 44
        if !recordOk bs then s.illegal 0x9C000006
        else if s.myCore.limit.toNat < s.myCore.outst + n && !(s.myCore.limit.toNat < n && s.myCore.outst = 0) then s.stall
        else
          let reqs := (List.range n).map fun i => s.replayReq (s.nextReq + i) (replayAt bs i)
          let s := { s with nextReq := s.nextReq + n }
          let t := s.modMe fun x =>
            { x.loadRecord bs with reqs := x.reqs ++ reqs, upvec := x.upvec ||| 1, pc := x.tpc, wait := .ready }
          .next (reqs.foldl (fun t r => t.sendFrames s.cur r.num r.replayFrames) t)

end Sys2Proof.Machine
end

