-- ==== Sys2Proof/Machine/Operands.lean ====
section
/-!
DEFINITION. The operand forms: registers and immediates (R24 to R28), the effective address and its checks (R72, R43), and
the shared shapes of the families (ALU, immediates, branches, scalar memory, AMO, scalar floating point, vector lanes).
-/

namespace Sys2Proof.Machine

/-! ## Lists of checks (R17 step 5) -/

/-- The first of some checks that fails. -/
def firstFault : List (Option (BitVec 8 × Word)) → Option (BitVec 8 × Word)
  | [] => none
  | some e :: _ => some e
  | none :: rest => firstFault rest

/-- A check: traps with a cause and value when the condition holds. -/
def failIf (c : Bool) (cause : BitVec 8) (tval : Word) : Option (BitVec 8 × Word) := if c then some (cause, tval) else none

/-- R43. -/
def ptrFault (p : Word) : Option (BitVec 8 × Word) := failIf (!ptrOk p) cFMTFAULT p

/-- Sources of the fields: w bits select trap mode (R14); d is read in block mode. -/
def srcD (d : Reg) : Source := .g d 0 false
def srcA (a : Reg) (x : Bool) : Source := .g a 1 x
def srcB (b : Reg) (y : Bool) : Source := .g b 2 y

/-! ## Register forms -/

/-- gd := f ga gb (R68). -/
def alu2 (s : State) (d a b : Reg) (x y : Bool) (f : Word → Word → Word) : Out :=
  withOperands s [srcA a x, srcB b y] [.g d] (s.retireG d (f (s.me.readG a) (s.me.readG b)))

/-- gd := f ga (R68, R70). -/
def alu1 (s : State) (d a : Reg) (x : Bool) (f : Word → Word) : Out :=
  withOperands s [srcA a x] [.g d] (s.retireG d (f (s.me.readG a)))

def boolWord (b : Bool) : Word := if b then 1 else 0

/-- Sign extension of immediate fields. -/
def sext15 (i : BitVec 15) : Word := i.signExtend 64
def zext15 (i : BitVec 15) : Word := i.setWidth 64
def sext21 (i : BitVec 21) : Word := i.signExtend 64
def sext14 (i : BitVec 14) : Word := i.signExtend 64

/-- A conditional branch (R79). -/
def branch (s : State) (a b : Reg) (x y : Bool) (o : BitVec 14) (taken : Word → Word → Bool) : Out :=
  withOperands s [srcA a x, srcB b y] []
    (.next (s.modMe fun t =>
      { t with pc := if taken (t.readG a) (t.readG b) then t.pc + (sext14 o <<< 2) else t.pc + 4, wait := .ready }))

/-! ## Scalar memory forms -/

/-- The effective address of the M format: (p[55:0] + sext(off12) * size) mod 2^56 (R25, R72). -/
def effAddr (p : Word) (o : BitVec 12) (size : Nat) : Nat :=
  ((addr56 p : Int) + o.toInt * size).emod (2 ^ 56) |>.toNat

/-- The checks of R72 on a pointer and an address: FMTFAULT, MISALIGN, then the package's own device (R274), then the
scratchpad window, whose faults are found at issue (R141, R142). -/
def addressFault (s : State) (p : Word) (ea size : Nat) (perm : Perm) : Option (BitVec 8 × Word) :=
  if !ptrOk p then some (cFMTFAULT, p)
  else if ea % size ≠ 0 then some (cMISALIGN, withAddr p ea)
  else if s.ownDevice ea then some (cACCESS, withAddr p ea)
  else if isPeer ea then none
  else if touchesWin ea size then
    match s.resolve (s.agent s.cur) ea size perm with
    | .ok _ => none
    | .error c => some (c, BitVec.ofNat 64 ea)
  else none

/-- The access of the issuing slot waits at step 5 of R17: an acquire before it (R156), an earlier overlapping access (R78), or no room in
OUTST (R39). -/
def mustWait (s : State) (ea size : Nat) (overlap : Bool) : Bool :=
  s.me.acquiring || (overlap && (s.me.waitsFor ea size || s.me.parkedOver ea size)) || (!ownPad s.cur.core ea size && s.myCore.outstFull)

/-- The access of the issuing slot reaches its words; where a near-bank unit is at work on their bank, it waits there for its turn at a row
boundary (R218, R223). -/
def State.atBank (s : State) (l : Loc) (k : State → Out) : Out :=
  if s.bankOpen (.slot s.cur s.me.pc) l then k (s.leaveBank (.slot s.cur s.me.pc) l)
  else .next ((s.joinBank (.slot s.cur s.me.pc) l.bank).block s.cur)

/-- A precise access (LD, AMO, LDF, LDFE, STE, STF): after the address checks, the wait of R78 and OUTST, translation and the wait at a bank,
k gets the state and the location (R74). A peer address goes to `peer`. -/
def preciseAccess (s : State) (p : Word) (ea size : Nat) (perm : Perm) (peer : Out) (k : State → Loc → Out) : Out :=
  match addressFault s p ea size perm with
  | some (c, t) => s.trap c t
  | none =>
    if mustWait s ea size true then s.stall
    else if isPeer ea then peer
    else
      match s.resolve (s.agent s.cur) ea size perm with
      | .error c => s.trapAt c ea
      | .ok l => s.atBank l fun s => k s l

/-- A precise access at the point of coherence: it also waits for forwarded stores of its die to the same words (R154). -/
def pocAccess (s : State) (p : Word) (ea size : Nat) (perm : Perm) (peer : Out) (k : State → Loc → Out) : Out :=
  preciseAccess s p ea size perm peer fun s l => if s.sliceOver s.cur.core l.keys then s.stall else k s l

/-- An access of the issuing slot reaches its point of coherence. -/
def State.touch (s : State) (ea size : Nat) : State := s.used (s.agent s.cur) ea size

/-- LD (R73, R74). -/
def loadForm (s : State) (d a : Reg) (x : Bool) (z : BitVec 3) (o : BitVec 12) : Out :=
  withOperands s [srcA a x] [.g d] (
    let p := s.me.readG a
    let n := szBytes z
    let ea := effAddr p o n
    preciseAccess s p ea n permR
      (.next (s.askPeer (.load d z (BitVec.ofNat 64 ea) false) (peerDev ea) (.read (peerOff ea) n)))
      fun s l =>
        if (s.badByte s.cur.core ea l).isSome then s.trap cUNCORR (lineAddr ea)
        else (s.loadFill (s.agent s.cur) s.cur.core ea l).retireG d (extend z (s.loadBytes s.cur.core ea l)))

/-- Every earlier access of the slot is performed with respect to every agent of a scope (R156): in the slot nothing waits; in the core,
the cluster and the die a store that the die's slices forward is performed (R154); beyond, none. Engine reads take their value at issue,
and posts and messages are no accesses. -/
def Slot.performedAt (x : Slot) (scope : Nat) : Bool :=
  scope = 0 || x.reqs.all fun r =>
    match r.kind with
    | .eng .. | .post => true
    | .vst ws => ws = [] && scope < 4
    | _ => false

/-- What a release at a scope orders before it is performed: beyond the die, also the stores of the die that the slot may have read (R155,
R156). -/
def State.ordered (s : State) (scope : Nat) : Bool := s.me.performedAt scope && (scope < 4 || s.sliceFree s.cur.core)

/-- Every access of the slots of some cores is performed, and the slices of their dies hold no store, which they may have read: what the
posts at the exit of their group follow (R155, R229). -/
def State.coresOrdered (s : State) (cores : List Nat) : Bool :=
  cores.all fun c => s.sliceFree c && (slotIds c).all fun sl => (s.slot sl).performedAt 4

/-- The cores of a group. -/
def Group.cores (g : Group) : List Nat := keysFrom (coreAt g.die g.cluster g.first) g.size

/-- The reach scope of a word: cluster, package or system (R157). -/
def reachScope (ea : Nat) : Nat := if isPeer ea then 5 else if inWin ea then 2 else 4

/-- LDF and LDFE (R160): wait for full at the point of coherence; LDFE leaves the word empty. -/
def syncLoad (s : State) (d a : Reg) (x : Bool) (z : BitVec 3) (o : BitVec 12) (empties : Bool) : Out :=
  withOperands s [srcA a x] [.g d] (
    let p := s.me.readG a
    let n := szBytes z
    let ea := effAddr p o n
    let kind : ReqKind := .load d z (BitVec.ofNat 64 ea) empties
    pocAccess s p ea n (if empties then permRW else permR)
      (.next (s.askPeer kind (peerDev ea) (.syncLoad (peerOff ea) n empties)))
      fun s l =>
        if empties && !l.tagged then s.trap cACCESS (BitVec.ofNat 64 ea)
        else if s.isPoisoned l.keys then s.trap cUNCORR (lineAddr ea)
        else if s.locFull l then
          let v := extend z (s.bytes l.keys)
          let t := ((s.touch ea n).modMe fun y => ((y.writeG d v).next).acquire).dropLines s.cur.core
          .next (if empties then t.retag (tagWords l) false else t)
        else
          let num := s.nextReq
          let t := ((s.touch ea n).addReq kind (!ownPad s.cur.core ea n) false).modMe fun y => { y with wait := .sent num }
          .next { t with waiters := t.waiters ++ [⟨s.cur, num, l.keys.headD 0, n, if empties then .ldfe else .ldf⟩] })

/-- STE and STF (R160): releases (R157); STE waits for empty at the point of coherence. -/
def syncStore (s : State) (src a : Reg) (x : Bool) (z : BitVec 3) (o : BitVec 12) (waitsEmpty : Bool) : Out :=
  withOperands s [srcD src, srcA a x] [] (
    let p := s.me.readG a
    let n := szBytes z
    let ea := effAddr p o n
    let data := s.me.readG src
    let kind : ReqKind := .store z (BitVec.ofNat 64 ea) data
    match addressFault s p ea n permW with
    | some (c, t) => s.trap c t
    | none =>
      if s.releasing s.cur || !s.ordered (reachScope ea) then s.stall
      else
        pocAccess s p ea n permW
          (.next (s.askPeer kind (peerDev ea) (.syncStore (peerOff ea) (toBytes n data.toNat) waitsEmpty)))
          fun s l =>
            if waitsEmpty && !l.tagged then s.trap cACCESS (BitVec.ofNat 64 ea)
            else if !s.canMerge l.keys then s.trap cUNCORR (lineAddr ea)
            else
              let s := (s.touch ea n).dropLine s.cur.core ea
              if !waitsEmpty || s.locEmpty l then
                .next ((((s.keptAll l.keys true).put l.keys (toBytes n data.toNat)).modMe Slot.next).retag (tagWords l) true)
              else
                let num := s.nextReq
                let t := (s.addReq kind (!ownPad s.cur.core ea n) false).modMe fun y => { y with wait := .sent num }
                .next { t with waiters := t.waiters ++ [⟨s.cur, num, l.keys.headD 0, n, .ste⟩] })

/-- ST and LDN: the request leaves the core and the slot goes on (R75, R76). -/
def postForm (s : State) (p : Word) (ea size : Nat) (perm : Perm) (kind : ReqKind) (op : PeerOp) (f : Slot → Slot) : Out :=
  match addressFault s p ea size perm with
  | some (c, t) => s.trap c t
  | none =>
    if mustWait s ea size false || (kind.isStore && s.releasing s.cur) then s.stall
    else if isPeer ea then .next (s.tellPeer kind (peerDev ea) op f)
    else .next ((s.addReq kind (!ownPad s.cur.core ea size) false).modMe fun x => (f x).next)

/-! ## Atomic memory operations (R162) -/

/-- The width of an AMO's operands in bits. -/
def amoBits (wide : Bool) : Nat := if wide then 64 else 32

/-- Signed value of an n-bit number. -/
def signed (n v : Nat) : Int := if 2 ^ (n - 1) ≤ v then (v : Int) - 2 ^ n else v

/-- The new value of a word under AMO function fn (R162): old, gb and gd as numbers of n bits. -/
def amoNew (fn n old b cmp : Nat) : Nat :=
  match fn with
  | 0 => (old + b) % 2 ^ n
  | 1 => old &&& b
  | 2 => old ||| b
  | 3 => old ^^^ b
  | 4 => if signed n old ≤ signed n b then old else b
  | 5 => if signed n old ≤ signed n b then b else old
  | 6 => min old b
  | 7 => max old b
  | 8 => b
  | 9 => if old = cmp then b else old
  | _ => (fAdd 0 0 (BitVec.ofNat 32 old) (BitVec.ofNat 32 b)).1.toNat

/-- What an AMO writes to gd: the old value, sign-extended for .32, zero-extended for FADD (R162). -/
def amoResult (fn : Nat) (wide : Bool) (old : Nat) : Word :=
  if wide then BitVec.ofNat 64 old
  else if fn = 10 then (BitVec.ofNat 32 old).setWidth 64 else (BitVec.ofNat 32 old).signExtend 64

/-- An AMO (R162): with a scope wider than slot, a full fence before it and an acquire after it (R157). -/
def amoForm (s : State) (fn : Nat) (d a b : Reg) (x y : Bool) (scope : BitVec 3) (wide : Bool) : Out :=
  withOperands s ((if fn = 9 then [srcD d] else []) ++ [srcA a x, srcB b y]) [.g d] (
    let p := s.me.readG a
    let n := amoBits wide / 8
    let ea := addr56 p
    let bv := (s.me.readG b).toNat % 2 ^ amoBits wide
    let cmp := (s.me.readG d).toNat % 2 ^ amoBits wide
    match addressFault s p ea n permRW with
    | some (c, t) => s.trap c t
    | none =>
      if s.releasing s.cur || !s.ordered scope.toNat then s.stall
      else
        pocAccess s p ea n permRW
          (.next (s.askPeer (.amo d wide (fn = 10) (2 ≤ scope.toNat)) (peerDev ea) (.amo fn wide (peerOff ea) (s.me.readG b) (s.me.readG d))))
          fun s l =>
            if s.isPoisoned l.keys then s.trap cUNCORR (lineAddr ea)
            else
              let old := leNat (s.bytes l.keys)
              let t := (((s.touch ea n).keptAll l.keys (scope ≠ 0)).put l.keys (toBytes n (amoNew fn (amoBits wide) old bv cmp))).dropLine s.cur.core ea
              let t := if 2 ≤ scope.toNat then t.dropLines s.cur.core else t
              t.retireG d (amoResult fn wide old))

/-! ## Scalar floating point (R80) -/

/-- The words of n roundings of the issuing slot, and the generator after them (R50). -/
def Slot.words (x : Slot) (n : Nat) : List Nat × BitVec 16 := drawWords x.rm.toNat n x.rngseed

/-- The instruction ends writing an FP32 result, its flags and the generator after `n` roundings. -/
def State.retireF (s : State) (d : Reg) (n : Nat) (r : Word32 × Flags) : Out :=
  s.retire fun x => { (x.writeG d (r.1.setWidth 64)).flag r.2 with rngseed := (x.words n).2 }

def low32 (w : Word) : Word32 := w.setWidth 32

/-- An SFP instruction of two operands that rounds once. -/
def sfp2 (s : State) (d a b : Reg) (x y : Bool) (f : Nat → Nat → Word32 → Word32 → Word32 × Flags) : Out :=
  withOperands s [srcA a x, srcB b y] [.g d]
    (s.retireF d 1 (f s.me.rm.toNat ((s.me.words 1).1.headD 0) (low32 (s.me.readG a)) (low32 (s.me.readG b))))

/-- An SFP instruction of two operands that names no rounding. -/
def sfpExact (s : State) (d a b : Reg) (x y : Bool) (f : Word32 → Word32 → Word32 × Flags) : Out :=
  withOperands s [srcA a x, srcB b y] [.g d] (s.retireF d 0 (f (low32 (s.me.readG a)) (low32 (s.me.readG b))))

/-! ## Vector lanes (R92, R93) -/

/-- The lane results of an operation on the active lanes, ascending, with the words of its roundings (R50, R92). -/
def laneResults (f : Nat → Nat → Word32 × Flags) : List Nat → List Nat → List (Nat × Word32 × Flags)
  | [], _ => []
  | i :: is, ws => (i, f (ws.headD 0) i) :: laneResults f is ws.tail

/-- Replaces lanes of a vector. -/
def setLanes (old : Vector Word32 16) (rs : List (Nat × Word32 × Flags)) : Vector Word32 16 :=
  Vector.ofFn fun i => match rs.find? (fun r => r.1 = i.val) with | some r => r.2.1 | none => old[i]

/-- The instruction ends writing core vector register n. -/
def State.retireV (s : State) (n : Nat) (v : Vector Word32 16) : Out :=
  .next ((s.modCore s.cur.core fun c => c.writeV n v).modMe Slot.next)

/-- A lanewise operation of two vector sources: lane i := f w i a b d, with one word drawn per active lane if it rounds. The
destination is a source of R17 step 3 when the operation is masked or reads it (R93). -/
def lanewise2 (s : State) (vd va vb : VReg) (m : MReg) (rounds readsD : Bool)
    (f : Nat → Word32 → Word32 → Word32 → Word32 × Flags) : Out :=
  withV s vd fun d => withV s va fun a => withV s vb fun b =>
    withOperands s ((if readsD || m ≠ 0 then [Source.v d] else []) ++ [.v a, .v b]) [.v d] (
      let c := s.myCore
      let act := activeLanes (s.me.readM m)
      let ws := if rounds then s.me.words act.length else ([], s.me.rngseed)
      let rs := laneResults (fun w i => f w (lane (c.readV a) i) (lane (c.readV b) i) (lane (c.readV d) i)) act ws.1
      let s := s.modMe fun x => { x.flag (rs.foldl (fun fl r => fl ||| r.2.2) 0) with rngseed := ws.2 }
      s.retireV d (setLanes (c.readV d) rs))

/-- A lanewise operation of one vector source. -/
def lanewise1 (s : State) (vd va : VReg) (m : MReg) (rounds : Bool) (f : Nat → Word32 → Word32 × Flags) : Out :=
  withV s vd fun d => withV s va fun a =>
    withOperands s ((if m ≠ 0 then [Source.v d] else []) ++ [.v a]) [.v d] (
      let c := s.myCore
      let act := activeLanes (s.me.readM m)
      let ws := if rounds then s.me.words act.length else ([], s.me.rngseed)
      let rs := laneResults (fun w i => f w (lane (c.readV a) i)) act ws.1
      let s := s.modMe fun x => { x.flag (rs.foldl (fun fl r => fl ||| r.2.2) 0) with rngseed := ws.2 }
      s.retireV d (setLanes (c.readV d) rs))

/-- An integer lanewise operation: no flags, no words (R95). -/
def vint2 (s : State) (vd va vb : VReg) (m : MReg) (f : Word32 → Word32 → Word32) : Out :=
  lanewise2 s vd va vb m false false fun _ a b _ => (f a b, 0)

/-- The mask of the active lanes where p holds. -/
def laneMask (act : List Nat) (p : Nat → Bool) : BitVec 16 :=
  BitVec.ofNat 16 ((act.filter p).foldl (fun a i => a + 2 ^ i) 0)

/-- A compare into a mask register (R96). -/
def vcompare (s : State) (d : MReg) (va vb : VReg) (m : MReg) (p : Word32 → Word32 → Bool) : Out :=
  withV s va fun a => withV s vb fun b =>
    withOperands s [.v a, .v b] [] (
      let c := s.myCore
      s.retire fun x => x.writeM d (laneMask (activeLanes (x.readM m)) fun i => p (lane (c.readV a) i) (lane (c.readV b) i)))

end Sys2Proof.Machine
end

