-- ==== Sys2Proof/Machine/Float.lean ====
section
/-!
DEFINITION. Scalar floating point (R80, R81).
-/

namespace Sys2Proof.Machine

/-- FADD (R80). -/
def execFadd (d a b : Reg) (x y : Bool) (s : State) : Out := sfp2 s d a b x y fAdd
/-- FSUB (R80). -/
def execFsub (d a b : Reg) (x y : Bool) (s : State) : Out := sfp2 s d a b x y fSub
/-- FMUL (R80). -/
def execFmul (d a b : Reg) (x y : Bool) (s : State) : Out := sfp2 s d a b x y fMul
/-- FDIV (R80). -/
def execFdiv (d a b : Reg) (x y : Bool) (s : State) : Out := sfp2 s d a b x y fDiv

/-- FFMA: a * b + gd with one rounding; gd is read in block mode (R80). -/
def execFfma (d a b : Reg) (x y : Bool) (s : State) : Out :=
  withOperands s [srcD d, srcA a x, srcB b y] [.g d]
    (s.retireF d 1 (fFma s.me.rm.toNat ((s.me.words 1).1.headD 0) (low32 (s.me.readG a)) (low32 (s.me.readG b)) (low32 (s.me.readG d))))

/-- FSQRT (R80). -/
def execFsqrt (d a : Reg) (x : Bool) (s : State) : Out :=
  withOperands s [srcA a x] [.g d] (s.retireF d 1 (fSqrt s.me.rm.toNat ((s.me.words 1).1.headD 0) (low32 (s.me.readG a))))

/-- FMIN: minimumNumber (R80). -/
def execFmin (d a b : Reg) (x y : Bool) (s : State) : Out := sfpExact s d a b x y (fMinMax true)
/-- FMAX: maximumNumber (R80). -/
def execFmax (d a b : Reg) (x y : Bool) (s : State) : Out := sfpExact s d a b x y (fMinMax false)
/-- FCMP (R80). -/
def execFcmp (d a b : Reg) (x y : Bool) (s : State) : Out := sfpExact s d a b x y fCmp

/-- FCVT: source code gb[4:0], destination code gb[12:8] (R81). -/
def execFcvt (d a b : Reg) (x y : Bool) (s : State) : Out :=
  withOperands s [srcA a x, srcB b y] [.g d] (
    let gb := s.me.readG b
    let src := gb.toNat % 32
    let dst := gb.toNat / 256 % 32
    if !(convertible src && convertible dst) then s.trap cFMTFAULT gb
    else
      let n := if convRounds src dst then 1 else 0
      let r := encodeVal dst s.me.xm s.me.rm.toNat ((s.me.words n).1.headD 0) (decodeVal src s.me.xm (s.me.readG a).toNat)
      let v : Word := if intSigned dst then BitVec.ofInt 64 (idecode dst r.1) else BitVec.ofNat 64 r.1
      s.retire fun t => { (t.writeG d v).flag r.2 with rngseed := (t.words n).2 })

/-- FCLASS (R80). -/
def execFclass (d a : Reg) (x : Bool) (s : State) : Out :=
  withOperands s [srcA a x] [.g d] (s.retireF d 0 (fClass (low32 (s.me.readG a)), 0))

end Sys2Proof.Machine
end

