-- ==== Sys2Proof/Machine/Channels.lean ====
section
/-!
DEFINITION. The channel unit of a core and its deque (R120 to R122, R135, R136), activations (R117 to R119, R18) and the
selection of work for a free slot (R130, R131).
-/

namespace Sys2Proof.Machine

/-! ## Channel entries (R121) -/

def b2n (b : Bool) : Nat := if b then 1 else 0

/-- CTRL of an entry (R121). -/
def Channel.ctrl (c : Channel) : Word :=
  BitVec.ofNat 64 (c.reload.toNat * 2 ^ 32 + c.count.toNat * 2 ^ 16 + c.pnum.toNat * 2 ^ 8 + b2n c.busy * 128 + b2n c.loss * 64
    + b2n c.xmbad * 32 + b2n c.xm * 16 + b2n c.mask * 8 + b2n c.armed * 4 + c.prio.toNat)

/-- REGION of an entry (R121). -/
def Channel.regionWord (c : Channel) : Word := BitVec.ofNat 64 (c.rlen.toNat * 2 ^ 32 + c.rbase.toNat)

/-- The RW bits of CTRL take the bits of a word; RO bits stay (R121, R134). -/
def Channel.setCtrl (c : Channel) (w : Word) : Channel :=
  { c with reload := w.extractLsb' 32 16, count := w.extractLsb' 16 16, loss := w.getLsbD 6, xm := w.getLsbD 4,
           mask := w.getLsbD 3, armed := w.getLsbD 2, prio := w.extractLsb' 0 2 }

/-- An entry read from its 24 bytes. DESIGN CHOICE: R120 and R121 name no consequence of a region in the area that breaks the bounds of RLEN
and RBASE; the entry is taken as it stands, and a payload is written from RBASE on as its numbers say (log 73). -/
def Channel.ofWords (h c r : Word) : Channel :=
  { (({ Channel.init with haddr := h &&& ~~~(3#64) } : Channel).setCtrl c) with
      pnum := c.extractLsb' 8 8, busy := c.getLsbD 7, xmbad := c.getLsbD 5, rlen := r.extractLsb' 32 15,
      rbase := r.extractLsb' 0 16 }

def Core.chan (c : Core) (i : BitVec 5) : Channel := c.ch[i.toNat]'i.isLt

/-- Byte o of the channel area of a core, as a key (R120). -/
def Core.areaKey (c : Core) (core o : Nat) : Nat := padKey core (c.area.toNat * 4096 + o)

/-- Bit i of a word over the channels set to a value. -/
def setBit32 (v : BitVec 32) (i : BitVec 5) (b : Bool) : BitVec 32 :=
  if b then v ||| BitVec.twoPow 32 i.toNat else v &&& ~~~(BitVec.twoPow 32 i.toNat)

/-- A changed entry: a firing counted takes the senders of its decrements with it; with none pending, none remain (R127, R157). -/
def Core.putChan (c : Core) (i : BitVec 5) (e : Channel) : Core :=
  let f := c.far.getLsbD i.toNat
  let c' := { c with ch := c.ch.set i.toNat e i.isLt }
  if (c.chan i).pnum < e.pnum then
    { c' with far := setBit32 c.far i false, farFired := if f then setBit32 c.farFired i true else c.farFired }
  else if e.pnum = 0 then { c' with farFired := setBit32 c.farFired i false } else c'

/-- Changes an entry; the channel unit writes it through to the area (R120). -/
def State.setChan (s : State) (core : Nat) (i : BitVec 5) (e : Channel) : State :=
  let s := s.modCore core fun c => c.putChan i e
  s.put (keysFrom ((s.core core).areaKey core (32 * i.toNat)) 32)
    (toBytes 8 e.haddr.toNat ++ toBytes 8 e.ctrl.toNat ++ toBytes 8 e.regionWord.toNat ++ toBytes 8 0)

/-- The firing rule, with the XM of the firing's cause, which counts only with a firing that is counted (R122). -/
def Channel.fire (e : Channel) (xm : Bool) : Channel :=
  if e.armed && e.count = 0 then
    { e with pnum := if e.pnum = 255 then e.pnum else e.pnum + 1, loss := e.loss || e.pnum = 255, count := e.reload,
             armed := e.reload ≠ 0, xmbad := e.xmbad || (e.pnum ≠ 255 && xm != e.xm) }
  else e

/-- A selection or the end of an activation changes an entry, and the firing rule follows (R122). DESIGN CHOICE: a firing that it counts,
of an entry that CHBASE loaded armed at 0, has no cause in R122's words; here it has the channel's own XM (log 33). -/
def State.changeChan (s : State) (core : Nat) (i : BitVec 5) (e : Channel) : State := s.setChan core i (e.fire e.xm)

/-- A decrement reaches a channel (R122). -/
def Channel.decrement (e : Channel) (d : BitVec 16) (xm : Bool) : Channel :=
  { e with count := if d.toNat < e.count.toNat then e.count - d else 0 }.fire xm

/-- A decrement from another core waits with the channel for its firing (R127). -/
def Core.noteFar (c : Core) (ch : BitVec 5) (far : Bool) : Core := if far then { c with far := setBit32 c.far ch true } else c

/-- A counter message is applied at a core; slots in WFE see it (R90, R122). -/
def State.applyCounter (s : State) (core : Nat) (ch : BitVec 5) (d : BitVec 16) (xm far : Bool) : State :=
  ((s.modCore core fun c => c.noteFar ch far).setChan core ch (((s.core core).chan ch).decrement d xm)).modCore core Core.wakeAll

/-- Writes the live table, TOP and BOTTOM back to the area that CHBASE names (R120). -/
def State.storeTable (s : State) (core : Nat) : State :=
  let c := s.core core
  let es := c.ch.toList.flatMap fun e =>
    toBytes 8 e.haddr.toNat ++ toBytes 8 e.ctrl.toNat ++ toBytes 8 e.regionWord.toNat ++ toBytes 8 0
  (s.put (keysFrom (c.areaKey core 0) 1024) es).put (keysFrom (c.areaKey core 0x400) 16)
    (toBytes 8 c.top.toNat ++ toBytes 8 c.bottom.toNat)

/-- Loads the live table, TOP and BOTTOM from the area that CHBASE names (R120); who sent the decrements of its entries is not known, so that
their firings count as from another core (R157). -/
def State.loadTable (s : State) (core : Nat) : State :=
  let c := s.core core
  let w (o : Nat) : Word := BitVec.ofNat 64 (s.read (c.areaKey core o) 8)
  s.setCore core
    { c with ch := Vector.ofFn fun i => Channel.ofWords (w (32 * i.val)) (w (32 * i.val + 8)) (w (32 * i.val + 16)),
             top := w 0x400, bottom := w 0x408, far := BitVec.allOnes 32, farFired := BitVec.allOnes 32 }

/-! ## The deque (R135) -/

def Core.tasks (c : Core) : Nat := (c.bottom - c.top).toNat

/-- Key of the task entry of an index. -/
def Core.taskKey (c : Core) (core : Nat) (i : Word) : Nat := c.areaKey core (0x800 + 32 * (i.toNat % 64))

/-- Sets TOP and BOTTOM, written through. -/
def State.setDeque (s : State) (core : Nat) (top bottom : Word) : State :=
  let s := s.modCore core fun c => { c with top := top, bottom := bottom }
  s.put (keysFrom ((s.core core).areaKey core 0x400) 16) (toBytes 8 top.toNat ++ toBytes 8 bottom.toNat)

/-- A task entry (R135). -/
structure Task where
  entry : Word
  arg : Word
  info : Word
  range : Word
  deriving DecidableEq, Repr

/-- The third doubleword of a task entry (R135). -/
def taskInfo (joinCore : Nat) (joinCh : BitVec 5) (xm joinXm range : Bool) : Word :=
  BitVec.ofNat 64 (coordOf joinCore + joinCh.toNat * 2 ^ 19 + b2n xm * 2 ^ 24 + b2n joinXm * 2 ^ 25 + b2n range * 2 ^ 26)

def Task.bytes (t : Task) : List Byte :=
  toBytes 8 t.entry.toNat ++ toBytes 8 t.arg.toNat ++ toBytes 8 t.info.toNat ++ toBytes 8 t.range.toNat

def State.taskAt (s : State) (core : Nat) (i : Word) : Task :=
  let k := (s.core core).taskKey core i
  let w (o : Nat) : Word := BitVec.ofNat 64 (s.read (k + o) 8)
  ⟨w 0, w 8, w 16, w 24⟩

/-- Pushes a task at BOTTOM (R139). -/
def State.pushTask (s : State) (core : Nat) (t : Task) : State :=
  let c := s.core core
  (s.put (keysFrom (c.taskKey core c.bottom) 32) t.bytes).setDeque core c.top (c.bottom + 1)

def Task.isRange (t : Task) : Bool := t.info.getLsbD 26
def Task.low (t : Task) : Nat := (t.range.extractLsb' 0 32).toNat
def Task.high (t : Task) : Nat := (t.range.extractLsb' 32 32).toNat
def Task.joinCore (t : Task) : Nat := destCore t.info
def Task.joinCh (t : Task) : BitVec 5 := t.info.extractLsb' 19 5
def Task.xm (t : Task) : Bool := t.info.getLsbD 24
def Task.joinXm (t : Task) : Bool := t.info.getLsbD 25

def rangeWord (lo hi : Nat) : Word := BitVec.ofNat 64 (hi * 2 ^ 32 + lo)

/-! ## Activations (R18, R117 to R119) -/

/-- Every g and v register of a slot is full or poisoned (R18). -/
def Core.settledRegs (c : Core) (x : Slot) : Bool :=
  x.gt.toList.all (fun t => t ≠ .empty) &&
    ((List.range x.vcount).all fun i => c.tagV (x.vbase + i) ≠ .empty)

/-- A slot is free: no activation, no pending producer, no trap to deliver (R18, R117). -/
def State.free (s : State) (sl : SlotId) : Bool :=
  let x := s.slot sl
  x.act.isNone && (s.core sl.core).settledRegs x && x.settled && x.trap.isNone && x.wait = .ready &&
    !s.fencedCore sl.core

/-- Clears poison from the registers of a slot (R18). -/
def Core.clearPoison (c : Core) (x : Slot) : Core :=
  { c with vt := Vector.ofFn fun i =>
      if x.vbase ≤ i.val && i.val < x.vbase + x.vcount then .full else c.vt[i] }

/-- Starts an activation in a free slot (R18, R118) at an address whose bits [1:0] read 0 (R13), as an acquire where what started it came from
another core (R144, R157); a mismatch of XM traps before the first instruction (R67). -/
def State.start (s : State) (sl : SlotId) (act : Act) (pc g1 g2 g3 g4 : Word) (xm : Bool) (stage : Option (BitVec 8))
    (mismatch : Option Word) (far : Bool) : State :=
  let s := s.modCore sl.core fun c => c.clearPoison (c.slot sl.slot)
  let s := if far then s.dropLines sl.core else s
  let s := s.modSlot sl fun x =>
    { (({ x with gt := Vector.replicate 32 .full }.writeG 1 g1).writeG 2 g2 |>.writeG 3 g3 |>.writeG 4 g4) with
        vi := 0, fstat := if xm then 8 else 0, pc := pc &&& ~~~(3#64), act := some act, wait := .ready, stage := stage.getD x.stage,
        region := none }
  match mismatch with
  | some t => s.takeTrap sl cXMMISMATCH t
  | none => s

/-- Ends the activation of a slot (R119, R284): the starting channel is no longer BUSY, and what is still outstanding is no access of a
later activation (R329). -/
def State.endAct (s : State) (sl : SlotId) : State :=
  let x := s.slot sl
  let s := s.modSlot sl fun y =>
    { y.closeRegion.next with act := none, reqs := y.closeRegion.reqs.map fun r => { r with ended := true } }
  match x.act with
  | some a =>
    match a.src with
    | .channel c => s.changeChan sl.core c { (s.core sl.core).chan c with busy := false }
    | _ => s
  | none => s

/-- TVAL of XMMISMATCH (R40). -/
def xmTval (senderXm : Bool) (ch : BitVec 5) : Word := BitVec.ofNat 64 (b2n senderXm * 256 + ch.toNat)

/-- A handler address is legal for the context (R128). -/
def Ctx.legal (c : Ctx) (a : Word) : Bool :=
  c.tbndlo.toNat ≤ a.toNat && a.toNat ≤ c.tbndhi.toNat && a.extractLsb' 0 2 = 0

/-! ## Launches: posts and states (R228, R229) -/

def Desc.d0n (d : Desc) : Nat := (d.deps.extractLsb' 8 8).toNat
def Desc.d1n (d : Desc) : Nat := (d.deps.extractLsb' 24 8).toNat
def Desc.d0ch (d : Desc) : Nat := (d.deps.extractLsb' 0 8).toNat
def Desc.d1ch (d : Desc) : Nat := (d.deps.extractLsb' 16 8).toNat

/-- Adds a count to a brew channel or to a dependence channel of a context; both saturate (R228, R235). -/
def State.raise (s : State) (dep : Bool) (ctx : Nat) (ch : BitVec 8) (n : BitVec 16) : State :=
  let add (c : BitVec 16) : BitVec 16 := BitVec.ofNat 16 (min 65535 (c.toNat + n.toNat))
  if dep then s.modCtx ctx fun c => { c with dep := mset 0 c.dep ch.toNat (add (mget 0 c.dep ch.toNat)) }
  else { s with brew := { s.brew with chans := mset 0 s.brew.chans ch.toNat (add (mget 0 s.brew.chans ch.toNat)) } }

def Desc.tv (d : Desc) : Bool := d.deps.getLsbD 40
def Desc.tch (d : Desc) : BitVec 8 := d.deps.extractLsb' 32 8
def Desc.rv (d : Desc) : Bool := d.deps.getLsbD 56
def Desc.rch (d : Desc) : BitVec 8 := d.deps.extractLsb' 48 8

/-- The groups of a launch that have been placed. -/
def State.groupsOf (s : State) (num : Nat) : List Group := s.sched.groups.filter fun g => g.launch = num

/-- Sets the state of a launch. -/
def State.setLaunchSt (s : State) (num : Nat) (st : LaunchSt) : State :=
  { s with sched := { s.sched with launches := s.sched.launches.map fun l => if l.num = num then { l with st := st } else l } }

/-- A brew launch retires: its entry is retired, and the window is done with its last (R236). -/
def Brew.retire (b : Brew) (entry : Nat) : Brew :=
  if 256 ≤ entry then b
  else
    let states := mset 0 b.states entry 2
    let all := (List.range 256).all fun i => i < b.first || b.last < i || mget 0 states i = 2
    { b with states := states, done := b.done || (b.armed && b.last < b.head && all) }

/-- The transitions of a launch that its groups allow, with their posts: RUNNING, TRIGGERED, RETIRED (R229). -/
def State.settle (s : State) (num : Nat) : State :=
  match s.sched.launches.find? fun l => l.num = num with
  | none => s
  | some l =>
    let gs := s.groupsOf num
    if l.placed < l.desc.ngrp then s
    else
      let s := if l.st = .placing then s.setLaunchSt num .running else s
      if !gs.all fun g => g.triggered || g.exited then s
      else
        let s := if l.st = .triggered then s
          else
            let s := s.setLaunchSt num .triggered
            if l.desc.tv then s.raise true l.ctx l.desc.tch 1 else s
        if !gs.all fun g => g.exited then s
        else
          let s := if l.desc.rv then s.raise true l.ctx l.desc.rch 1 else s
          { s with
              sched := { s.sched with launches := s.sched.launches.filter (fun k => k.num ≠ num),
                                      groups := s.sched.groups.filter (fun g => g.launch ≠ num) },
              brew := match l.brew with | some (e, _) => s.brew.retire e | none => s.brew }

/-! ## Selection (R130, R131) -/

/-- The oldest queued active message of a channel. -/
def Core.oldest (c : Core) (ch : BitVec 5) : Option Msg := c.inq.find? fun m => m.dest.extractLsb' 19 5 = ch

/-- The sender of a message lies on another die or in a peer package (R131). -/
def crossDie (core : Nat) (m : Msg) : Bool :=
  m.launch.isNone && (m.fabric || (m.sender.extractLsb' 16 3).toNat ≠ dieOf core)

/-- Slot i may serve the channel now (R131). -/
def Core.mayServe (c : Core) (core : Nat) (i : Fin 4) (ch : BitVec 5) : Bool :=
  !(c.svc && i = 3) ||
    ((c.chan ch).pnum = 0 && match c.oldest ch with | some m => crossDie core m | none => false)

def Core.selectable (c : Core) (ch : BitVec 5) : Bool :=
  !(c.chan ch).mask && !(c.chan ch).busy && ((c.chan ch).pnum ≠ 0 || (c.oldest ch).isSome)

/-- The channels of priority p in the order of R130. -/
def Core.order (c : Core) (p : Fin 4) : List (BitVec 5) :=
  ((List.range 32).map fun k => c.last[p] + 1 + BitVec.ofNat 5 k).filter fun ch => (c.chan ch).prio.toNat = p.val

/-- What a free slot starts. -/
inductive Choice where
  | firing (c : BitVec 5)
  | message (c : BitVec 5)
  | pop
  | steal (victim : Nat)
  deriving DecidableEq, Repr

/-- The group of a core, by launch and number, if it belongs to one that has not exited. -/
def State.groupOf (s : State) (core : Nat) : Option Group :=
  s.sched.groups.find? fun g =>
    !g.exited && (s.core core).ctx = some g.ctx && coreAt g.die g.cluster g.first ≤ core && core < coreAt g.die g.cluster g.first + g.size

/-- The first core of the same group whose deque is not empty, ascending modulo 128 from the next (R136). -/
def State.victim (s : State) (core : Nat) : Option Nat :=
  match s.groupOf core with
  | none => none
  | some g =>
    ((List.range 127).map fun k => clusterBase core + (core % 128 + 1 + k) % 128).find? fun v =>
      (match s.groupOf v with | some h => h.launch = g.launch && h.idx = g.idx | none => false) && 0 < (s.core v).tasks

/-- What slot i of a core would start (R130). -/
def State.choose (s : State) (sl : SlotId) : Option Choice :=
  let c := s.core sl.core
  let chans := ([0, 1, 2, 3] : List (Fin 4)).flatMap c.order
  match chans.find? fun ch => c.selectable ch && c.mayServe sl.core sl.slot ch with
  | some ch => some (if (c.chan ch).pnum ≠ 0 then .firing ch else .message ch)
  | none =>
    if c.svc && sl.slot = 3 then none
    else if 0 < c.tasks then some .pop
    else (s.victim sl.core).map .steal

/-- The context of a core runs (R250). -/
def State.coreRuns (s : State) (core : Nat) : Bool :=
  match (s.core core).ctx with
  | some n => (s.ctx n).st = .running
  | none => false

/-- The slot that is filled next on a core and what it starts: the lowest free slot with a choice (R130). -/
def State.fill (s : State) (core : Nat) : Option (SlotId × Choice) :=
  if isControl core || !s.coreRuns core then none
  else (slotIds core).findSome? fun sl => if s.free sl then (s.choose sl).map fun ch => (sl, ch) else none

/-- The channel of priority p that was considered last (R130). -/
def Core.setLast (c : Core) (ch : BitVec 5) : Core :=
  { c with last := c.last.set (c.chan ch).prio.toNat ch (c.chan ch).prio.isLt }

end Sys2Proof.Machine
end

