-- ==== Sys2Proof/Machine/Msg.lean ====
section
/-!
DEFINITION. The MSG instructions (R132 to R134) and the TASK instructions (R138, R139).
-/

namespace Sys2Proof.Machine

/-! ## Sends (R133) -/

/-- The checks of a destination word (R133). -/
def destFault (s : State) (w : Word) : Option (BitVec 8 × Word) :=
  if w.extractLsb' 56 8 ≠ 0 || w.extractLsb' 32 8 ≠ 0 || w.extractLsb' 0 2 ≠ 0 || (!w.getLsbD 55 && w.extractLsb' 40 15 ≠ 0) then
    some (cACCESS, w)
  else if w.getLsbD 55 && w.extractLsb' 40 15 = s.fab.devno then some (cACCESS, w)
  else if !w.getLsbD 55 && (s.diemaxOf s.cur).toNat < (w.extractLsb' 16 3).toNat then
    some (cACCESS, (w.extractLsb' 16 3).setWidth 64)
  else if 99 < (w.extractLsb' 9 7).toNat then some (cACCESS, w)
  else none

/-- The keys of n bytes at pointer p in the scratchpad of the issuing core. -/
def ownKeys (s : State) (p : Word) (n : Nat) : List Nat := keysFrom (padKey s.cur.core (addr56 p - winAddr s.cur.core 0)) n

/-- A message body of n bytes at pointer p: 8-aligned, then in the scratchpad of the issuing core (R133). -/
def bodyBytes (s : State) (p : Word) (n : Nat) : Except (BitVec 8 × Word) (List Nat) :=
  match firstFault [failIf (!ptrOk p) cFMTFAULT p, failIf (addr56 p % 8 ≠ 0) cMISALIGN p,
      failIf (!ownPad s.cur.core (addr56 p) n) cACCESS p] with
  | some e => .error e
  | none => .ok (ownKeys s p n)

/-- A list of n bytes at pointer p: in the scratchpad of the issuing core, then 8-aligned (R208, R217, R285). -/
def ownBytes (s : State) (p : Word) (n : Nat) : Except (BitVec 8 × Word) (List Nat) :=
  match firstFault [failIf (!ptrOk p) cFMTFAULT p, failIf (!ownPad s.cur.core (addr56 p) (max n 1)) cACCESS p,
      failIf (addr56 p % 8 ≠ 0) cMISALIGN p] with
  | some e => .error e
  | none => .ok (ownKeys s p n)

/-- The words of a byte string. -/
def words32 : List Byte → List Word32
  | a :: b :: c :: d :: rest => BitVec.ofNat 32 (leNat [a, b, c, d]) :: words32 rest
  | _ => []

/-- Enqueues a message of the issuing slot; one to a peer is a remote access from here on, whose limit runs, and inside an open remote
region a remote operation of it (R281, R282). -/
def State.sendMsg (s : State) (m : Msg) : State :=
  if m.dest.getLsbD 55 then
    let n := s.nextReq
    (s.addReq .post false true).enqueue s.cur.core { m with region := some (s.cur, n) }
  else s.enqueue s.cur.core m

/-- The message that the issuing slot sends to the given cores, behind the stores that it makes visible (R127). -/
def State.message (s : State) (w : Word) (dec : Option (BitVec 16)) (body : List Word32) (targets : List Nat) : Msg :=
  { dest := w, sender := s.slotid s.cur, xm := s.me.xm, ctx := s.ctxOf s.cur, dec := dec, body := body, targets := targets,
    refused := false, fabric := false, launch := none, region := none, after := s.storesBefore s.cur }

/-- SEND and SENDB after their operands are read (R133): the body is read at issue. An empty set sends nothing, and so waits for no room in
the outbound queue (DEDUCED: log 34). -/
def sendBody (s : State) (w p : Word) (targets : List Nat) : Out :=
  match destFault s w with
  | some (c, t) => s.trap c t
  | none =>
    let n := (w.extractLsb' 24 8).toNat
    if n < 2 || 64 < n then s.trap cACCESS w
    else match bodyBytes s p (4 * n) with
      | .error (c, t) => s.trap c t
      | .ok keys =>
        if s.me.acquiring || s.me.waitsFor (addr56 p) (4 * n) then s.stall
        else if s.isPoisoned keys then s.trap cUNCORR (s.badLine (addr56 p) keys)
        else if targets = [] then s.done
        else if !s.outRoom then s.stall
        else (s.sendMsg (s.message w none (words32 (s.bytes keys)) targets)).done

/-- SEND: an active message whose body is read from the own scratchpad (R133). -/
def execSend (a b : Reg) (x y : Bool) (s : State) : Out :=
  withOperands s [srcA a x, srcB b y] [] (sendBody s (s.me.readG a) (s.me.readG b) [destCore (s.me.readG a)])

/-- SENDC: a counter message with decrement gb[15:0] (R133). -/
def execSendc (a b : Reg) (x y : Bool) (s : State) : Out :=
  withOperands s [srcA a x, srcB b y] [] (
    let w := s.me.readG a
    match destFault s w with
    | some (c, t) => s.trap c t
    | none =>
      if w.extractLsb' 24 8 ≠ 0 then s.trap cACCESS w
      else if !s.outRoom then s.stall
      else (s.sendMsg (s.message w (some ((s.me.readG b).extractLsb' 0 16)) [] [destCore w])).done)

/-- The members of a core set: core 8o + q where gm[o] and gm[16 + q] are 1 (R133). -/
def sendbCores (gm w : Word) : List Nat :=
  let base := coreAt (w.extractLsb' 16 3).toNat (w.extractLsb' 9 7).toNat 0
  ((List.range 128).filter fun k => gm.getLsbD (k / 8) && gm.getLsbD (16 + k % 8)).map (base + ·)

/-- SENDB: an active message to a set of cores of one cluster (R133). -/
def execSendb (d a b : Reg) (x y : Bool) (s : State) : Out :=
  withOperands s [srcD d, srcA a x, srcB b y] []
    (sendBody s (s.me.readG a) (s.me.readG b) (sendbCores (s.me.readG d) (s.me.readG a)))

/-! ## Ending an activation (R134) -/

/-- HRET: the activation ends and its channel is no longer BUSY (R134). -/
def execHret (s : State) : Out := .next (s.endAct s.cur)

/-- HYIELD: sets the starting channel's HADDR and ends the activation (R134). -/
def execHyield (a : Reg) (x : Bool) (s : State) : Out :=
  withOperands s [srcA a x] [] (
    let v := s.me.readG a
    if v.extractLsb' 0 2 ≠ 0 then s.trap cMISALIGN v
    else match s.me.act with
      | some { src := .channel c, .. } =>
        .next ((s.setChan s.cur.core c { s.myCore.chan c with haddr := v }).endAct s.cur)
      | _ => s.trap cACCESS v)

/-! ## Channel entries (R134) -/

/-- CHSET: reads and may write a field of a channel entry (R134). DESIGN CHOICE: R134 does not say whether a REGION value that breaks its
bounds traps when ga[15] keeps CHSET from writing it; here it is checked only where it is written (log 74). -/
def execChset (d a b : Reg) (x y : Bool) (s : State) : Out :=
  withOperands s [srcA a x, srcB b y] [.g d] (
    let ga := s.me.readG a
    let gb := s.me.readG b
    let c := ga.extractLsb' 0 5
    let e := s.myCore.chan c
    let ro := ga.getLsbD 15
    let write (e : Channel) (old : Word) : Out :=
      (if ro then s else s.setChan s.cur.core c (e.fire s.me.xm)).retireG d old
    match (ga.extractLsb' 8 2).toNat with
    | 0 => write { e with haddr := gb &&& ~~~(3#64) } e.haddr
    | 1 => write (e.setCtrl gb) e.ctrl
    | 2 =>
      let rlen := gb.extractLsb' 32 15
      let rbase := gb.extractLsb' 0 16
      if !ro && (gb.extractLsb' 0 2 ≠ 0 || 65536 < rbase.toNat + 4 * rlen.toNat) then s.trap cACCESS gb
      else write { e with rlen := rlen, rbase := rbase } e.regionWord
    | _ => s.trap cACCESS ga)

/-- The mask vector of a core: bit n is MASK of channel n (R134). -/
def Core.maskVector (c : Core) : Word :=
  BitVec.ofNat 64 ((List.range 32).foldl (fun v i => v + b2n (c.chan (BitVec.ofNat 5 i)).mask * 2 ^ i) 0)

/-- Masks and unmasks the channels of a list (R134). -/
def State.maskChans (s : State) (core : Nat) (on off : Word) : List Nat → State
  | [] => s
  | i :: rest =>
    let c := BitVec.ofNat 5 i
    let e := (s.core core).chan c
    (if off.getLsbD i then s.changeChan core c { e with mask := false }
      else if on.getLsbD i then s.changeChan core c { e with mask := true } else s).maskChans core on off rest

/-- CHMASK: masks the channels of ga, then unmasks those of gb (R134). -/
def execChmask (d a b : Reg) (x y : Bool) (s : State) : Out :=
  withOperands s [srcA a x, srcB b y] [.g d]
    ((s.maskChans s.cur.core (s.me.readG a) (s.me.readG b) (List.range 32)).retireG d s.myCore.maskVector)

/-- CHARM: sets COUNT, arms the channel and applies the firing rule (R134). -/
def execCharm (d a b : Reg) (x y : Bool) (s : State) : Out :=
  withOperands s [srcA a x, srcB b y] [.g d] (
    let c := (s.me.readG a).extractLsb' 0 5
    let gb := s.me.readG b
    let e := s.myCore.chan c
    let e' := { e with count := if gb.getLsbD 16 then e.reload else gb.extractLsb' 0 16, armed := true }
    (s.setChan s.cur.core c (e'.fire s.me.xm)).retireG d (e.count.setWidth 64))

/-! ## Tasks (R139) -/

/-- The join of the slot's activation and the expected XM of its channel (R139). -/
def State.join (s : State) : Nat × BitVec 5 × Bool :=
  match s.me.act with
  | some { src := .task core ch xm, .. } => (core, ch, xm)
  | _ => (s.cur.core, s.me.joinch, (s.myCore.chan s.me.joinch).xm)

/-- Every earlier store of the slot is visible on its die, where the task runs (R127, R139). -/
def Slot.storesSeen (x : Slot) : Bool := x.reqs.all fun r => !r.kind.isStore || (match r.kind with | .vst ws => ws = [] | _ => false)

/-- FORK: pushes a plain task whose join is this core and JOINCH (R139). -/
def execFork (d a b : Reg) (x y : Bool) (s : State) : Out :=
  withOperands s [srcA a x, srcB b y] [.g d] (
    let ga := s.me.readG a
    if ga.extractLsb' 0 2 ≠ 0 then s.trap cMISALIGN ga
    else if !s.me.storesSeen then s.stall
    else if 64 ≤ s.myCore.tasks then s.retireG d 0
    else
      let j := s.me.joinch
      let t : Task := ⟨ga, s.me.readG b, taskInfo s.cur.core j s.me.xm (s.myCore.chan j).xm false, 0⟩
      (s.pushTask s.cur.core t).retireG d 1)

/-- REJOIN: deposits the range gb[31:0] to gb[63:32] with the activation's join (R139). -/
def execRejoin (d a b : Reg) (x y : Bool) (s : State) : Out :=
  withOperands s [srcD d, srcA a x, srcB b y] [.g d] (
    let ga := s.me.readG a
    let gb := s.me.readG b
    if ga.extractLsb' 0 2 ≠ 0 then s.trap cMISALIGN ga
    else if !s.me.storesSeen then s.stall
    else if (gb.extractLsb' 32 32).toNat ≤ (gb.extractLsb' 0 32).toNat || 64 ≤ s.myCore.tasks then s.retireG d 0
    else
      let j := s.join
      (s.pushTask s.cur.core ⟨ga, s.me.readG d, taskInfo j.1 j.2.1 s.me.xm j.2.2 true, gb⟩).retireG d 1)

/-- TASKEND: a counter message to the activation's join, then the end of the activation, which waits for no store (R119, R139). DEDUCED: a
recorded join on a die above DIEMAX, of a task entry that CHBASE loaded or that was saved before a renumbering, is no word of the
instruction (R9); the message is sent, and dropped with a record as one to a core that the context does not hold (R124; log 75). -/
def execTaskend (a : Reg) (x : Bool) (s : State) : Out :=
  withOperands s [srcA a x] [] (
    if !s.outRoom then s.stall
    else
      let e := (s.me.readG a).extractLsb' 0 16
      let j := s.join
      let w : Word := BitVec.ofNat 64 (coordOf j.1 + j.2.1.toNat * 2 ^ 19)
      .next ((s.enqueue s.cur.core (s.message w (some (if e = 0 then 1 else e)) [] [j.1])).endAct s.cur))

/-- TRIG: marks the activation's group triggered, as a release at package scope: of the slot's own accesses, and of what its group has performed
on the die (R139, R229). -/
def execTrig (s : State) : Out :=
  if !s.ordered 4 then s.stall
  else
    match s.me.act with
    | some { launch := some (l, g), .. } =>
        ({ s with sched := { s.sched with
            groups := s.sched.groups.map fun (h : Group) => if h.launch = l && h.idx = g then { h with triggered := true } else h } }.settle l).done
    | _ => s.done

/-- JOINCH: swaps the slot's join channel (R139). -/
def execJoinch (d a : Reg) (x : Bool) (s : State) : Out :=
  withOperands s [srcA a x] [.g d]
    (s.retire fun t => { t.writeG d (t.joinch.setWidth 64) with joinch := (t.readG a).extractLsb' 0 5 })

end Sys2Proof.Machine
end

