-- ==== Sys2Proof/Machine/Sync.lean ====
section
/-!
DEFINITION. The SYNC family: fences (R156, R163), WAITC (R164) and remote regions (R282, R283).
-/

namespace Sys2Proof.Machine

/-- A fence at cluster scope or wider with an acquire invalidates the data cache; .I discards fetched words, and at core scope or wider lets
earlier stores reach fetch (R31, R36, R156). DESIGN CHOICE: R31 and R163 name no scope for the discard, which here takes place at every
scope (log 8). -/
def State.fenced (s : State) (scope : BitVec 3) (acquire release fetched : Bool) : State :=
  let s := if acquire && 2 ≤ scope.toNat then s.dropLines s.cur.core else s
  let s := if fetched then s.dropFetched s.cur.core else s
  s.fencePast s.cur.core scope.toNat fetched release

/-- FENCE acquire: waits until every earlier load has its value (R156). -/
def execFenceAcq (scope : BitVec 3) (i : Bool) (s : State) : Out :=
  if !s.me.loadsDone then s.stall else (s.fenced scope true false i).done

/-- A release beyond the die: the stores of other slots that the die's slices hold, and that the slot may have read, come before its later
stores (R155, R156). -/
def State.setReleased (s : State) (scope : BitVec 3) : State :=
  if scope.toNat < 4 then s
  else s.modMe fun x => { x with rel := (s.slices.filter fun e => dieOf e.sl.core = dieOf s.cur.core).map (·.num) }

/-- FENCE release: waits until every earlier access of the slot is performed at the scope (R156). -/
def execFenceRel (scope : BitVec 3) (i : Bool) (s : State) : Out :=
  if !s.me.performedAt scope.toNat then s.stall else ((s.setReleased scope).fenced scope false true i).done

/-- FENCE full: acquire and release, with the slot's stores before its later loads (R156). -/
def execFenceFull (scope : BitVec 3) (i : Bool) (s : State) : Out :=
  if !s.me.loadsDone || !s.me.performedAt scope.toNat then s.stall else ((s.setReleased scope).fenced scope true true i).done

/-- FENCESC: full; and every store that the slot may have read is performed at the scope before it goes on (R156). -/
def execFencesc (scope : BitVec 3) (s : State) : Out :=
  if !s.me.loadsDone || !s.ordered scope.toNat then s.stall else (s.fenced scope true true false).done

/-- RBEGIN: opens a remote region with a checkpoint of g1 to g31 (R282). -/
def execRbegin (d : Reg) (s : State) : Out :=
  withOperands s [] [.g d] (
    if s.me.region.isSome then s.trap cACCESS s.me.pc
    else if s.me.gt.toList.any (fun t => t = .empty) then s.stall
    else
      s.retire fun x =>
        let y := x.writeG d 0
        { y with region := some ⟨d, x.pc + 4, y.g, y.gt, none⟩ })

/-- RCOMMIT: waits until every remote operation of the region has completed, then closes it (R282). -/
def execRcommit (s : State) : Out :=
  match s.me.region with
  | none => s.done
  | some g =>
    if s.me.reqs.any (fun r => r.region) || g.failed.isSome then s.stall
    else s.retire fun x => { x with region := none }

/-- The slot is at an instruction boundary: nothing it issued holds it there, a wait on a tag of its own package apart (R85, R87, R148,
R261). -/
def Slot.atBoundary (x : Slot) : Bool :=
  match x.wait with
  | .ready | .retry | .wfe _ => true
  | _ => false

/-- A region ends by its limit: what of it is still outstanding reports no failure any more (R283). -/
def Slot.quietRegion (x : Slot) : Slot :=
  { x with region := none, reqs := x.reqs.map fun r => { r with region := false, quiet := r.quiet || r.region } }

/-- Producers of a slot that have not landed by the limit are given up: their operations leave the queues they wait in (R283; log 35). -/
def State.dropProducers (s : State) (sl : SlotId) : State :=
  let gone := (s.slot sl).reqs.filter Req.producer
  let s := { s with waiters := s.waiters.filter fun w => !(w.sl = sl && gone.any fun r => r.num = w.req) }
  let s := s.modCore sl.core fun c => gone.foldl (fun c r => c.release r.kind) c
  s.modSlot sl fun x => { gone.foldl (fun y r => y.release r.kind) x with reqs := x.reqs.filter fun r => !r.producer }

/-- A failed region restores its checkpoint at an instruction boundary, once every remote operation of it and every producer of the slot
has settled, which TLIM bounds, and goes on at rpc with the code in gd of the RBEGIN (R283). While its context is being saved the
rollback is left for resume (R284). -/
def State.rollBack (s : State) (sl : SlotId) : State :=
  let x := s.slot sl
  match x.region with
  | some ⟨rd, rpc, g, gt, some (code, since)⟩ =>
    let settled := !(x.reqs.any fun r => r.region) && x.settled
    if !x.atBoundary || (s.ctx (s.ctxOf sl)).st = .saving || !(settled || since + s.fab.tlim ≤ s.time) then s
    else
      let s := s.dropProducers sl
      s.modSlot sl fun x =>
        let y := x.quietRegion
        { ({ y with g := g, gt := gt } : Slot).writeG rd (code.setWidth 64) with pc := rpc, wait := .ready }
  | _ => s

/-- RABORT: rolls the open region back with ga[15:0] (R282). -/
def execRabort (a : Reg) (x : Bool) (s : State) : Out :=
  withOperands s [srcA a x] [] (
    let ga := s.me.readG a
    match s.me.region with
    | none => s.trap cACCESS ga
    | some g =>
      if (ga.extractLsb' 0 16).toNat < 0x100 then s.trap cACCESS ga
      else
        let g' : Region := { g with failed := g.failed <|> some (ga.extractLsb' 0 16, s.time) }
        .next ((s.modMe fun t => { t with region := some g', wait := .ready }).rollBack s.cur))

/-- WAITC: waits while the counter is at or above the threshold; then an acquire at package scope (R164). -/
def execWaitc (c : BitVec 4) (a : Reg) (_ : Bool) (s : State) : Out :=
  withOperands s [.g a 1 false] [] (
    if (s.me.readG a).toNat ≤ (s.me.counter c).toNat then s.stall
    else ((s.dropLines s.cur.core).modMe Slot.acquire).done)

end Sys2Proof.Machine
end

