-- ==== Sys2Proof/Machine/Sys.lean ====
section
/-!
DEFINITION. The SYS family: the control and status registers (R37 to R39, R83 and the field maps of each), service requests
(R89, R256), ERET (R249), UPRET (R88) and WFE (R90). ROUTLD stands with the Carafe.
-/

namespace Sys2Proof.Machine

/-! ## Which numbers are registers (R37, R246, R276, R294, R298, R308) -/

/-- A CSR number below 0x800 that is assigned. -/
def userCsr (n : Nat) : Bool :=
  (1 ≤ n && n ≤ 0x1F) || n = 0x20 || n = 0x30 || n = 0x31 || n = 0x40 || n = 0x80 || n = 0x90

/-- A kernel CSR number that is assigned. -/
def kernelCsr (n : Nat) : Bool := (0x800 ≤ n && n ≤ 0x80D) || (0x810 ≤ n && n ≤ 0x814)

/-- Registers that a write may not name (R34). -/
def readOnlyCsr (n : Nat) : Bool :=
  n = 2 || n = 6 || n = 7 || (0x10 ≤ n && n ≤ 0x1F) || n = 0x30 || n = 0x31 || n = 0x40 || n = 0x90 || n = 0x803 || n = 0x805
    || n = 0x80C

/-! ## Views -/

/-- The context owns the brew table (R235). -/
def State.ownsBrew (s : State) (ctx : Nat) : Bool := (s.ctx ctx).brewown

/-- DIEMAPV (R248). -/
def State.diemapv (s : State) : Word :=
  BitVec.ofNat 64 (((s.repair.diemap.toList.zip (List.range 8)).foldl
    (fun a p => a + (b2n p.1.1 * 8 + p.1.2.toNat) * 16 ^ p.2) 0))

/-- This package has a master to align to: itself, or SRC (R308). -/
def Repair.aligned (r : Repair) : Bool := r.timectl.getLsbD 0 || r.timectl.getLsbD 47

/-- TIMEOK: there is a bound, and a chain to the master (R309). -/
def Repair.timeok (r : Repair) : Bool := r.aligned && r.skew ≠ 0xFFFFFFFF

/-- EVAC: a page of a retired stack is still mapped (R298). -/
def Repair.evac (r : Repair) : Bool := r.lostMaps ≠ []

/-- REROUTE: traffic of a failed link goes round (R298, R305). -/
def Repair.reroute (r : Repair) : Bool := r.rerouted ≠ []

/-- DEVSTAT (R298). -/
def Repair.devstat (r : Repair) : Word :=
  BitVec.ofNat 64 (r.logdrop.toNat * 2 ^ 48 + r.diegen.toNat * 2 ^ 32 + b2n r.timeok * 8 + b2n r.reroute * 4 + b2n r.evac * 2
    + b2n r.service)

/-- The SCHEDCMD status word (R250). -/
def Sched.status (c : Sched) : Word := BitVec.ofNat 64 (b2n c.busy * 2 ^ 63 + c.cmdCtx.toNat * 2 ^ 8 + c.result.toNat)

/-- The engine state of a context on the octet of a slot. -/
def engKey (octet ctx : Nat) : Nat := octet * 64 + ctx
def State.eng (s : State) (octet ctx : Nat) : EngCtx := mget EngCtx.init s.engs (engKey octet ctx)
def State.setEng (s : State) (octet ctx : Nat) (e : EngCtx) : State := { s with engs := mput s.engs (engKey octet ctx) e }

/-- CHBASE of a core (R120). -/
def Core.chbase (c : Core) : Word := BitVec.ofNat 64 (b2n c.svc * 2 ^ 16 + c.area.toNat * 2 ^ 12)

/-- OUTST of a core (R39). -/
def Core.outstWord (c : Core) : Word := BitVec.ofNat 64 (c.limit.toNat * 256 + c.outst % 256)

/-- The value of a CSR as a slot reads it. -/
def State.readCsr (s : State) (sl : SlotId) (n : Nat) : Word :=
  let x := s.slot sl
  let c := s.core sl.core
  let k := s.ctx (s.ctxOf sl)
  match n with
  | 0x001 => x.fstat.setWidth 64
  | 0x002 => s.slotid sl
  | 0x003 => x.stage.setWidth 64
  | 0x004 => x.valloc.setWidth 64
  | 0x005 => x.vi.signExtend 64
  | 0x006 => k.tbndlo
  | 0x007 => k.tbndhi
  | 0x008 => x.upvec
  | 0x009 => x.upsave
  | 0x00A => x.tcause.setWidth 64
  | 0x00B => x.tval
  | 0x00C => x.tpc
  | 0x00D => c.outstWord
  | 0x00E => x.rngseed.setWidth 64
  | 0x00F => x.joinch.setWidth 64
  | 0x020 => c.chbase
  | 0x030 => BitVec.ofNat 64 s.time
  | 0x031 => s.repair.skew.setWidth 64
  | 0x040 => boolWord (s.eng (octetOf sl.core) (s.ctxOf sl)).bank
  | 0x080 => k.rowlost
  | 0x090 => if s.ownsBrew (s.ctxOf sl) then s.brew.up + s.brew.down + s.brew.res else 0
  | 0x800 => x.ctxid.setWidth 64
  | 0x801 => k.ptroot
  | 0x802 => (mget 512 s.crema.psel (s.ctxOf sl)).setWidth 64
  | 0x803 => s.diemapv
  | 0x804 => s.repair.elogbase
  | 0x805 => s.repair.eloghead
  | 0x806 => s.repair.elogtail
  | 0x807 => x.kvec
  | 0x808 => x.ktpc
  | 0x809 => x.kcause
  | 0x80A => x.ktval
  | 0x80B => s.sched.status
  | 0x80C => s.sched.ctxtab
  | 0x80D => x.xinv
  | 0x810 => s.fab.grantbase
  | 0x811 => s.fab.grantcmd
  | 0x812 => s.repair.errwin.setWidth 64
  | 0x813 => s.repair.devstat
  | 0x814 => s.repair.timectl
  | n => if 0x10 ≤ n && n ≤ 0x1F then (x.counter (BitVec.ofNat 4 n)).setWidth 64 else 0

/-! ## Writes -/

/-- What a write to a CSR does: the state after it, a trap, or a wait at step 5 of R17. -/
inductive CsrWrite where
  | ok (s : State)
  | illegal
  | trap (cause : BitVec 8) (tval : Word)
  | wait
  /-- A wait in which the command has begun (R276). -/
  | begun (s : State)

/-- A write to VALLOC (R20): the checks in order, then the registers new to the range read 0 and are full. -/
def State.writeValloc (s : State) (sl : SlotId) (v : Word) : CsrWrite :=
  let base := (v.extractLsb' 0 8).toNat
  let count := (v.extractLsb' 8 8).toNat
  let x := s.slot sl
  let c := s.core sl.core
  if base % 4 ≠ 0 || count % 4 ≠ 0 || 128 < base + count || 124 < base then .illegal
  else if (slotIds sl.core).any (fun o => o ≠ sl && count ≠ 0 && (c.slot o.slot).vcount ≠ 0 && overlaps base count (c.slot o.slot).vbase (c.slot o.slot).vcount) then
    .trap cACCESS v
  else if (List.range x.vcount).any (fun i => c.tagV (x.vbase + i) = .empty) then .wait
  else
    let fresh := (keysFrom base count).filter fun i => i < x.vbase || x.vbase + x.vcount ≤ i
    let s := s.modCore sl.core fun c => fresh.foldl (fun c i => c.writeV i (Vector.replicate 16 0)) c
    .ok (s.modSlot sl fun x => { x with valloc := v.setWidth 16 })

/-- A write to CHBASE (R120): the live table goes back to the old area and is loaded from the new one. -/
def State.writeChbase (s : State) (sl : SlotId) (v : Word) : CsrWrite :=
  if (slotIds sl.core).any (fun o => o ≠ sl && (s.slot o).act.isSome) then .trap cACCESS v
  else .ok (((s.storeTable sl.core).modCore sl.core fun c => { c with area := v.extractLsb' 12 4 }).loadTable sl.core)

/-- First address and size of the range that a write to XINV names (R255). -/
def xinvRange (v : Word) : Nat × Nat :=
  let size := match (v.extractLsb' 14 2).toNat with | 0 => 2 ^ 16 | 1 => 2 ^ 21 | 2 => 2 ^ 30 | _ => 2 ^ 55
  ((v.extractLsb' 16 39).toNat * 65536 / size * size, size)

/-- The local bytes of a request that was translated at issue and is not performed yet: vector accesses and accesses that
wait on a tag (R107, R160). LDN and ST are translated when they are performed. -/
def ReqKind.translated : ReqKind → List (Nat × Nat)
  | .load _ z ea _ => [(ea.toNat, szBytes z)]
  | .store z ea _ => [(ea.toNat, szBytes z)]
  | .ldn .. | .st .. | .chain .. | .ship .. => []
  | k => k.spans

/-- The context whose translations an access under a CTXID uses (R247). -/
def transCtx (core : Nat) (ctxid : BitVec 7) : Option Nat :=
  if isControl core && ctxid.getLsbD 6 then none else some (ctxid.toNat % 64)

/-- An access translated inside the range is not performed yet (R255). -/
def State.xinvBusy (s : State) (v : Word) : Bool :=
  let ctx := (v.extractLsb' 0 6).toNat
  let r := xinvRange v
  (s.cores.any fun p => (slotIds p.1).any fun sl => (s.slot sl).reqs.any fun q =>
    transCtx p.1 q.ctxid = some ctx && q.kind.translated.any fun b => overlaps b.1 b.2 r.1 r.2) ||
  (s.slices.any fun e => e.ctx = ctx && overlaps e.ea e.bytes.length r.1 r.2) ||
  s.waiters.any fun w => match w.kind with | .peer _ _ c va | .job c va => c = ctx && overlaps va w.n r.1 r.2 | _ => false

/-- A write to XINV: the slices drop the translations of the context that overlap the range (R255). -/
def State.invalidate (s : State) (v : Word) : State :=
  let ctx := (v.extractLsb' 0 6).toNat
  let r := xinvRange v
  let xs := s.xlats.filter fun x => x.ctx ≠ ctx || !overlaps r.1 r.2 x.va x.size
  { s with xlats := xs }

/-- A field mask of a register. -/
def maskBits (v : Word) (m : Nat) : Word := v &&& BitVec.ofNat 64 m

/-- The end of a scheduler command: status and interrupt 3 (R249, R250). -/
def State.finishCmd (s : State) (result : BitVec 8) : State :=
  let s := { s with sched := { s.sched with busy := false, result := result } }
  s.interrupt 0 3 s.sched.status

/-- A PREEMPT of a running context is a request to halt from here on (R4, R260). -/
def State.requestHalt (s : State) : State :=
  if s.sched.cmd = 3 && (s.ctx s.sched.cmdCtx.toNat).st = .running then s.modCtx s.sched.cmdCtx.toNat fun c => { c with haltAt := s.time } else s

/-- A write to SCHEDCMD (R250): a command waits for the scheduler, which runs it as a step of its own. -/
def State.writeSchedcmd (s : State) (v : Word) : CsrWrite :=
  if s.sched.busy then .wait
  else
    let op := v.extractLsb' 0 4
    let s := { s with sched := { s.sched with cmdCtx := v.extractLsb' 8 6, cmd := op } }
    if v.extractLsb' 4 4 ≠ 0 || v.extractLsb' 14 50 ≠ 0 then .ok (s.finishCmd 4)
    else if op.toNat < 1 || 4 < op.toNat then .ok (s.finishCmd 1)
    else .ok { s with sched := { s.sched with busy := true } }.requestHalt

/-- The grant entry of an index, read from the table (R275). -/
def State.readGrant (s : State) (i : Nat) : Option Grant :=
  let k := s.fab.grantbase.toNat + 32 * i
  let d0 := s.read k 8
  if bit d0 63 then
    some { recalled := false, msg := bit d0 62, brew := bit d0 61, w := bit d0 60, r := bit d0 59, gdev := BitVec.ofNat 15 (d0 / 2 ^ 32),
           ctx := BitVec.ofNat 6 d0, wlo := s.read (k + 8) 8 % 2 ^ 40, whi := s.read (k + 16) 8 % 2 ^ 40,
           vabase := s.read (k + 24) 8 % 2 ^ 55 }
  else none

/-- GRANTCMD LOAD: the entry becomes the device's copy (R276). -/
def State.loadGrant (s : State) (i : Nat) : State :=
  { s with fab := { s.fab with grants := match s.readGrant i with | some g => mput s.fab.grants i g | none => mdel s.fab.grants i } }

/-- An access accepted under a grant entry waits, or its answer has not left the package (R276). -/
def State.grantBusy (s : State) (i : Nat) : Bool :=
  (s.waiters.any fun w => match w.kind with | .peer _ e _ _ => e = i | _ => false) ||
    s.fab.queue.any fun f => match f.body with | .reply _ _ (some e) => e = i | _ => false

/-- GRANTCMD RECALL: the entry accepts nothing more, and the device's copy is invalid once nothing is left under it (R276). -/
def State.recallGrant (s : State) (i : Nat) : State :=
  let left := s.fab.grants.map fun p => if p.1 = i then (i, { p.2 with recalled := true }) else p
  { s with fab := { s.fab with grants := if s.grantBusy i = true then left else mdel s.fab.grants i } }

/-- The command that GRANTCMD ran is complete (R276). -/
def State.endGrant (s : State) (v : Word) : State := { s with fab := { s.fab with grantcmd := maskBits v 0x3FF, grantRun := none } }

/-- A command of GRANTCMD begins; a RECALL that must wait leaves BUSY 1 while its slot repeats the write (R276). -/
def State.beginGrant (s : State) (sl : SlotId) (v : Word) : CsrWrite :=
  let i := (v.extractLsb' 0 8).toNat
  match (v.extractLsb' 8 2).toNat with
  | 0 => .ok ((s.loadGrant i).endGrant v)
  | 1 =>
    let t := s.recallGrant i
    if s.grantBusy i then
      .begun { t with fab := { t.fab with grantcmd := maskBits v 0x3FF ||| (1 : Word) <<< 63, grantRun := some (sl, s.fab.grantcmd) } }
    else .ok (t.endGrant v)
  | _ => .illegal

/-- A write to GRANTCMD (R276): one command runs at a time. -/
def State.writeGrantcmd (s : State) (sl : SlotId) (v : Word) : CsrWrite :=
  match s.fab.grantRun with
  | none => s.beginGrant sl v
  | some (o, _) =>
    let runs := s.fab.grantcmd
    let i := (runs.extractLsb' 0 8).toNat
    if o ≠ sl || s.grantBusy i then .wait
    else
      let t := (s.recallGrant i).endGrant runs
      if v.extractLsb' 0 10 = runs.extractLsb' 0 10 then .ok t else t.beginGrant sl v

/-- A physical address in a retired DRAM stack. -/
def State.lostStack (s : State) (pa : Nat) : Bool := s.repair.retired.contains (.dramStack (pa / 2 ^ 37 % 8))

/-- The pages below a table that map into a retired stack, as virtual address and size (R252, R298). -/
def State.lostPages (s : State) : Nat → Nat → List (Nat × Nat) → List (Nat × Nat)
  | _, _, [] => []
  | table, va, (sh, w) :: rest =>
    (List.range (2 ^ w)).flatMap fun i =>
      let e := s.read (table + 8 * i) 8
      let pa := e / 256 % 2 ^ 32 * 256
      let va := va + i * 2 ^ sh
      if !bit e 0 then [] else if bit e 1 then (if s.lostStack pa then [(va, 2 ^ sh)] else []) else s.lostPages pa va rest

/-- The pages of a context that map into a retired stack, by its table. -/
def State.lostOf (s : State) (ctx : Nat) : List (Nat × Nat × Nat) :=
  if (s.ctx ctx).st = .free then [] else (s.lostPages (s.ctx ctx).ptroot.toNat 0 levels).map fun p => (ctx, p)

/-- The pages of every context that map into a retired stack: by its table, or by a translation not yet dropped (R298). -/
def State.allLost (s : State) : List (Nat × Nat × Nat) :=
  (s.ctxs.flatMap fun c => s.lostOf c.1) ++
    (s.xlats.filter fun x => s.lostStack x.pa).map fun x => (x.ctx, x.va, x.size)

/-- Some DRAM stack is retired. -/
def Repair.stackGone (r : Repair) : Bool := r.retired.any fun u => match u with | .dramStack _ => true | _ => false

/-- An XINV brings the pages of its context in its range up to the table as it stands (R298). -/
def State.updateEvac (s : State) (v : Word) : State :=
  if !s.repair.stackGone then s
  else
    let ctx := (v.extractLsb' 0 6).toNat
    let r := xinvRange v
    let inside (p : Nat × Nat × Nat) : Bool := p.1 = ctx && overlaps r.1 r.2 p.2.1 p.2.2
    { s with repair := { s.repair with
        lostMaps := (s.repair.lostMaps.filter fun p => !inside p) ++ (s.lostOf ctx).filter inside } }

/-- A write of TIMECTL that names another master leaves no bound until an exchange with it. DESIGN CHOICE: R308 gives SKEW no value at such
a write (log 4). -/
def Repair.setTimectl (r : Repair) (v : Word) : Repair :=
  let same := v &&& ~~~(0xFFFFF000#64) = r.timectl &&& ~~~(0xFFFFF000#64)
  { r with timectl := v, skew := if same then r.skew else 0xFFFFFFFF, pendSkew := if same then r.pendSkew else none }

/-- PTROOT of CTXID: the write updates the table entry too (R246). -/
def State.writePtroot (s : State) (ctx : Nat) (v : Word) : State :=
  (s.write (s.sched.ctxtab.toNat + 256 * ctx + 8) 8 v.toNat).modCtx ctx fun c => { c with ptroot := v }

/-- Writes a CSR (R37, R83 and the field maps). -/
def State.writeCsr (s : State) (sl : SlotId) (n : Nat) (v : Word) : CsrWrite :=
  let slot (f : Slot → Slot) : CsrWrite := .ok (s.modSlot sl f)
  let rep (f : Repair → Repair) : CsrWrite := .ok { s with repair := f s.repair }
  match n with
  | 0x001 => if 5 ≤ v.toNat % 8 then .illegal else slot fun x => { x with fstat := v.setWidth 10 }
  | 0x003 => slot fun x => { x with stage := v.setWidth 8 }
  | 0x004 => s.writeValloc sl v
  | 0x005 => slot fun x => { x with vi := v.setWidth 8 }
  | 0x008 => slot fun x => { x with upvec := v &&& ~~~(2#64) }
  | 0x009 => if v.extractLsb' 0 6 ≠ 0 then .illegal else slot fun x => { x with upsave := v }
  | 0x00A => slot fun x => { x with tcause := v.setWidth 8 }
  | 0x00B => slot fun x => { x with tval := v }
  | 0x00C => if v.extractLsb' 0 2 ≠ 0 then .illegal else slot fun x => { x with tpc := v }
  | 0x00D =>
    let l := v.extractLsb' 8 8
    if l = 0 || 64 < l.toNat then .illegal else .ok (s.modCore sl.core fun c => { c with limit := l })
  | 0x00E => slot fun x => { x with rngseed := if v.extractLsb' 0 16 = 0 then 1 else v.setWidth 16 }
  | 0x00F => slot fun x => { x with joinch := v.setWidth 5 }
  | 0x020 => s.writeChbase sl v
  | 0x080 => .ok (s.modCtx (s.ctxOf sl) fun c => { c with rowlost := v })
  | 0x800 => slot fun x => { x with ctxid := v.setWidth 7 }
  | 0x801 => .ok (s.writePtroot (s.ctxOf sl) v)
  | 0x802 => .ok { s with crema := { s.crema with psel := mset 512 s.crema.psel (s.ctxOf sl) (v.setWidth 10) } }
  | 0x804 =>
    let l := v.toNat % 16
    if l = 0 || 6 ≤ l then rep fun r => { r with elogbase := maskBits v 0xFFFFFFF00F } else .illegal
  | 0x806 => rep fun r => { r with elogtail := v }
  | 0x807 => slot fun x => { x with kvec := v &&& ~~~(2#64) }
  | 0x808 => slot fun x => { x with ktpc := v }
  | 0x809 => slot fun x => { x with kcause := maskBits v (2 ^ 63 + 255) }
  | 0x80A => slot fun x => { x with ktval := v }
  | 0x80B => s.writeSchedcmd v
  | 0x80D => if s.xinvBusy v then .wait else .ok (((s.invalidate v).updateEvac v).modSlot sl fun x => { x with xinv := maskBits v (2 ^ 55 - 2 ^ 14 + 63) })
  | 0x810 => .ok { s with fab := { s.fab with grantbase := maskBits v (2 ^ 40 - 2 ^ 13) } }
  | 0x811 => s.writeGrantcmd sl v
  | 0x812 =>
    let w := v.toNat % 2 ^ 32
    if w < 1000 || 60000000 < w then .illegal else rep fun r => { r with errwin := v.setWidth 32 }
  | 0x813 => rep fun r => { r with logdrop := v.extractLsb' 48 16 }
  | 0x814 =>
    let t := (v.extractLsb' 12 20).toNat
    if t < 100 || 10000 < t then .illegal else rep fun r => r.setTimectl (maskBits v (2 ^ 48 - 2 ^ 12 + 1))
  | _ => .illegal

/-! ## The instructions (R83) -/

/-- The word of a SYS instruction with a csr field. -/
def sysWord (fn : Nat) (d a : Reg) (c : BitVec 12) : BitVec 32 :=
  BitVec.ofNat 32 (0x27 * 2 ^ 26 + d.toNat * 2 ^ 21 + a.toNat * 2 ^ 16 + c.toNat * 16 + fn)

/-- The access is no instruction for this slot: an unassigned number, or a write to a read-only register (R34). A kernel number
is no matter of decode on a compute core (R37). -/
def csrIllegal (s : State) (c : BitVec 12) (write : Bool) : Bool :=
  if 0x800 ≤ c.toNat then
    isControl s.cur.core && (!kernelCsr c.toNat || (write && readOnlyCsr c.toNat))
  else !userCsr c.toNat || (write && readOnlyCsr c.toNat)

/-- Kernel CSRs are for control cores (R37). -/
def csrDenied (s : State) (c : BitVec 12) : Bool := 0x800 ≤ c.toNat && !isControl s.cur.core

/-- What CSRW, CSRS and CSRC read: a GRANTCMD that waited for its command read it when the command began (R276). -/
def State.oldCsr (s : State) (n : Nat) : Word :=
  match s.fab.grantRun with
  | some (sl, old) => if n = 0x811 && sl = s.cur then old else s.readCsr s.cur n
  | none => s.readCsr s.cur n

/-- CSRR: gd := CSR (R83). -/
def execCsrr (d : Reg) (c : BitVec 12) (s : State) : Out :=
  if csrIllegal s c false then s.illegal (sysWord 0 d 0 c)
  else withOperands s [] [.g d] (
    if csrDenied s c then s.trap cACCESS (c.setWidth 64)
    else
      s.retireG d (s.readCsr s.cur c.toNat))

/-- CSRW, CSRS and CSRC: gd := the old value; the CSR takes f of the old value and ga (R83). -/
def csrForm (fn : Nat) (d a : Reg) (c : BitVec 12) (s : State) (f : Word → Word → Word) : Out :=
  if csrIllegal s c true then s.illegal (sysWord fn d a c)
  else withOperands s [srcA a false] [.g d] (
    if csrDenied s c then s.trap cACCESS (c.setWidth 64)
    else
      let old := s.oldCsr c.toNat
      match s.writeCsr s.cur c.toNat (f old (s.me.readG a)) with
      | .ok t => t.retireG d old
      | .illegal => s.illegal (sysWord fn d a c)
      | .trap k t => s.trap k t
      | .wait => s.stall
      | .begun t => t.stall)

/-- CSRW (R83). -/
def execCsrw (d a : Reg) (c : BitVec 12) (s : State) : Out := csrForm 1 d a c s fun _ v => v
/-- CSRS (R83). -/
def execCsrs (d a : Reg) (c : BitVec 12) (s : State) : Out := csrForm 2 d a c s fun old v => old ||| v
/-- CSRC (R83). -/
def execCsrc (d a : Reg) (c : BitVec 12) (s : State) : Out := csrForm 3 d a c s fun old v => old &&& ~~~v

/-- Posts a service request, if the queue has room and its pages allow it (R256). DESIGN CHOICE: a queue whose header holds uncorrectable data
takes none (log 27). -/
def State.postService (s : State) (sl : SlotId) (code : Nat) (ga : Word) : Option State :=
  let n := s.ctxOf sl
  let c := s.ctx n
  let base := c.sqbase.toNat % 2 ^ 56
  match s.queueLoc n base 64 with
  | none => none
  | some h =>
    if s.isPoisoned (h.take 16) then none else
    let widx := leNat (s.bytes (h.take 8))
    match s.queueLoc n (base + 64 + 32 * (widx % 2 ^ c.sqlog)) 32 with
    | none => none
    | some k =>
      if (wordsOf (k.take 8)).any s.tagFull then none
      else
        let ws := [code, ga.toNat, (s.slotid sl).toNat, (s.slot sl).pc.toNat]
        let s := (s.put k (ws.flatMap (toBytes 8))).retag (wordsOf (k.take 8)) true
        some ((s.put (h.take 8) (toBytes 8 (widx + 1))).interrupt (n % 16) 2 (BitVec.ofNat 64 n))

/-- TRAP with a code below 0x800: posts a service request, as a release at package scope (R89). -/
def execTrap (d a : Reg) (c : BitVec 11) (s : State) : Out :=
  withOperands s [srcA a false] [.g d] (
    if !s.ordered 4 then s.stall
    else match s.postService s.cur c.toNat (s.me.readG a) with
      | some t => t.retireG d 0
      | none => s.retireG d 1)

/-- TRAP with a code from 0x800: BRKPT, TVAL the code (R89). -/
def execBrkpt (c : BitVec 11) (s : State) : Out := s.trap cBRKPT (BitVec.ofNat 64 (0x800 + c.toNat))

/-- ERET: pc := KTPC, IE := 1; a compute core traps ACCESS with the word (R91, R249). A KTPC that is no word address is the
misaligned target of R35. -/
def execEret (s : State) : Out :=
  if !isControl s.cur.core then s.trap cACCESS 0x9C000005
  else if s.me.ktpc.extractLsb' 0 2 ≠ 0 then s.trap cMISALIGN s.me.ktpc
  else .next (s.modMe fun x => { x with pc := x.ktpc, kvec := x.kvec ||| 1, wait := .ready })

/-- UPRET (R88). -/
def execUpret (s : State) : Out := s.upReturn

/-- WFE: waits until an event or until TIME reaches ga, when ga is not 0 (R90). A slot whose wait has ended, or that is made to
issue again while it waits, returns 0. -/
def execWfe (d a : Reg) (s : State) : Out :=
  withOperands s [srcA a false] [.g d] (
    let limit := (s.me.readG a).toNat
    match s.me.wait with
    | .wfe _ => s.retireG d 0
    | _ =>
      if limit ≠ 0 && limit ≤ s.time then s.retireG d 1
      else .next (s.modMe fun x => { x with wait := .wfe false, wfeReg := d, wfeLimit := s.me.readG a }))

end Sys2Proof.Machine
end

