-- ==== Sys2Proof/WellFormed.lean ====
section
/-!
DEFINITION. What makes an instruction well formed beyond its constructor: the encodings that R29, R31, R101, R102, R26 and
R104 leave reserved or unassigned. A step of the device (a constructor from `illop` on) has no encoding and no defect.
-/

namespace Sys2Proof

/-- Why a word whose family and function exist is still no instruction (R34). -/
inductive Defect where
  /-- A relative vector operand with bits [4:3] of its field set (R26). -/
  | relativeField
  /-- A size code the memory instruction does not take (R29). -/
  | sizeCode
  /-- Scope code 6 or 7 (R31). -/
  | scopeCode
  /-- A VRED operation from 6 to 31 (R101). -/
  | reduceOp
  /-- A VCVT code from 26 to 31 (R102). -/
  | convertCode
  /-- A block conversion with a mask (R104). -/
  | convertMask
  deriving DecidableEq, Repr

/-- The first defect of a list, in order. -/
def firstDefect : List (Option Defect) → Option Defect
  | [] => none
  | some d :: _ => some d
  | none :: rest => firstDefect rest

def relDefect (v : VReg) : Option Defect := if v.rel && 8 ≤ v.n.toNat then some .relativeField else none
def sizeDefect (most : Nat) (z : BitVec 3) : Option Defect := if most < z.toNat then some .sizeCode else none
def scopeDefect (c : BitVec 3) : Option Defect := if 5 < c.toNat then some .scopeCode else none
def redDefect (o : BitVec 5) : Option Defect := if 5 < o.toNat then some .reduceOp else none
def cvtDefect (c : BitVec 5) (m : MReg) : Option Defect :=
  if 25 < c.toNat then some .convertCode
  else if 20 ≤ c.toNat && m != 0 then some .convertMask
  else none

/-- The defect of an instruction, if it has one. -/
def Instr.defect (i : Instr) : Option Defect :=
  match i with
  | .add _ _ _ _ _ => none
  | .sub _ _ _ _ _ => none
  | .and _ _ _ _ _ => none
  | .or _ _ _ _ _ => none
  | .xor _ _ _ _ _ => none
  | .andn _ _ _ _ _ => none
  | .sll _ _ _ _ _ => none
  | .srl _ _ _ _ _ => none
  | .sra _ _ _ _ _ => none
  | .rol _ _ _ _ _ => none
  | .slt _ _ _ _ _ => none
  | .sltu _ _ _ _ _ => none
  | .min _ _ _ _ _ => none
  | .max _ _ _ _ _ => none
  | .minu _ _ _ _ _ => none
  | .maxu _ _ _ _ _ => none
  | .mul _ _ _ _ _ => none
  | .mulh _ _ _ _ _ => none
  | .mulhu _ _ _ _ _ => none
  | .div _ _ _ _ _ => none
  | .divu _ _ _ _ _ => none
  | .rem _ _ _ _ _ => none
  | .remu _ _ _ _ _ => none
  | .clz _ _ _ => none
  | .ctz _ _ _ => none
  | .popc _ _ _ => none
  | .sextb _ _ _ => none
  | .sexth _ _ _ => none
  | .sextw _ _ _ => none
  | .zextw _ _ _ => none
  | .bswap _ _ _ => none
  | .selnz _ _ _ _ _ => none
  | .addi _ _ _ _ => none
  | .andi _ _ _ _ => none
  | .ori _ _ _ _ => none
  | .xori _ _ _ _ => none
  | .slti _ _ _ _ => none
  | .sltiu _ _ _ _ => none
  | .slli _ _ _ _ => none
  | .srli _ _ _ _ => none
  | .srai _ _ _ _ => none
  | .roli _ _ _ _ => none
  | .lui _ _ => none
  | .lih _ _ => none
  | .addpc _ _ => none
  | .ld _ _ _ z _ => sizeDefect 6 z
  | .ldn _ _ _ z _ => sizeDefect 6 z
  | .ldf _ _ _ z _ => sizeDefect 6 z
  | .ldfe _ _ _ z _ => sizeDefect 6 z
  | .st _ _ _ z _ => sizeDefect 3 z
  | .ste _ _ _ z _ => sizeDefect 3 z
  | .stf _ _ _ z _ => sizeDefect 3 z
  | .amoadd _ _ _ _ _ c _ => scopeDefect c
  | .amoand _ _ _ _ _ c _ => scopeDefect c
  | .amoor _ _ _ _ _ c _ => scopeDefect c
  | .amoxor _ _ _ _ _ c _ => scopeDefect c
  | .amomin _ _ _ _ _ c _ => scopeDefect c
  | .amomax _ _ _ _ _ c _ => scopeDefect c
  | .amominu _ _ _ _ _ c _ => scopeDefect c
  | .amomaxu _ _ _ _ _ c _ => scopeDefect c
  | .amoswap _ _ _ _ _ c _ => scopeDefect c
  | .amocas _ _ _ _ _ c _ => scopeDefect c
  | .amofadd _ _ _ _ _ c => scopeDefect c
  | .beq _ _ _ _ _ => none
  | .bne _ _ _ _ _ => none
  | .blt _ _ _ _ _ => none
  | .bge _ _ _ _ _ => none
  | .bltu _ _ _ _ _ => none
  | .bgeu _ _ _ _ _ => none
  | .jal _ _ => none
  | .jalr _ _ _ _ => none
  | .send _ _ _ _ => none
  | .sendc _ _ _ _ => none
  | .sendb _ _ _ _ _ => none
  | .hret => none
  | .hyield _ _ => none
  | .chset _ _ _ _ _ => none
  | .chmask _ _ _ _ _ => none
  | .charm _ _ _ _ _ => none
  | .fork _ _ _ _ _ => none
  | .taskend _ _ => none
  | .rejoin _ _ _ _ _ => none
  | .trig => none
  | .joinch _ _ _ => none
  | .fenceAcq s _ => scopeDefect s
  | .fenceRel s _ => scopeDefect s
  | .fenceFull s _ => scopeDefect s
  | .fencesc s => scopeDefect s
  | .rbegin _ => none
  | .rcommit => none
  | .rabort _ _ => none
  | .waitc _ _ _ => none
  | .ship _ _ _ _ _ _ => none
  | .chain _ _ _ _ _ => none
  | .rowopen _ _ => none
  | .rowhold _ _ _ => none
  | .rowrel _ _ => none
  | .rowq _ _ _ => none
  | .nbprog _ _ _ => none
  | .nbstat _ _ _ => none
  | .vadd vd va vb _ => firstDefect [relDefect vd, relDefect va, relDefect vb]
  | .vsub vd va vb _ => firstDefect [relDefect vd, relDefect va, relDefect vb]
  | .vmul vd va vb _ => firstDefect [relDefect vd, relDefect va, relDefect vb]
  | .vmulh vd va vb _ => firstDefect [relDefect vd, relDefect va, relDefect vb]
  | .vand vd va vb _ => firstDefect [relDefect vd, relDefect va, relDefect vb]
  | .vor vd va vb _ => firstDefect [relDefect vd, relDefect va, relDefect vb]
  | .vxor vd va vb _ => firstDefect [relDefect vd, relDefect va, relDefect vb]
  | .vsll vd va vb _ => firstDefect [relDefect vd, relDefect va, relDefect vb]
  | .vsrl vd va vb _ => firstDefect [relDefect vd, relDefect va, relDefect vb]
  | .vsra vd va vb _ => firstDefect [relDefect vd, relDefect va, relDefect vb]
  | .vmin vd va vb _ => firstDefect [relDefect vd, relDefect va, relDefect vb]
  | .vmax vd va vb _ => firstDefect [relDefect vd, relDefect va, relDefect vb]
  | .vminu vd va vb _ => firstDefect [relDefect vd, relDefect va, relDefect vb]
  | .vmaxu vd va vb _ => firstDefect [relDefect vd, relDefect va, relDefect vb]
  | .vcmpeq _ va vb _ => firstDefect [relDefect va, relDefect vb]
  | .vcmplt _ va vb _ => firstDefect [relDefect va, relDefect vb]
  | .vcmpltu _ va vb _ => firstDefect [relDefect va, relDefect vb]
  | .vabs vd va _ => firstDefect [relDefect vd, relDefect va]
  | .vfadd vd va vb _ => firstDefect [relDefect vd, relDefect va, relDefect vb]
  | .vfsub vd va vb _ => firstDefect [relDefect vd, relDefect va, relDefect vb]
  | .vfmul vd va vb _ => firstDefect [relDefect vd, relDefect va, relDefect vb]
  | .vffma vd va vb _ => firstDefect [relDefect vd, relDefect va, relDefect vb]
  | .vfmin vd va vb _ => firstDefect [relDefect vd, relDefect va, relDefect vb]
  | .vfmax vd va vb _ => firstDefect [relDefect vd, relDefect va, relDefect vb]
  | .vfdiv vd va vb _ => firstDefect [relDefect vd, relDefect va, relDefect vb]
  | .vfsqrt vd va _ => firstDefect [relDefect vd, relDefect va]
  | .vfrcp vd va _ => firstDefect [relDefect vd, relDefect va]
  | .vfrsq vd va _ => firstDefect [relDefect vd, relDefect va]
  | .vfexp2 vd va _ => firstDefect [relDefect vd, relDefect va]
  | .vflog2 vd va _ => firstDefect [relDefect vd, relDefect va]
  | .vfcmp vd va vb _ => firstDefect [relDefect vd, relDefect va, relDefect vb]
  | .vcvt vd va c m => firstDefect [relDefect vd, relDefect va, cvtDefect c m]
  | .vred vd va o _ => firstDefect [relDefect vd, relDefect va, redDefect o]
  | .vdot2 vd va vb _ => firstDefect [relDefect vd, relDefect va, relDefect vb]
  | .vld vd _ _ => firstDefect [relDefect vd]
  | .vst vd _ _ => firstDefect [relDefect vd]
  | .vlds vd _ _ _ => firstDefect [relDefect vd]
  | .vsts vd _ _ _ => firstDefect [relDefect vd]
  | .vgath vd va _ _ => firstDefect [relDefect vd, relDefect va]
  | .vscat vd va _ _ => firstDefect [relDefect vd, relDefect va]
  | .vldf vd _ _ => firstDefect [relDefect vd]
  | .vmovgToMask _ _ => none
  | .vmovgFromMask _ _ => none
  | .vmovv vd va _ => firstDefect [relDefect vd, relDefect va]
  | .vbcast vd _ _ => firstDefect [relDefect vd]
  | .vext _ va _ => firstDefect [relDefect va]
  | .vins vd _ _ => firstDefect [relDefect vd]
  | .vsel vd va vb _ => firstDefect [relDefect vd, relDefect va, relDefect vb]
  | .vshuf vd va vb _ => firstDefect [relDefect vd, relDefect va, relDefect vb]
  | .viadd _ _ => none
  | .mand _ _ _ => none
  | .mor _ _ _ => none
  | .mnot _ _ => none
  | .mpop _ _ => none
  | .ecfg _ _ _ => none
  | .eread _ _ => none
  | .fldset _ _ _ _ => none
  | .fldget _ _ _ => none
  | .mma _ _ _ => none
  | .apply _ _ _ => none
  | .diag _ _ _ => none
  | .perm _ _ _ => none
  | .matl _ _ _ => none
  | .accld _ _ _ => none
  | .accst _ _ _ => none
  | .accz _ _ _ => none
  | .estat _ _ _ => none
  | .ctload _ _ _ _ _ => none
  | .ctswap _ => none
  | .eresume _ _ _ _ _ => none
  | .abandon _ _ _ _ _ => none
  | .lcopy _ _ _ _ _ => none
  | .pcopy _ _ _ _ _ => none
  | .pfill _ _ _ _ _ => none
  | .ptag _ _ _ _ _ => none
  | .premap _ _ _ _ _ => none
  | .pscrub _ _ _ _ _ => none
  | .pcoll _ _ _ _ _ => none
  | .pslotLoadEntries _ _ _ _ _ => none
  | .pslotStoreEntries _ _ _ _ _ => none
  | .pslotLoadControl _ _ _ _ _ => none
  | .pslotStatus _ _ _ _ _ => none
  | .pq _ _ _ => none
  | .brwld _ _ _ _ _ => none
  | .brwarm _ _ _ _ _ => none
  | .disarm _ _ _ _ _ => none
  | .brwpost _ _ _ _ _ => none
  | .brwfree _ _ _ => none
  | .brwq _ _ _ => none
  | .csrr _ _ => none
  | .csrw _ _ _ => none
  | .csrs _ _ _ => none
  | .csrc _ _ _ => none
  | .trap _ _ _ => none
  | .brkpt _ => none
  | .eret => none
  | .upret => none
  | .wfe _ _ => none
  | .routld _ _ _ => none
  | .fadd _ _ _ _ _ => none
  | .fsub _ _ _ _ _ => none
  | .fmul _ _ _ _ _ => none
  | .ffma _ _ _ _ _ => none
  | .fdiv _ _ _ _ _ => none
  | .fsqrt _ _ _ => none
  | .fmin _ _ _ _ _ => none
  | .fmax _ _ _ _ _ => none
  | .fcmp _ _ _ _ _ => none
  | .fcvt _ _ _ _ _ => none
  | .fclass _ _ _ => none
  | .addp _ _ _ _ _ => none
  | .pfmt _ _ _ _ _ => none
  | .pidx _ _ _ _ _ => none
  | .pdiff _ _ _ _ _ => none
  | .pstrip _ _ _ => none
  | .illop _ => none
  | .issueRetry _ => none
  | .upcall _ => none
  | .producerLands _ _ => none
  | .requestComplete _ _ => none
  | .parkedAccess _ _ => none
  | .deferredUpcall _ => none
  | .engfault _ => none
  | .wfeTimeout _ => none
  | .tagServe _ => none
  | .activeMessageArrival _ _ _ => none
  | .counterMessage _ _ => none
  | .outboundRetry _ _ => none
  | .startActiveMessage _ _ => none
  | .startCounterFiring _ _ => none
  | .taskPop _ => none
  | .taskSteal _ => none
  | .jobStart _ _ _ => none
  | .jobProgress _ _ _ => none
  | .jobComplete _ _ _ => none
  | .jobStop _ _ _ _ => none
  | .remapStart _ _ _ => none
  | .remapComplete _ _ _ => none
  | .routineCall _ _ => none
  | .chainStep _ _ => none
  | .tagPass _ => none
  | .rowStep _ => none
  | .rowBoundaryYield _ => none
  | .heldRowRefresh _ _ => none
  | .chbaseWrite _ => none
  | .vallocWrite _ => none
  | .create _ => none
  | .resume _ => none
  | .preempt _ => none
  | .destroy _ => none
  | .slotHalt _ => none
  | .saveComplete _ => none
  | .faultRecord _ _ => none
  | .interrupt _ => none
  | .xinv _ => none
  | .grantLoad _ => none
  | .recall _ => none
  | .doorbell _ _ _ => none
  | .devnum _ => none
  | .hoststat => none
  | .hostRegisterWrite _ _ => none
  | .hostMemoryWrite _ _ => none
  | .unsupportedRequest => none
  | .descriptorTake _ _ => none
  | .dependenceMet _ => none
  | .groupPlace _ => none
  | .groupExit _ _ => none
  | .brewEvaluate => none
  | .brwpostArrival _ => none
  | .routerCycle _ _ _ => none
  | .kdpPacket _ _ _ => none
  | .slotBoundary => none
  | .rotationBoundary => none
  | .windowSend _ _ _ => none
  | .frameReceive _ _ _ => none
  | .pull _ => none
  | .peerAccess _ => none
  | .peerMessage _ _ => none
  | .blockApply _ => none
  | .acknowledgement _ _ _ _ _ => none
  | .remoteTimeLimit _ _ => none
  | .linkDown _ => none
  | .rollback _ => none
  | .correctedError _ => none
  | .uncorrectableError _ _ => none
  | .spareReplacement _ => none
  | .dieRenumbering _ => none
  | .linkReroute _ => none
  | .alignmentExchange _ _ _ _ _ => none
  | .alignmentLost => none
  | .powerGood => none
  | .bootPhase _ _ _ => none
  | .pwrlimClockStep _ => none

/-- Well formed: no defect. -/
def Instr.wf (i : Instr) : Bool := i.defect.isNone

end Sys2Proof
end

