-- ==== Sys2Proof/Decode.lean ====
section
/-!
DEFINITION. Decoding (R24 to R34): a word is an instruction or it is refused by name; the step turns a refusal into ILLOP.
Three words carry more than one row of the table, told apart by a register at run time (ERESUME and ABANDON, BRWARM and
DISARM, the four PSLOT rows): the decoder gives the first row, and every row's meaning reads the register. After the
decoder, the encoder, from the same tables.
-/

namespace Sys2Proof

/-- Why a word is no instruction (R34). -/
inductive DecodeErr where
  /-- Major opcode 0x00 or 0x2A to 0x3F. -/
  | opcode (op : Nat)
  /-- A function code that R30 does not assign. -/
  | function (op fn : Nat)
  /-- A reserved field that is not 0 (R27). -/
  | reserved
  /-- FENCE kind 3 (R31). -/
  | fenceKind
  /-- A field value that the instruction does not take. -/
  | illFormed (d : Defect)
  deriving DecidableEq, Repr

def fOp (w : BitVec 32) : BitVec 6 := w.extractLsb' 26 6
def fD (w : BitVec 32) : BitVec 5 := w.extractLsb' 21 5
def fA (w : BitVec 32) : BitVec 5 := w.extractLsb' 16 5
def fB (w : BitVec 32) : BitVec 5 := w.extractLsb' 11 5
def fX (w : BitVec 32) : Bool := w.getLsbD 10
def fY (w : BitVec 32) : Bool := w.getLsbD 9
def fFn (w : BitVec 32) : BitVec 9 := w.extractLsb' 0 9
def fScope (w : BitVec 32) : BitVec 3 := (fFn w).extractLsb' 1 3
def fWide (w : BitVec 32) : Bool := (fFn w).getLsbD 0
def fX15 (w : BitVec 32) : Bool := w.getLsbD 15
def fY14 (w : BitVec 32) : Bool := w.getLsbD 14
def fImm15 (w : BitVec 32) : BitVec 15 := w.extractLsb' 0 15
def fSz (w : BitVec 32) : BitVec 3 := w.extractLsb' 12 3
def fOff12 (w : BitVec 32) : BitVec 12 := w.extractLsb' 0 12
def fOff14 (w : BitVec 32) : BitVec 14 := w.extractLsb' 0 14
def fImm21 (w : BitVec 32) : BitVec 21 := w.extractLsb' 0 21
def fM (w : BitVec 32) : BitVec 3 := w.extractLsb' 8 3
def fR7 (w : BitVec 32) : Bool := w.getLsbD 7
def fR6 (w : BitVec 32) : Bool := w.getLsbD 6
def fR5 (w : BitVec 32) : Bool := w.getLsbD 5
def fFn5 (w : BitVec 32) : BitVec 5 := w.extractLsb' 0 5
def fCsr (w : BitVec 32) : BitVec 12 := w.extractLsb' 4 12
def fFn4 (w : BitVec 32) : BitVec 4 := w.extractLsb' 0 4

/-- The instruction, if the reserved fields are 0 and it is well formed. -/
def okIf (c : Bool) (i : Instr) : Except DecodeErr Instr :=
  if c then
    match i.defect with
    | none => .ok i
    | some d => .error (.illFormed d)
  else .error .reserved

/-- The ALU family, op 0x01 (R30). -/
def decodeAlu (w : BitVec 32) : Except DecodeErr Instr :=
  match (fFn w).toNat with
  | 0 => okIf true (.add (fD w) (fA w) (fB w) (fX w) (fY w))
  | 1 => okIf true (.sub (fD w) (fA w) (fB w) (fX w) (fY w))
  | 2 => okIf true (.and (fD w) (fA w) (fB w) (fX w) (fY w))
  | 3 => okIf true (.or (fD w) (fA w) (fB w) (fX w) (fY w))
  | 4 => okIf true (.xor (fD w) (fA w) (fB w) (fX w) (fY w))
  | 5 => okIf true (.andn (fD w) (fA w) (fB w) (fX w) (fY w))
  | 6 => okIf true (.sll (fD w) (fA w) (fB w) (fX w) (fY w))
  | 7 => okIf true (.srl (fD w) (fA w) (fB w) (fX w) (fY w))
  | 8 => okIf true (.sra (fD w) (fA w) (fB w) (fX w) (fY w))
  | 9 => okIf true (.rol (fD w) (fA w) (fB w) (fX w) (fY w))
  | 10 => okIf true (.slt (fD w) (fA w) (fB w) (fX w) (fY w))
  | 11 => okIf true (.sltu (fD w) (fA w) (fB w) (fX w) (fY w))
  | 12 => okIf true (.min (fD w) (fA w) (fB w) (fX w) (fY w))
  | 13 => okIf true (.max (fD w) (fA w) (fB w) (fX w) (fY w))
  | 14 => okIf true (.minu (fD w) (fA w) (fB w) (fX w) (fY w))
  | 15 => okIf true (.maxu (fD w) (fA w) (fB w) (fX w) (fY w))
  | 16 => okIf true (.mul (fD w) (fA w) (fB w) (fX w) (fY w))
  | 17 => okIf true (.mulh (fD w) (fA w) (fB w) (fX w) (fY w))
  | 18 => okIf true (.mulhu (fD w) (fA w) (fB w) (fX w) (fY w))
  | 19 => okIf true (.div (fD w) (fA w) (fB w) (fX w) (fY w))
  | 20 => okIf true (.divu (fD w) (fA w) (fB w) (fX w) (fY w))
  | 21 => okIf true (.rem (fD w) (fA w) (fB w) (fX w) (fY w))
  | 22 => okIf true (.remu (fD w) (fA w) (fB w) (fX w) (fY w))
  | 23 => okIf ((fB w == 0#5) && !fY w) (.clz (fD w) (fA w) (fX w))
  | 24 => okIf ((fB w == 0#5) && !fY w) (.ctz (fD w) (fA w) (fX w))
  | 25 => okIf ((fB w == 0#5) && !fY w) (.popc (fD w) (fA w) (fX w))
  | 26 => okIf ((fB w == 0#5) && !fY w) (.sextb (fD w) (fA w) (fX w))
  | 27 => okIf ((fB w == 0#5) && !fY w) (.sexth (fD w) (fA w) (fX w))
  | 28 => okIf ((fB w == 0#5) && !fY w) (.sextw (fD w) (fA w) (fX w))
  | 29 => okIf ((fB w == 0#5) && !fY w) (.zextw (fD w) (fA w) (fX w))
  | 30 => okIf ((fB w == 0#5) && !fY w) (.bswap (fD w) (fA w) (fX w))
  | 31 => okIf true (.selnz (fD w) (fA w) (fB w) (fX w) (fY w))
  | n => .error (.function 0x01 n)

/-- The SHI family, op 0x08 (R30). -/
def decodeShi (w : BitVec 32) : Except DecodeErr Instr :=
  match ((fImm15 w).extractLsb' 12 3).toNat with
  | 0 => okIf (((fImm15 w).extractLsb' 6 6 == 0#6)) (.slli (fD w) (fA w) (fX15 w) ((fImm15 w).extractLsb' 0 6))
  | 1 => okIf (((fImm15 w).extractLsb' 6 6 == 0#6)) (.srli (fD w) (fA w) (fX15 w) ((fImm15 w).extractLsb' 0 6))
  | 2 => okIf (((fImm15 w).extractLsb' 6 6 == 0#6)) (.srai (fD w) (fA w) (fX15 w) ((fImm15 w).extractLsb' 0 6))
  | 3 => okIf (((fImm15 w).extractLsb' 6 6 == 0#6)) (.roli (fD w) (fA w) (fX15 w) ((fImm15 w).extractLsb' 0 6))
  | n => .error (.function 0x08 n)

/-- The AMO family, op 0x13 (R30). -/
def decodeAmo (w : BitVec 32) : Except DecodeErr Instr :=
  match ((fFn w).extractLsb' 4 5).toNat with
  | 0 => okIf true (.amoadd (fD w) (fA w) (fB w) (fX w) (fY w) (fScope w) (fWide w))
  | 1 => okIf true (.amoand (fD w) (fA w) (fB w) (fX w) (fY w) (fScope w) (fWide w))
  | 2 => okIf true (.amoor (fD w) (fA w) (fB w) (fX w) (fY w) (fScope w) (fWide w))
  | 3 => okIf true (.amoxor (fD w) (fA w) (fB w) (fX w) (fY w) (fScope w) (fWide w))
  | 4 => okIf true (.amomin (fD w) (fA w) (fB w) (fX w) (fY w) (fScope w) (fWide w))
  | 5 => okIf true (.amomax (fD w) (fA w) (fB w) (fX w) (fY w) (fScope w) (fWide w))
  | 6 => okIf true (.amominu (fD w) (fA w) (fB w) (fX w) (fY w) (fScope w) (fWide w))
  | 7 => okIf true (.amomaxu (fD w) (fA w) (fB w) (fX w) (fY w) (fScope w) (fWide w))
  | 8 => okIf true (.amoswap (fD w) (fA w) (fB w) (fX w) (fY w) (fScope w) (fWide w))
  | 9 => okIf true (.amocas (fD w) (fA w) (fB w) (fX w) (fY w) (fScope w) (fWide w))
  | 10 => okIf (!fWide w) (.amofadd (fD w) (fA w) (fB w) (fX w) (fY w) (fScope w))
  | n => .error (.function 0x13 n)

/-- The MSG family, op 0x1C (R30). -/
def decodeMsg (w : BitVec 32) : Except DecodeErr Instr :=
  match (fFn w).toNat with
  | 0 => okIf ((fD w == 0#5)) (.send (fA w) (fB w) (fX w) (fY w))
  | 1 => okIf ((fD w == 0#5)) (.sendc (fA w) (fB w) (fX w) (fY w))
  | 2 => okIf true (.sendb (fD w) (fA w) (fB w) (fX w) (fY w))
  | 3 => okIf ((fD w == 0#5) && (fA w == 0#5) && (fB w == 0#5) && !fX w && !fY w) .hret
  | 4 => okIf ((fD w == 0#5) && (fB w == 0#5) && !fY w) (.hyield (fA w) (fX w))
  | 5 => okIf true (.chset (fD w) (fA w) (fB w) (fX w) (fY w))
  | 6 => okIf true (.chmask (fD w) (fA w) (fB w) (fX w) (fY w))
  | 7 => okIf true (.charm (fD w) (fA w) (fB w) (fX w) (fY w))
  | n => .error (.function 0x1C n)

/-- The TASK family, op 0x1D (R30). -/
def decodeTask (w : BitVec 32) : Except DecodeErr Instr :=
  match (fFn w).toNat with
  | 0 => okIf true (.fork (fD w) (fA w) (fB w) (fX w) (fY w))
  | 1 => okIf ((fD w == 0#5) && (fB w == 0#5) && !fY w) (.taskend (fA w) (fX w))
  | 2 => okIf true (.rejoin (fD w) (fA w) (fB w) (fX w) (fY w))
  | 3 => okIf ((fD w == 0#5) && (fA w == 0#5) && (fB w == 0#5) && !fX w && !fY w) .trig
  | 4 => okIf ((fB w == 0#5) && !fY w) (.joinch (fD w) (fA w) (fX w))
  | n => .error (.function 0x1D n)

/-- The SYNC family, op 0x1E (R30). -/
def decodeSync (w : BitVec 32) : Except DecodeErr Instr :=
  match (fFn w).toNat with
  | 0 => (match ((fB w).extractLsb' 0 2).toNat with
    | 0 => okIf ((fD w == 0#5) && (fA w == 0#5) && !fX w) (.fenceAcq ((fB w).extractLsb' 2 3) (fY w))
    | 1 => okIf ((fD w == 0#5) && (fA w == 0#5) && !fX w) (.fenceRel ((fB w).extractLsb' 2 3) (fY w))
    | 2 => okIf ((fD w == 0#5) && (fA w == 0#5) && !fX w) (.fenceFull ((fB w).extractLsb' 2 3) (fY w))
    | _ => .error .fenceKind)
  | 1 => okIf (((fB w).extractLsb' 0 2 == 0#2) && (fD w == 0#5) && (fA w == 0#5) && !fX w && !fY w) (.fencesc ((fB w).extractLsb' 2 3))
  | 2 => okIf ((fA w == 0#5) && (fB w == 0#5) && !fX w && !fY w) (.rbegin (fD w))
  | 3 => okIf ((fD w == 0#5) && (fA w == 0#5) && (fB w == 0#5) && !fX w && !fY w) .rcommit
  | 4 => okIf ((fD w == 0#5) && (fB w == 0#5) && !fY w) (.rabort (fA w) (fX w))
  | 5 => okIf (((fD w).extractLsb' 4 1 == 0#1) && (fB w == 0#5) && !fY w) (.waitc ((fD w).extractLsb' 0 4) (fA w) (fX w))
  | n => .error (.function 0x1E n)

/-- The MEMX family, op 0x1F (R30). -/
def decodeMemx (w : BitVec 32) : Except DecodeErr Instr :=
  if (fFn w).extractLsb' 8 1 == 0#1 then okIf true (.ship (fD w) (fA w) (fB w) (fX w) (fY w) ((fFn w).extractLsb' 0 8))
  else
  match (fFn w).toNat with
  | 256 => okIf true (.chain (fD w) (fA w) (fB w) (fX w) (fY w))
  | 257 => okIf ((fD w == 0#5) && (fB w == 0#5) && !fY w) (.rowopen (fA w) (fX w))
  | 258 => okIf ((fB w == 0#5) && !fY w) (.rowhold (fD w) (fA w) (fX w))
  | 259 => okIf ((fD w == 0#5) && (fB w == 0#5) && !fY w) (.rowrel (fA w) (fX w))
  | 260 => okIf ((fB w == 0#5) && !fY w) (.rowq (fD w) (fA w) (fX w))
  | 261 => okIf ((fB w == 0#5) && !fY w) (.nbprog (fD w) (fA w) (fX w))
  | 262 => okIf ((fB w == 0#5) && !fY w) (.nbstat (fD w) (fA w) (fX w))
  | n => .error (.function 0x1F n)

/-- The VALU family, op 0x20 (R30). -/
def decodeValu (w : BitVec 32) : Except DecodeErr Instr :=
  match (fFn5 w).toNat with
  | 0 => okIf true (.vadd (⟨fR7 w, fD w⟩) (⟨fR6 w, fA w⟩) (⟨fR5 w, fB w⟩) (fM w))
  | 1 => okIf true (.vsub (⟨fR7 w, fD w⟩) (⟨fR6 w, fA w⟩) (⟨fR5 w, fB w⟩) (fM w))
  | 2 => okIf true (.vmul (⟨fR7 w, fD w⟩) (⟨fR6 w, fA w⟩) (⟨fR5 w, fB w⟩) (fM w))
  | 3 => okIf true (.vmulh (⟨fR7 w, fD w⟩) (⟨fR6 w, fA w⟩) (⟨fR5 w, fB w⟩) (fM w))
  | 4 => okIf true (.vand (⟨fR7 w, fD w⟩) (⟨fR6 w, fA w⟩) (⟨fR5 w, fB w⟩) (fM w))
  | 5 => okIf true (.vor (⟨fR7 w, fD w⟩) (⟨fR6 w, fA w⟩) (⟨fR5 w, fB w⟩) (fM w))
  | 6 => okIf true (.vxor (⟨fR7 w, fD w⟩) (⟨fR6 w, fA w⟩) (⟨fR5 w, fB w⟩) (fM w))
  | 7 => okIf true (.vsll (⟨fR7 w, fD w⟩) (⟨fR6 w, fA w⟩) (⟨fR5 w, fB w⟩) (fM w))
  | 8 => okIf true (.vsrl (⟨fR7 w, fD w⟩) (⟨fR6 w, fA w⟩) (⟨fR5 w, fB w⟩) (fM w))
  | 9 => okIf true (.vsra (⟨fR7 w, fD w⟩) (⟨fR6 w, fA w⟩) (⟨fR5 w, fB w⟩) (fM w))
  | 10 => okIf true (.vmin (⟨fR7 w, fD w⟩) (⟨fR6 w, fA w⟩) (⟨fR5 w, fB w⟩) (fM w))
  | 11 => okIf true (.vmax (⟨fR7 w, fD w⟩) (⟨fR6 w, fA w⟩) (⟨fR5 w, fB w⟩) (fM w))
  | 12 => okIf true (.vminu (⟨fR7 w, fD w⟩) (⟨fR6 w, fA w⟩) (⟨fR5 w, fB w⟩) (fM w))
  | 13 => okIf true (.vmaxu (⟨fR7 w, fD w⟩) (⟨fR6 w, fA w⟩) (⟨fR5 w, fB w⟩) (fM w))
  | 14 => okIf (((fD w).extractLsb' 3 2 == 0#2) && !fR7 w) (.vcmpeq ((fD w).extractLsb' 0 3) (⟨fR6 w, fA w⟩) (⟨fR5 w, fB w⟩) (fM w))
  | 15 => okIf (((fD w).extractLsb' 3 2 == 0#2) && !fR7 w) (.vcmplt ((fD w).extractLsb' 0 3) (⟨fR6 w, fA w⟩) (⟨fR5 w, fB w⟩) (fM w))
  | 16 => okIf (((fD w).extractLsb' 3 2 == 0#2) && !fR7 w) (.vcmpltu ((fD w).extractLsb' 0 3) (⟨fR6 w, fA w⟩) (⟨fR5 w, fB w⟩) (fM w))
  | 17 => okIf ((fB w == 0#5) && !fR5 w) (.vabs (⟨fR7 w, fD w⟩) (⟨fR6 w, fA w⟩) (fM w))
  | n => .error (.function 0x20 n)

/-- The VFP family, op 0x21 (R30). -/
def decodeVfp (w : BitVec 32) : Except DecodeErr Instr :=
  match (fFn5 w).toNat with
  | 0 => okIf true (.vfadd (⟨fR7 w, fD w⟩) (⟨fR6 w, fA w⟩) (⟨fR5 w, fB w⟩) (fM w))
  | 1 => okIf true (.vfsub (⟨fR7 w, fD w⟩) (⟨fR6 w, fA w⟩) (⟨fR5 w, fB w⟩) (fM w))
  | 2 => okIf true (.vfmul (⟨fR7 w, fD w⟩) (⟨fR6 w, fA w⟩) (⟨fR5 w, fB w⟩) (fM w))
  | 3 => okIf true (.vffma (⟨fR7 w, fD w⟩) (⟨fR6 w, fA w⟩) (⟨fR5 w, fB w⟩) (fM w))
  | 4 => okIf true (.vfmin (⟨fR7 w, fD w⟩) (⟨fR6 w, fA w⟩) (⟨fR5 w, fB w⟩) (fM w))
  | 5 => okIf true (.vfmax (⟨fR7 w, fD w⟩) (⟨fR6 w, fA w⟩) (⟨fR5 w, fB w⟩) (fM w))
  | 6 => okIf true (.vfdiv (⟨fR7 w, fD w⟩) (⟨fR6 w, fA w⟩) (⟨fR5 w, fB w⟩) (fM w))
  | 7 => okIf ((fB w == 0#5) && !fR5 w) (.vfsqrt (⟨fR7 w, fD w⟩) (⟨fR6 w, fA w⟩) (fM w))
  | 8 => okIf ((fB w == 0#5) && !fR5 w) (.vfrcp (⟨fR7 w, fD w⟩) (⟨fR6 w, fA w⟩) (fM w))
  | 9 => okIf ((fB w == 0#5) && !fR5 w) (.vfrsq (⟨fR7 w, fD w⟩) (⟨fR6 w, fA w⟩) (fM w))
  | 10 => okIf ((fB w == 0#5) && !fR5 w) (.vfexp2 (⟨fR7 w, fD w⟩) (⟨fR6 w, fA w⟩) (fM w))
  | 11 => okIf ((fB w == 0#5) && !fR5 w) (.vflog2 (⟨fR7 w, fD w⟩) (⟨fR6 w, fA w⟩) (fM w))
  | 12 => okIf true (.vfcmp (⟨fR7 w, fD w⟩) (⟨fR6 w, fA w⟩) (⟨fR5 w, fB w⟩) (fM w))
  | 13 => okIf (!fR5 w) (.vcvt (⟨fR7 w, fD w⟩) (⟨fR6 w, fA w⟩) (fB w) (fM w))
  | 14 => okIf (!fR5 w) (.vred (⟨fR7 w, fD w⟩) (⟨fR6 w, fA w⟩) (fB w) (fM w))
  | 15 => okIf true (.vdot2 (⟨fR7 w, fD w⟩) (⟨fR6 w, fA w⟩) (⟨fR5 w, fB w⟩) (fM w))
  | n => .error (.function 0x21 n)

/-- The VMEM family, op 0x22 (R30). -/
def decodeVmem (w : BitVec 32) : Except DecodeErr Instr :=
  match (fFn5 w).toNat with
  | 0 => okIf ((fA w == 0#5) && !fR6 w && !fR5 w) (.vld (⟨fR7 w, fD w⟩) (fB w) (fM w))
  | 1 => okIf ((fA w == 0#5) && !fR6 w && !fR5 w) (.vst (⟨fR7 w, fD w⟩) (fB w) (fM w))
  | 2 => okIf (!fR6 w && !fR5 w) (.vlds (⟨fR7 w, fD w⟩) (fA w) (fB w) (fM w))
  | 3 => okIf (!fR6 w && !fR5 w) (.vsts (⟨fR7 w, fD w⟩) (fA w) (fB w) (fM w))
  | 4 => okIf (!fR5 w) (.vgath (⟨fR7 w, fD w⟩) (⟨fR6 w, fA w⟩) (fB w) (fM w))
  | 5 => okIf (!fR5 w) (.vscat (⟨fR7 w, fD w⟩) (⟨fR6 w, fA w⟩) (fB w) (fM w))
  | 6 => okIf ((fA w == 0#5) && !fR6 w && !fR5 w) (.vldf (⟨fR7 w, fD w⟩) (fB w) (fM w))
  | n => .error (.function 0x22 n)

/-- The VMISC family, op 0x23 (R30). -/
def decodeVmisc (w : BitVec 32) : Except DecodeErr Instr :=
  match (fFn5 w).toNat with
  | 0 => (match (fA w).toNat with
    | 0 => okIf (((fD w).extractLsb' 3 2 == 0#2) && (fM w == 0#3) && !fR7 w && !fR6 w && !fR5 w) (.vmovgToMask ((fD w).extractLsb' 0 3) (fB w))
    | 1 => okIf (((fB w).extractLsb' 3 2 == 0#2) && (fM w == 0#3) && !fR7 w && !fR6 w && !fR5 w) (.vmovgFromMask (fD w) ((fB w).extractLsb' 0 3))
    | _ => .error .reserved)
  | 1 => okIf ((fB w == 0#5) && !fR5 w) (.vmovv (⟨fR7 w, fD w⟩) (⟨fR6 w, fA w⟩) (fM w))
  | 2 => okIf ((fA w == 0#5) && !fR6 w && !fR5 w) (.vbcast (⟨fR7 w, fD w⟩) (fB w) (fM w))
  | 3 => okIf ((fM w == 0#3) && !fR7 w && !fR5 w) (.vext (fD w) (⟨fR6 w, fA w⟩) (fB w))
  | 4 => okIf (((fA w).extractLsb' 4 1 == 0#1) && (fM w == 0#3) && !fR6 w && !fR5 w) (.vins (⟨fR7 w, fD w⟩) ((fA w).extractLsb' 0 4) (fB w))
  | 5 => okIf true (.vsel (⟨fR7 w, fD w⟩) (⟨fR6 w, fA w⟩) (⟨fR5 w, fB w⟩) (fM w))
  | 6 => okIf true (.vshuf (⟨fR7 w, fD w⟩) (⟨fR6 w, fA w⟩) (⟨fR5 w, fB w⟩) (fM w))
  | 7 => okIf ((fA w == 0#5) && (fM w == 0#3) && !fR7 w && !fR6 w && !fR5 w) (.viadd (fD w) (fB w))
  | 8 => okIf (((fD w).extractLsb' 3 2 == 0#2) && ((fA w).extractLsb' 3 2 == 0#2) && ((fB w).extractLsb' 3 2 == 0#2) && (fM w == 0#3) && !fR7 w && !fR6 w && !fR5 w) (.mand ((fD w).extractLsb' 0 3) ((fA w).extractLsb' 0 3) ((fB w).extractLsb' 0 3))
  | 9 => okIf (((fD w).extractLsb' 3 2 == 0#2) && ((fA w).extractLsb' 3 2 == 0#2) && ((fB w).extractLsb' 3 2 == 0#2) && (fM w == 0#3) && !fR7 w && !fR6 w && !fR5 w) (.mor ((fD w).extractLsb' 0 3) ((fA w).extractLsb' 0 3) ((fB w).extractLsb' 0 3))
  | 10 => okIf (((fD w).extractLsb' 3 2 == 0#2) && ((fA w).extractLsb' 3 2 == 0#2) && (fB w == 0#5) && (fM w == 0#3) && !fR7 w && !fR6 w && !fR5 w) (.mnot ((fD w).extractLsb' 0 3) ((fA w).extractLsb' 0 3))
  | 11 => okIf (((fA w).extractLsb' 3 2 == 0#2) && (fB w == 0#5) && (fM w == 0#3) && !fR7 w && !fR6 w && !fR5 w) (.mpop (fD w) ((fA w).extractLsb' 0 3))
  | n => .error (.function 0x23 n)

/-- The ENG family, op 0x24 (R30). -/
def decodeEng (w : BitVec 32) : Except DecodeErr Instr :=
  match (fFn w).toNat with
  | 0 => okIf (((fB w).extractLsb' 1 4 == 0#4) && !fY w) (.ecfg ((fB w).extractLsb' 0 1 ++ fD w) (fA w) (fX w))
  | 1 => okIf (((fB w).extractLsb' 1 4 == 0#4) && !fX w && !fY w) (.eread (fD w) ((fB w).extractLsb' 0 1 ++ fA w))
  | 2 => okIf (((fD w).extractLsb' 4 1 == 0#1) && ((fB w).extractLsb' 3 2 == 0#2) && !fY w) (.fldset ((fD w).extractLsb' 0 4) (fA w) ((fB w).extractLsb' 0 3) (fX w))
  | 3 => okIf (((fA w).extractLsb' 4 1 == 0#1) && ((fB w).extractLsb' 3 2 == 0#2) && !fX w && !fY w) (.fldget (fD w) ((fA w).extractLsb' 0 4) ((fB w).extractLsb' 0 3))
  | 4 => okIf ((fA w == 0#5) && !fX w) (.mma (fD w) (fB w) (fY w))
  | 5 => okIf ((fA w == 0#5) && !fX w) (.apply (fD w) (fB w) (fY w))
  | 6 => okIf ((fA w == 0#5) && !fX w) (.diag (fD w) (fB w) (fY w))
  | 7 => okIf (((fD w).extractLsb' 4 1 == 0#1) && (fB w == 0#5) && !fY w) (.perm ((fD w).extractLsb' 0 4) (fA w) (fX w))
  | 8 => okIf ((fA w == 0#5) && !fX w) (.matl (fD w) (fB w) (fY w))
  | 9 => okIf ((fA w == 0#5) && !fX w) (.accld (fD w) (fB w) (fY w))
  | 10 => okIf ((fA w == 0#5) && !fX w) (.accst (fD w) (fB w) (fY w))
  | 11 => okIf ((fA w == 0#5) && !fX w) (.accz (fD w) (fB w) (fY w))
  | 12 => okIf ((fB w == 0#5) && !fY w) (.estat (fD w) (fA w) (fX w))
  | 13 => okIf true (.ctload (fD w) (fA w) (fB w) (fX w) (fY w))
  | 14 => okIf ((fA w == 0#5) && (fB w == 0#5) && !fX w && !fY w) (.ctswap (fD w))
  | 15 => okIf true (.eresume (fD w) (fA w) (fB w) (fX w) (fY w))
  | n => .error (.function 0x24 n)

/-- The POUR family, op 0x25 (R30). -/
def decodePour (w : BitVec 32) : Except DecodeErr Instr :=
  match (fFn w).toNat with
  | 0 => okIf true (.lcopy (fD w) (fA w) (fB w) (fX w) (fY w))
  | 1 => okIf true (.pcopy (fD w) (fA w) (fB w) (fX w) (fY w))
  | 2 => okIf true (.pfill (fD w) (fA w) (fB w) (fX w) (fY w))
  | 3 => okIf true (.ptag (fD w) (fA w) (fB w) (fX w) (fY w))
  | 4 => okIf true (.premap (fD w) (fA w) (fB w) (fX w) (fY w))
  | 5 => okIf true (.pscrub (fD w) (fA w) (fB w) (fX w) (fY w))
  | 6 => okIf true (.pcoll (fD w) (fA w) (fB w) (fX w) (fY w))
  | 7 => okIf true (.pslotLoadEntries (fD w) (fA w) (fB w) (fX w) (fY w))
  | 8 => okIf ((fB w == 0#5) && !fY w) (.pq (fD w) (fA w) (fX w))
  | n => .error (.function 0x25 n)

/-- The BREW family, op 0x26 (R30). -/
def decodeBrew (w : BitVec 32) : Except DecodeErr Instr :=
  match (fFn w).toNat with
  | 0 => okIf true (.brwld (fD w) (fA w) (fB w) (fX w) (fY w))
  | 1 => okIf true (.brwarm (fD w) (fA w) (fB w) (fX w) (fY w))
  | 2 => okIf true (.brwpost (fD w) (fA w) (fB w) (fX w) (fY w))
  | 3 => okIf ((fB w == 0#5) && !fY w) (.brwfree (fD w) (fA w) (fX w))
  | 4 => okIf ((fB w == 0#5) && !fY w) (.brwq (fD w) (fA w) (fX w))
  | n => .error (.function 0x26 n)

/-- The SYS family, op 0x27 (R30). -/
def decodeSys (w : BitVec 32) : Except DecodeErr Instr :=
  match (fFn4 w).toNat with
  | 0 => okIf ((fA w == 0#5)) (.csrr (fD w) (fCsr w))
  | 1 => okIf true (.csrw (fD w) (fA w) (fCsr w))
  | 2 => okIf true (.csrs (fD w) (fA w) (fCsr w))
  | 3 => okIf true (.csrc (fD w) (fA w) (fCsr w))
  | 4 => (if (fCsr w).extractLsb' 11 1 == 0#1 then okIf true (.trap (fD w) (fA w) ((fCsr w).extractLsb' 0 11))
    else okIf ((fD w == 0#5) && (fA w == 0#5)) (.brkpt ((fCsr w).extractLsb' 0 11)))
  | 5 => okIf ((fD w == 0#5) && (fA w == 0#5) && (fCsr w == 0#12)) .eret
  | 6 => okIf ((fD w == 0#5) && (fA w == 0#5) && (fCsr w == 0#12)) .upret
  | 7 => okIf ((fCsr w == 0#12)) (.wfe (fD w) (fA w))
  | 8 => okIf (((fCsr w).extractLsb' 8 4 == 0#4)) (.routld (fD w) (fA w) ((fCsr w).extractLsb' 0 8))
  | n => .error (.function 0x27 n)

/-- The SFP family, op 0x28 (R30). -/
def decodeSfp (w : BitVec 32) : Except DecodeErr Instr :=
  match (fFn w).toNat with
  | 0 => okIf true (.fadd (fD w) (fA w) (fB w) (fX w) (fY w))
  | 1 => okIf true (.fsub (fD w) (fA w) (fB w) (fX w) (fY w))
  | 2 => okIf true (.fmul (fD w) (fA w) (fB w) (fX w) (fY w))
  | 3 => okIf true (.ffma (fD w) (fA w) (fB w) (fX w) (fY w))
  | 4 => okIf true (.fdiv (fD w) (fA w) (fB w) (fX w) (fY w))
  | 5 => okIf ((fB w == 0#5) && !fY w) (.fsqrt (fD w) (fA w) (fX w))
  | 6 => okIf true (.fmin (fD w) (fA w) (fB w) (fX w) (fY w))
  | 7 => okIf true (.fmax (fD w) (fA w) (fB w) (fX w) (fY w))
  | 8 => okIf true (.fcmp (fD w) (fA w) (fB w) (fX w) (fY w))
  | 9 => okIf true (.fcvt (fD w) (fA w) (fB w) (fX w) (fY w))
  | 10 => okIf ((fB w == 0#5) && !fY w) (.fclass (fD w) (fA w) (fX w))
  | n => .error (.function 0x28 n)

/-- The PTR family, op 0x29 (R30). -/
def decodePtr (w : BitVec 32) : Except DecodeErr Instr :=
  match (fFn w).toNat with
  | 0 => okIf true (.addp (fD w) (fA w) (fB w) (fX w) (fY w))
  | 1 => okIf true (.pfmt (fD w) (fA w) (fB w) (fX w) (fY w))
  | 2 => okIf true (.pidx (fD w) (fA w) (fB w) (fX w) (fY w))
  | 3 => okIf true (.pdiff (fD w) (fA w) (fB w) (fX w) (fY w))
  | 4 => okIf ((fB w == 0#5) && !fY w) (.pstrip (fD w) (fA w) (fX w))
  | n => .error (.function 0x29 n)

/-- The instruction a word encodes (R29). -/
def decode (w : BitVec 32) : Except DecodeErr Instr :=
  match (fOp w).toNat with
  | 0x01 => decodeAlu w
  | 0x02 => okIf true (.addi (fD w) (fA w) (fX15 w) (fImm15 w))
  | 0x03 => okIf true (.andi (fD w) (fA w) (fX15 w) (fImm15 w))
  | 0x04 => okIf true (.ori (fD w) (fA w) (fX15 w) (fImm15 w))
  | 0x05 => okIf true (.xori (fD w) (fA w) (fX15 w) (fImm15 w))
  | 0x06 => okIf true (.slti (fD w) (fA w) (fX15 w) (fImm15 w))
  | 0x07 => okIf true (.sltiu (fD w) (fA w) (fX15 w) (fImm15 w))
  | 0x08 => decodeShi w
  | 0x09 => okIf true (.lui (fD w) (fImm21 w))
  | 0x0A => okIf true (.lih (fD w) (fImm21 w))
  | 0x0B => okIf true (.addpc (fD w) (fImm21 w))
  | 0x0C => okIf true (.ld (fD w) (fA w) (fX15 w) (fSz w) (fOff12 w))
  | 0x0D => okIf true (.ldn (fD w) (fA w) (fX15 w) (fSz w) (fOff12 w))
  | 0x0E => okIf true (.ldf (fD w) (fA w) (fX15 w) (fSz w) (fOff12 w))
  | 0x0F => okIf true (.ldfe (fD w) (fA w) (fX15 w) (fSz w) (fOff12 w))
  | 0x10 => okIf true (.st (fD w) (fA w) (fX15 w) (fSz w) (fOff12 w))
  | 0x11 => okIf true (.ste (fD w) (fA w) (fX15 w) (fSz w) (fOff12 w))
  | 0x12 => okIf true (.stf (fD w) (fA w) (fX15 w) (fSz w) (fOff12 w))
  | 0x13 => decodeAmo w
  | 0x14 => okIf true (.beq (fD w) (fA w) (fX15 w) (fY14 w) (fOff14 w))
  | 0x15 => okIf true (.bne (fD w) (fA w) (fX15 w) (fY14 w) (fOff14 w))
  | 0x16 => okIf true (.blt (fD w) (fA w) (fX15 w) (fY14 w) (fOff14 w))
  | 0x17 => okIf true (.bge (fD w) (fA w) (fX15 w) (fY14 w) (fOff14 w))
  | 0x18 => okIf true (.bltu (fD w) (fA w) (fX15 w) (fY14 w) (fOff14 w))
  | 0x19 => okIf true (.bgeu (fD w) (fA w) (fX15 w) (fY14 w) (fOff14 w))
  | 0x1A => okIf true (.jal (fD w) (fImm21 w))
  | 0x1B => okIf true (.jalr (fD w) (fA w) (fX15 w) (fImm15 w))
  | 0x1C => decodeMsg w
  | 0x1D => decodeTask w
  | 0x1E => decodeSync w
  | 0x1F => decodeMemx w
  | 0x20 => decodeValu w
  | 0x21 => decodeVfp w
  | 0x22 => decodeVmem w
  | 0x23 => decodeVmisc w
  | 0x24 => decodeEng w
  | 0x25 => decodePour w
  | 0x26 => decodeBrew w
  | 0x27 => decodeSys w
  | 0x28 => decodeSfp w
  | 0x29 => decodePtr w
  | op => .error (.opcode op)

/-- The decoder's answer to a word of the opcode table, bit 0 the least significant bit of the word (R2, R24). -/
def decodeTableWord (nbits w : Nat) : Option Instr :=
  if nbits ≤ 32 ∧ w < 2 ^ 32 then (decode (BitVec.ofNat 32 w)).toOption else none

/-! The nine layouts of R24 (EC is laid out as RR, VM as V). -/

def packRR (op : BitVec 6) (d a b : BitVec 5) (x y : Bool) (fn : BitVec 9) : BitVec 32 :=
  op ++ d ++ a ++ b ++ BitVec.ofBool x ++ BitVec.ofBool y ++ fn
def packRI (op : BitVec 6) (d a : BitVec 5) (x : Bool) (i : BitVec 15) : BitVec 32 :=
  op ++ d ++ a ++ BitVec.ofBool x ++ i
def packM (op : BitVec 6) (d a : BitVec 5) (x : Bool) (z : BitVec 3) (o : BitVec 12) : BitVec 32 :=
  op ++ d ++ a ++ BitVec.ofBool x ++ z ++ o
def packB (op : BitVec 6) (a b : BitVec 5) (x y : Bool) (o : BitVec 14) : BitVec 32 :=
  op ++ a ++ b ++ BitVec.ofBool x ++ BitVec.ofBool y ++ o
def packJ (op : BitVec 6) (d : BitVec 5) (i : BitVec 21) : BitVec 32 := op ++ d ++ i
def packV (op : BitVec 6) (d a b : BitVec 5) (m : BitVec 3) (r7 r6 r5 : Bool) (fn : BitVec 5) : BitVec 32 :=
  op ++ d ++ a ++ b ++ m ++ BitVec.ofBool r7 ++ BitVec.ofBool r6 ++ BitVec.ofBool r5 ++ fn
def packSY (op : BitVec 6) (d a : BitVec 5) (csr : BitVec 12) (fn : BitVec 4) : BitVec 32 :=
  op ++ d ++ a ++ csr ++ fn

/-- The word of an instruction; a step of the device has none. -/
def encode (i : Instr) : Option (BitVec 32) :=
  match i with
  | .add d a b x y => some (packRR 0x01#6 d a b x y 0#9)
  | .sub d a b x y => some (packRR 0x01#6 d a b x y 1#9)
  | .and d a b x y => some (packRR 0x01#6 d a b x y 2#9)
  | .or d a b x y => some (packRR 0x01#6 d a b x y 3#9)
  | .xor d a b x y => some (packRR 0x01#6 d a b x y 4#9)
  | .andn d a b x y => some (packRR 0x01#6 d a b x y 5#9)
  | .sll d a b x y => some (packRR 0x01#6 d a b x y 6#9)
  | .srl d a b x y => some (packRR 0x01#6 d a b x y 7#9)
  | .sra d a b x y => some (packRR 0x01#6 d a b x y 8#9)
  | .rol d a b x y => some (packRR 0x01#6 d a b x y 9#9)
  | .slt d a b x y => some (packRR 0x01#6 d a b x y 10#9)
  | .sltu d a b x y => some (packRR 0x01#6 d a b x y 11#9)
  | .min d a b x y => some (packRR 0x01#6 d a b x y 12#9)
  | .max d a b x y => some (packRR 0x01#6 d a b x y 13#9)
  | .minu d a b x y => some (packRR 0x01#6 d a b x y 14#9)
  | .maxu d a b x y => some (packRR 0x01#6 d a b x y 15#9)
  | .mul d a b x y => some (packRR 0x01#6 d a b x y 16#9)
  | .mulh d a b x y => some (packRR 0x01#6 d a b x y 17#9)
  | .mulhu d a b x y => some (packRR 0x01#6 d a b x y 18#9)
  | .div d a b x y => some (packRR 0x01#6 d a b x y 19#9)
  | .divu d a b x y => some (packRR 0x01#6 d a b x y 20#9)
  | .rem d a b x y => some (packRR 0x01#6 d a b x y 21#9)
  | .remu d a b x y => some (packRR 0x01#6 d a b x y 22#9)
  | .clz d a x => some (packRR 0x01#6 d a 0#5 x false 23#9)
  | .ctz d a x => some (packRR 0x01#6 d a 0#5 x false 24#9)
  | .popc d a x => some (packRR 0x01#6 d a 0#5 x false 25#9)
  | .sextb d a x => some (packRR 0x01#6 d a 0#5 x false 26#9)
  | .sexth d a x => some (packRR 0x01#6 d a 0#5 x false 27#9)
  | .sextw d a x => some (packRR 0x01#6 d a 0#5 x false 28#9)
  | .zextw d a x => some (packRR 0x01#6 d a 0#5 x false 29#9)
  | .bswap d a x => some (packRR 0x01#6 d a 0#5 x false 30#9)
  | .selnz d a b x y => some (packRR 0x01#6 d a b x y 31#9)
  | .addi d a x i => some (packRI 0x02#6 d a x i)
  | .andi d a x i => some (packRI 0x03#6 d a x i)
  | .ori d a x i => some (packRI 0x04#6 d a x i)
  | .xori d a x i => some (packRI 0x05#6 d a x i)
  | .slti d a x i => some (packRI 0x06#6 d a x i)
  | .sltiu d a x i => some (packRI 0x07#6 d a x i)
  | .slli d a x s => some (packRI 0x08#6 d a x (0#3 ++ 0#6 ++ s))
  | .srli d a x s => some (packRI 0x08#6 d a x (1#3 ++ 0#6 ++ s))
  | .srai d a x s => some (packRI 0x08#6 d a x (2#3 ++ 0#6 ++ s))
  | .roli d a x s => some (packRI 0x08#6 d a x (3#3 ++ 0#6 ++ s))
  | .lui d i => some (packJ 0x09#6 d i)
  | .lih d i => some (packJ 0x0A#6 d i)
  | .addpc d i => some (packJ 0x0B#6 d i)
  | .ld d a x z o => some (packM 0x0C#6 d a x z o)
  | .ldn d a x z o => some (packM 0x0D#6 d a x z o)
  | .ldf d a x z o => some (packM 0x0E#6 d a x z o)
  | .ldfe d a x z o => some (packM 0x0F#6 d a x z o)
  | .st s a x z o => some (packM 0x10#6 s a x z o)
  | .ste s a x z o => some (packM 0x11#6 s a x z o)
  | .stf s a x z o => some (packM 0x12#6 s a x z o)
  | .amoadd d a b x y c w => some (packRR 0x13#6 d a b x y (0#5 ++ c ++ BitVec.ofBool w))
  | .amoand d a b x y c w => some (packRR 0x13#6 d a b x y (1#5 ++ c ++ BitVec.ofBool w))
  | .amoor d a b x y c w => some (packRR 0x13#6 d a b x y (2#5 ++ c ++ BitVec.ofBool w))
  | .amoxor d a b x y c w => some (packRR 0x13#6 d a b x y (3#5 ++ c ++ BitVec.ofBool w))
  | .amomin d a b x y c w => some (packRR 0x13#6 d a b x y (4#5 ++ c ++ BitVec.ofBool w))
  | .amomax d a b x y c w => some (packRR 0x13#6 d a b x y (5#5 ++ c ++ BitVec.ofBool w))
  | .amominu d a b x y c w => some (packRR 0x13#6 d a b x y (6#5 ++ c ++ BitVec.ofBool w))
  | .amomaxu d a b x y c w => some (packRR 0x13#6 d a b x y (7#5 ++ c ++ BitVec.ofBool w))
  | .amoswap d a b x y c w => some (packRR 0x13#6 d a b x y (8#5 ++ c ++ BitVec.ofBool w))
  | .amocas d a b x y c w => some (packRR 0x13#6 d a b x y (9#5 ++ c ++ BitVec.ofBool w))
  | .amofadd d a b x y c => some (packRR 0x13#6 d a b x y (10#5 ++ c ++ BitVec.ofBool false))
  | .beq a b x y o => some (packB 0x14#6 a b x y o)
  | .bne a b x y o => some (packB 0x15#6 a b x y o)
  | .blt a b x y o => some (packB 0x16#6 a b x y o)
  | .bge a b x y o => some (packB 0x17#6 a b x y o)
  | .bltu a b x y o => some (packB 0x18#6 a b x y o)
  | .bgeu a b x y o => some (packB 0x19#6 a b x y o)
  | .jal d i => some (packJ 0x1A#6 d i)
  | .jalr d a x i => some (packRI 0x1B#6 d a x i)
  | .send a b x y => some (packRR 0x1C#6 0#5 a b x y 0#9)
  | .sendc a b x y => some (packRR 0x1C#6 0#5 a b x y 1#9)
  | .sendb d a b x y => some (packRR 0x1C#6 d a b x y 2#9)
  | .hret => some (packRR 0x1C#6 0#5 0#5 0#5 false false 3#9)
  | .hyield a x => some (packRR 0x1C#6 0#5 a 0#5 x false 4#9)
  | .chset d a b x y => some (packRR 0x1C#6 d a b x y 5#9)
  | .chmask d a b x y => some (packRR 0x1C#6 d a b x y 6#9)
  | .charm d a b x y => some (packRR 0x1C#6 d a b x y 7#9)
  | .fork d a b x y => some (packRR 0x1D#6 d a b x y 0#9)
  | .taskend a x => some (packRR 0x1D#6 0#5 a 0#5 x false 1#9)
  | .rejoin d a b x y => some (packRR 0x1D#6 d a b x y 2#9)
  | .trig => some (packRR 0x1D#6 0#5 0#5 0#5 false false 3#9)
  | .joinch d a x => some (packRR 0x1D#6 d a 0#5 x false 4#9)
  | .fenceAcq s i => some (packRR 0x1E#6 0#5 0#5 (s ++ 0#2) false i 0#9)
  | .fenceRel s i => some (packRR 0x1E#6 0#5 0#5 (s ++ 1#2) false i 0#9)
  | .fenceFull s i => some (packRR 0x1E#6 0#5 0#5 (s ++ 2#2) false i 0#9)
  | .fencesc s => some (packRR 0x1E#6 0#5 0#5 (s ++ 0#2) false false 1#9)
  | .rbegin d => some (packRR 0x1E#6 d 0#5 0#5 false false 2#9)
  | .rcommit => some (packRR 0x1E#6 0#5 0#5 0#5 false false 3#9)
  | .rabort a x => some (packRR 0x1E#6 0#5 a 0#5 x false 4#9)
  | .waitc c a x => some (packRR 0x1E#6 (0#1 ++ c) a 0#5 x false 5#9)
  | .ship d a b x y n => some (packRR 0x1F#6 d a b x y (0#1 ++ n))
  | .chain d a b x y => some (packRR 0x1F#6 d a b x y 256#9)
  | .rowopen a x => some (packRR 0x1F#6 0#5 a 0#5 x false 257#9)
  | .rowhold d a x => some (packRR 0x1F#6 d a 0#5 x false 258#9)
  | .rowrel a x => some (packRR 0x1F#6 0#5 a 0#5 x false 259#9)
  | .rowq d a x => some (packRR 0x1F#6 d a 0#5 x false 260#9)
  | .nbprog d a x => some (packRR 0x1F#6 d a 0#5 x false 261#9)
  | .nbstat d a x => some (packRR 0x1F#6 d a 0#5 x false 262#9)
  | .vadd vd va vb m => some (packV 0x20#6 vd.n va.n vb.n m vd.rel va.rel vb.rel 0#5)
  | .vsub vd va vb m => some (packV 0x20#6 vd.n va.n vb.n m vd.rel va.rel vb.rel 1#5)
  | .vmul vd va vb m => some (packV 0x20#6 vd.n va.n vb.n m vd.rel va.rel vb.rel 2#5)
  | .vmulh vd va vb m => some (packV 0x20#6 vd.n va.n vb.n m vd.rel va.rel vb.rel 3#5)
  | .vand vd va vb m => some (packV 0x20#6 vd.n va.n vb.n m vd.rel va.rel vb.rel 4#5)
  | .vor vd va vb m => some (packV 0x20#6 vd.n va.n vb.n m vd.rel va.rel vb.rel 5#5)
  | .vxor vd va vb m => some (packV 0x20#6 vd.n va.n vb.n m vd.rel va.rel vb.rel 6#5)
  | .vsll vd va vb m => some (packV 0x20#6 vd.n va.n vb.n m vd.rel va.rel vb.rel 7#5)
  | .vsrl vd va vb m => some (packV 0x20#6 vd.n va.n vb.n m vd.rel va.rel vb.rel 8#5)
  | .vsra vd va vb m => some (packV 0x20#6 vd.n va.n vb.n m vd.rel va.rel vb.rel 9#5)
  | .vmin vd va vb m => some (packV 0x20#6 vd.n va.n vb.n m vd.rel va.rel vb.rel 10#5)
  | .vmax vd va vb m => some (packV 0x20#6 vd.n va.n vb.n m vd.rel va.rel vb.rel 11#5)
  | .vminu vd va vb m => some (packV 0x20#6 vd.n va.n vb.n m vd.rel va.rel vb.rel 12#5)
  | .vmaxu vd va vb m => some (packV 0x20#6 vd.n va.n vb.n m vd.rel va.rel vb.rel 13#5)
  | .vcmpeq d va vb m => some (packV 0x20#6 (0#2 ++ d) va.n vb.n m false va.rel vb.rel 14#5)
  | .vcmplt d va vb m => some (packV 0x20#6 (0#2 ++ d) va.n vb.n m false va.rel vb.rel 15#5)
  | .vcmpltu d va vb m => some (packV 0x20#6 (0#2 ++ d) va.n vb.n m false va.rel vb.rel 16#5)
  | .vabs vd va m => some (packV 0x20#6 vd.n va.n 0#5 m vd.rel va.rel false 17#5)
  | .vfadd vd va vb m => some (packV 0x21#6 vd.n va.n vb.n m vd.rel va.rel vb.rel 0#5)
  | .vfsub vd va vb m => some (packV 0x21#6 vd.n va.n vb.n m vd.rel va.rel vb.rel 1#5)
  | .vfmul vd va vb m => some (packV 0x21#6 vd.n va.n vb.n m vd.rel va.rel vb.rel 2#5)
  | .vffma vd va vb m => some (packV 0x21#6 vd.n va.n vb.n m vd.rel va.rel vb.rel 3#5)
  | .vfmin vd va vb m => some (packV 0x21#6 vd.n va.n vb.n m vd.rel va.rel vb.rel 4#5)
  | .vfmax vd va vb m => some (packV 0x21#6 vd.n va.n vb.n m vd.rel va.rel vb.rel 5#5)
  | .vfdiv vd va vb m => some (packV 0x21#6 vd.n va.n vb.n m vd.rel va.rel vb.rel 6#5)
  | .vfsqrt vd va m => some (packV 0x21#6 vd.n va.n 0#5 m vd.rel va.rel false 7#5)
  | .vfrcp vd va m => some (packV 0x21#6 vd.n va.n 0#5 m vd.rel va.rel false 8#5)
  | .vfrsq vd va m => some (packV 0x21#6 vd.n va.n 0#5 m vd.rel va.rel false 9#5)
  | .vfexp2 vd va m => some (packV 0x21#6 vd.n va.n 0#5 m vd.rel va.rel false 10#5)
  | .vflog2 vd va m => some (packV 0x21#6 vd.n va.n 0#5 m vd.rel va.rel false 11#5)
  | .vfcmp vd va vb m => some (packV 0x21#6 vd.n va.n vb.n m vd.rel va.rel vb.rel 12#5)
  | .vcvt vd va c m => some (packV 0x21#6 vd.n va.n c m vd.rel va.rel false 13#5)
  | .vred vd va o m => some (packV 0x21#6 vd.n va.n o m vd.rel va.rel false 14#5)
  | .vdot2 vd va vb m => some (packV 0x21#6 vd.n va.n vb.n m vd.rel va.rel vb.rel 15#5)
  | .vld vd g m => some (packV 0x22#6 vd.n 0#5 g m vd.rel false false 0#5)
  | .vst vd g m => some (packV 0x22#6 vd.n 0#5 g m vd.rel false false 1#5)
  | .vlds vd s g m => some (packV 0x22#6 vd.n s g m vd.rel false false 2#5)
  | .vsts vd s g m => some (packV 0x22#6 vd.n s g m vd.rel false false 3#5)
  | .vgath vd va g m => some (packV 0x22#6 vd.n va.n g m vd.rel va.rel false 4#5)
  | .vscat vd va g m => some (packV 0x22#6 vd.n va.n g m vd.rel va.rel false 5#5)
  | .vldf vd g m => some (packV 0x22#6 vd.n 0#5 g m vd.rel false false 6#5)
  | .vmovgToMask d g => some (packV 0x23#6 (0#2 ++ d) 0#5 g 0#3 false false false 0#5)
  | .vmovgFromMask d a => some (packV 0x23#6 d 1#5 (0#2 ++ a) 0#3 false false false 0#5)
  | .vmovv vd va m => some (packV 0x23#6 vd.n va.n 0#5 m vd.rel va.rel false 1#5)
  | .vbcast vd g m => some (packV 0x23#6 vd.n 0#5 g m vd.rel false false 2#5)
  | .vext d va g => some (packV 0x23#6 d va.n g 0#3 false va.rel false 3#5)
  | .vins vd l g => some (packV 0x23#6 vd.n (0#1 ++ l) g 0#3 vd.rel false false 4#5)
  | .vsel vd va vb m => some (packV 0x23#6 vd.n va.n vb.n m vd.rel va.rel vb.rel 5#5)
  | .vshuf vd va vb m => some (packV 0x23#6 vd.n va.n vb.n m vd.rel va.rel vb.rel 6#5)
  | .viadd w g => some (packV 0x23#6 w 0#5 g 0#3 false false false 7#5)
  | .mand d a b => some (packV 0x23#6 (0#2 ++ d) (0#2 ++ a) (0#2 ++ b) 0#3 false false false 8#5)
  | .mor d a b => some (packV 0x23#6 (0#2 ++ d) (0#2 ++ a) (0#2 ++ b) 0#3 false false false 9#5)
  | .mnot d a => some (packV 0x23#6 (0#2 ++ d) (0#2 ++ a) 0#5 0#3 false false false 10#5)
  | .mpop d a => some (packV 0x23#6 d (0#2 ++ a) 0#5 0#3 false false false 11#5)
  | .ecfg n a x => some (packRR 0x24#6 (n.extractLsb' 0 5) a (0#4 ++ n.extractLsb' 5 1) x false 0#9)
  | .eread d n => some (packRR 0x24#6 d (n.extractLsb' 0 5) (0#4 ++ n.extractLsb' 5 1) false false 1#9)
  | .fldset n a w x => some (packRR 0x24#6 (0#1 ++ n) a (0#2 ++ w) x false 2#9)
  | .fldget d n w => some (packRR 0x24#6 d (0#1 ++ n) (0#2 ++ w) false false 3#9)
  | .mma d b y => some (packRR 0x24#6 d 0#5 b false y 4#9)
  | .apply d b y => some (packRR 0x24#6 d 0#5 b false y 5#9)
  | .diag d b y => some (packRR 0x24#6 d 0#5 b false y 6#9)
  | .perm n a x => some (packRR 0x24#6 (0#1 ++ n) a 0#5 x false 7#9)
  | .matl d b y => some (packRR 0x24#6 d 0#5 b false y 8#9)
  | .accld d b y => some (packRR 0x24#6 d 0#5 b false y 9#9)
  | .accst d b y => some (packRR 0x24#6 d 0#5 b false y 10#9)
  | .accz d b y => some (packRR 0x24#6 d 0#5 b false y 11#9)
  | .estat d a x => some (packRR 0x24#6 d a 0#5 x false 12#9)
  | .ctload d a b x y => some (packRR 0x24#6 d a b x y 13#9)
  | .ctswap d => some (packRR 0x24#6 d 0#5 0#5 false false 14#9)
  | .eresume d a b x y => some (packRR 0x24#6 d a b x y 15#9)
  | .abandon d a b x y => some (packRR 0x24#6 d a b x y 15#9)
  | .lcopy d a b x y => some (packRR 0x25#6 d a b x y 0#9)
  | .pcopy d a b x y => some (packRR 0x25#6 d a b x y 1#9)
  | .pfill d a b x y => some (packRR 0x25#6 d a b x y 2#9)
  | .ptag d a b x y => some (packRR 0x25#6 d a b x y 3#9)
  | .premap d a b x y => some (packRR 0x25#6 d a b x y 4#9)
  | .pscrub d a b x y => some (packRR 0x25#6 d a b x y 5#9)
  | .pcoll d a b x y => some (packRR 0x25#6 d a b x y 6#9)
  | .pslotLoadEntries d a b x y => some (packRR 0x25#6 d a b x y 7#9)
  | .pslotStoreEntries d a b x y => some (packRR 0x25#6 d a b x y 7#9)
  | .pslotLoadControl d a b x y => some (packRR 0x25#6 d a b x y 7#9)
  | .pslotStatus d a b x y => some (packRR 0x25#6 d a b x y 7#9)
  | .pq d a x => some (packRR 0x25#6 d a 0#5 x false 8#9)
  | .brwld d a b x y => some (packRR 0x26#6 d a b x y 0#9)
  | .brwarm d a b x y => some (packRR 0x26#6 d a b x y 1#9)
  | .disarm d a b x y => some (packRR 0x26#6 d a b x y 1#9)
  | .brwpost d a b x y => some (packRR 0x26#6 d a b x y 2#9)
  | .brwfree d a x => some (packRR 0x26#6 d a 0#5 x false 3#9)
  | .brwq d a x => some (packRR 0x26#6 d a 0#5 x false 4#9)
  | .csrr d c => some (packSY 0x27#6 d 0#5 c 0#4)
  | .csrw d a c => some (packSY 0x27#6 d a c 1#4)
  | .csrs d a c => some (packSY 0x27#6 d a c 2#4)
  | .csrc d a c => some (packSY 0x27#6 d a c 3#4)
  | .trap d a c => some (packSY 0x27#6 d a (0#1 ++ c) 4#4)
  | .brkpt c => some (packSY 0x27#6 0#5 0#5 (1#1 ++ c) 4#4)
  | .eret => some (packSY 0x27#6 0#5 0#5 0#12 5#4)
  | .upret => some (packSY 0x27#6 0#5 0#5 0#12 6#4)
  | .wfe d a => some (packSY 0x27#6 d a 0#12 7#4)
  | .routld d a i => some (packSY 0x27#6 d a (0#4 ++ i) 8#4)
  | .fadd d a b x y => some (packRR 0x28#6 d a b x y 0#9)
  | .fsub d a b x y => some (packRR 0x28#6 d a b x y 1#9)
  | .fmul d a b x y => some (packRR 0x28#6 d a b x y 2#9)
  | .ffma d a b x y => some (packRR 0x28#6 d a b x y 3#9)
  | .fdiv d a b x y => some (packRR 0x28#6 d a b x y 4#9)
  | .fsqrt d a x => some (packRR 0x28#6 d a 0#5 x false 5#9)
  | .fmin d a b x y => some (packRR 0x28#6 d a b x y 6#9)
  | .fmax d a b x y => some (packRR 0x28#6 d a b x y 7#9)
  | .fcmp d a b x y => some (packRR 0x28#6 d a b x y 8#9)
  | .fcvt d a b x y => some (packRR 0x28#6 d a b x y 9#9)
  | .fclass d a x => some (packRR 0x28#6 d a 0#5 x false 10#9)
  | .addp d a b x y => some (packRR 0x29#6 d a b x y 0#9)
  | .pfmt d a b x y => some (packRR 0x29#6 d a b x y 1#9)
  | .pidx d a b x y => some (packRR 0x29#6 d a b x y 2#9)
  | .pdiff d a b x y => some (packRR 0x29#6 d a b x y 3#9)
  | .pstrip d a x => some (packRR 0x29#6 d a 0#5 x false 4#9)
  | .illop _ => none
  | .issueRetry _ => none
  | .upcall _ => none
  | .producerLands _ _ => none
  | .requestComplete _ _ => none
  | .parkedAccess _ _ => none
  | .deferredUpcall _ => none
  | .engfault _ => none
  | .wfeTimeout _ => none
  | .tagServe _ => none
  | .activeMessageArrival _ _ _ => none
  | .counterMessage _ _ => none
  | .outboundRetry _ _ => none
  | .startActiveMessage _ _ => none
  | .startCounterFiring _ _ => none
  | .taskPop _ => none
  | .taskSteal _ => none
  | .jobStart _ _ _ => none
  | .jobProgress _ _ _ => none
  | .jobComplete _ _ _ => none
  | .jobStop _ _ _ _ => none
  | .remapStart _ _ _ => none
  | .remapComplete _ _ _ => none
  | .routineCall _ _ => none
  | .chainStep _ _ => none
  | .tagPass _ => none
  | .rowStep _ => none
  | .rowBoundaryYield _ => none
  | .heldRowRefresh _ _ => none
  | .chbaseWrite _ => none
  | .vallocWrite _ => none
  | .create _ => none
  | .resume _ => none
  | .preempt _ => none
  | .destroy _ => none
  | .slotHalt _ => none
  | .saveComplete _ => none
  | .faultRecord _ _ => none
  | .interrupt _ => none
  | .xinv _ => none
  | .grantLoad _ => none
  | .recall _ => none
  | .doorbell _ _ _ => none
  | .devnum _ => none
  | .hoststat => none
  | .hostRegisterWrite _ _ => none
  | .hostMemoryWrite _ _ => none
  | .unsupportedRequest => none
  | .descriptorTake _ _ => none
  | .dependenceMet _ => none
  | .groupPlace _ => none
  | .groupExit _ _ => none
  | .brewEvaluate => none
  | .brwpostArrival _ => none
  | .routerCycle _ _ _ => none
  | .kdpPacket _ _ _ => none
  | .slotBoundary => none
  | .rotationBoundary => none
  | .windowSend _ _ _ => none
  | .frameReceive _ _ _ => none
  | .pull _ => none
  | .peerAccess _ => none
  | .peerMessage _ _ => none
  | .blockApply _ => none
  | .acknowledgement _ _ _ _ _ => none
  | .remoteTimeLimit _ _ => none
  | .linkDown _ => none
  | .rollback _ => none
  | .correctedError _ => none
  | .uncorrectableError _ _ => none
  | .spareReplacement _ => none
  | .dieRenumbering _ => none
  | .linkReroute _ => none
  | .alignmentExchange _ _ _ _ _ => none
  | .alignmentLost => none
  | .powerGood => none
  | .bootPhase _ _ _ => none
  | .pwrlimClockStep _ => none

end Sys2Proof
end

