-- ==== Sys2Proof/Machine/VMem.lean ====
section
/-!
DEFINITION. The VMEM family (R105 to R111): addresses of lanes and records, the checks at issue, and the requests that
later steps perform.
-/

namespace Sys2Proof.Machine

/-- Element size of a vector access by format, 0 for a record (R105). -/
def vecWidth (fmt : Nat) : Nat :=
  if isBlock fmt then 0
  else if fmt = 0 || fmt = 3 || fmt = 7 || fmt = 10 then 4
  else if fmt = 1 || fmt = 5 || (12 ≤ fmt && fmt ≤ 15) then 1
  else if fmt = 2 || fmt = 6 || fmt = 8 || fmt = 9 || fmt = 16 then 2
  else 8

/-- p + off modulo 2^56 (R105). -/
def laneAddr (p : Word) (off : Int) : Nat := ((addr56 p : Int) + off).emod (2 ^ 56) |>.toNat

/-- The active elements with their addresses, ascending: element j of 8 bytes takes mask bit 2j; a record is element 0 (R106). -/
def vecElems (w : Nat) (mask : BitVec 16) (p : Word) (off : Nat → Int) : List (Nat × Nat) :=
  if w = 0 then [(0, addr56 p)]
  else if w = 8 then ((List.range 8).filter fun j => mask.getLsbD (2 * j)).map fun j => (j, laneAddr p (off j))
  else (activeLanes mask).map fun i => (i, laneAddr p (off i))

/-- Bytes of the access of one element: a record takes the layout of its region (R57, R106). -/
def vecBytes (fmt w ea : Nat) : Nat := if w = 0 then elemSize fmt (inWin ea) else w

/-- The first element that is misaligned: a record need be aligned only in a scratchpad (R106). -/
def vecMisaligned (w : Nat) (es : List (Nat × Nat)) : Option Nat :=
  (es.find? fun e => if w = 0 then inWin e.2 && e.2 % 4 ≠ 0 else e.2 % w ≠ 0).map (·.2)

/-- The first local element whose translation or window check fails, with the cause (R107, R141). -/
def vecFault (s : State) (fmt w : Nat) (perm : Perm) : List (Nat × Nat) → Option (BitVec 8 × Nat)
  | [] => none
  | e :: rest =>
    if isPeer e.2 then vecFault s fmt w perm rest
    else match s.resolve (s.agent s.cur) e.2 (vecBytes fmt w e.2) perm with
      | .error c => some (c, e.2)
      | .ok _ => vecFault s fmt w perm rest

/-- The translation slices keep what the elements used. -/
def State.touchAll (s : State) (fmt w : Nat) : List (Nat × Nat) → State
  | [] => s
  | e :: rest => (if isPeer e.2 then s else s.translated (s.agent s.cur) e.2 (vecBytes fmt w e.2)).touchAll fmt w rest

/-- The checks that every vector access makes once its operands are read (R43, R105 to R107, R78, R39); `word` is the
instruction, for the mask of a record access; `allowed` says which widths and formats the form takes. -/
def vecAccess (s : State) (word : Option (BitVec 32)) (p : Word) (m : MReg) (allowed : Nat → Nat → Bool) (perm : Perm)
    (off : Nat → Int) (k : Nat → Nat → List (Nat × Nat) → Out) : Out :=
  let fmt := ptrFmt p
  let w := vecWidth fmt
  if !ptrOk p || !allowed fmt w then s.trap cFMTFAULT p
  else if w = 0 && m ≠ 0 then s.illegal (word.getD 0)
  else
    let es := vecElems w (s.me.readM m) p off
    match vecMisaligned w es with
    | some ea => s.trap cMISALIGN (withAddr p ea)
    | none =>
      match es.find? fun e => s.ownDevice e.2 with
      | some e => s.trap cACCESS (withAddr p e.2)
      | none =>
        if s.me.acquiring || (perm.w && s.releasing s.cur) || es.any fun e => s.me.waitsFor e.2 (vecBytes fmt w e.2) || s.me.parkedOver e.2 (vecBytes fmt w e.2) then s.stall
        else
          match vecFault s fmt w perm es with
          | some (c, ea) => if inWin ea then s.trap c (BitVec.ofNat 64 ea) else s.trapAt c ea
          | none =>
            if !(es.all fun e => ownPad s.cur.core e.2 (vecBytes fmt w e.2)) && s.myCore.outstFull then s.stall
            else k fmt w es

/-- OUTST counts a vector access unless every element lies in the issuing core's own scratchpad (R110). -/
def vecCounted (core fmt w : Nat) (es : List (Nat × Nat)) : Bool := !es.all fun e => ownPad core e.2 (vecBytes fmt w e.2)

/-- Sends the frames of the peer elements of request `req`, in element order (R274). -/
def sendVec (s : State) (req : Nat) (es : List (Nat × Nat)) (op : Nat × Nat → PeerOp) : State :=
  s.sendFrames s.cur req ((es.filter fun e => isPeer e.2).map fun e => (e.1, peerDev e.2, op e))

/-- A vector load: vd is empty from issue until the last element lands (R108). -/
def vecLoad (s : State) (d fmt w : Nat) (es : List (Nat × Nat)) : Out :=
  if es = [] then s.done
  else
    let n := s.nextReq
    let s := s.touchAll fmt w es
    let peer := es.any fun e => isPeer e.2
    let s := s.addReq (.vld d w (BitVec.ofNat 5 fmt) (es.map fun e => (e.1, BitVec.ofNat 64 e.2)) [])
      (vecCounted s.cur.core fmt w es) peer
    let s := (s.modCore s.cur.core fun c => c.setTagV d .empty).modMe Slot.next
    .next (sendVec s n es fun e => .read (peerOff e.2) (vecBytes fmt w e.2))

/-- The bytes that element i of a store writes: the low bytes of its lane, two lanes, or the record (R106). -/
def vecData (v : Vector Word32 16) (fmt w ea i : Nat) : List Byte :=
  if w = 0 then (bytesOf v).take (packedSize fmt) ++ (if inWin ea then [0, 0, 0] else [])
  else if w = 8 then toBytes 4 (lane v (2 * i)).toNat ++ toBytes 4 (lane v (2 * i + 1)).toNat
  else stored fmt (toBytes w (lane v i).toNat)
where
  /-- The bytes of a vector register. -/
  bytesOf (v : Vector Word32 16) : List Byte := v.toList.flatMap fun w => toBytes 4 w.toNat

/-- A posted vector store: its data leave the register at issue (R109). -/
def vecStore (s : State) (v : Vector Word32 16) (fmt w : Nat) (es : List (Nat × Nat)) : Out :=
  if es = [] then s.done
  else
    let n := s.nextReq
    let s := s.touchAll fmt w es
    let peer := es.any fun e => isPeer e.2
    let s := (s.addReq (.vst (es.map fun e => (e.1, BitVec.ofNat 64 e.2, vecData v fmt w e.2 e.1)))
      (vecCounted s.cur.core fmt w es) peer).modMe Slot.next
    .next (sendVec s n es fun e => .write (peerOff e.2) (vecData v fmt w e.2 e.1))

/-- A masked destination is a source too (R93). -/
def maskedDest (m : MReg) (d : Nat) : List Source := if m = 0 then [] else [.v d]

/-- VLD (R105, R108). -/
def execVld (vd : VReg) (g : Reg) (m : MReg) (s : State) : Out :=
  withV s vd fun d =>
    withOperands s (maskedDest m d ++ [srcB g false]) [.v d] (
      let p := s.me.readG g
      vecAccess s (encode (.vld vd g m)) p m (fun _ _ => true) permR (fun i => i * vecWidth (ptrFmt p)) fun fmt w es =>
        vecLoad s d fmt w es)

/-- VST (R105, R109). -/
def execVst (vd : VReg) (g : Reg) (m : MReg) (s : State) : Out :=
  withV s vd fun d =>
    withOperands s [.v d, srcB g false] [] (
      let p := s.me.readG g
      vecAccess s (encode (.vst vd g m)) p m (fun _ _ => true) permW (fun i => i * vecWidth (ptrFmt p)) fun fmt w es =>
        vecStore s (s.myCore.readV d) fmt w es)

/-- Strided and indexed forms take elements of 1, 2 or 4 bytes (R105). -/
def narrowOnly (_ w : Nat) : Bool := w = 1 || w = 2 || w = 4

/-- VLDS: the stride is in the g register of the va field (R105). -/
def execVlds (vd : VReg) (st g : Reg) (m : MReg) (s : State) : Out :=
  withV s vd fun d =>
    withOperands s (maskedDest m d ++ [srcA st false, srcB g false]) [.v d] (
      vecAccess s none (s.me.readG g) m narrowOnly permR (fun i => i * (s.me.readG st).toInt) fun fmt w es =>
        vecLoad s d fmt w es)

/-- VSTS (R105). -/
def execVsts (vd : VReg) (st g : Reg) (m : MReg) (s : State) : Out :=
  withV s vd fun d =>
    withOperands s [.v d, srcA st false, srcB g false] [] (
      vecAccess s none (s.me.readG g) m narrowOnly permW (fun i => i * (s.me.readG st).toInt) fun fmt w es =>
        vecStore s (s.myCore.readV d) fmt w es)

/-- The byte offset of a lane of an indexed form (R105). -/
def indexOff (v : Vector Word32 16) (w i : Nat) : Int := (lane v i).toInt * w

/-- VGATH (R105). -/
def execVgath (vd va : VReg) (g : Reg) (m : MReg) (s : State) : Out :=
  withV s vd fun d => withV s va fun a =>
    withOperands s (maskedDest m d ++ [.v a, srcB g false]) [.v d] (
      let p := s.me.readG g
      vecAccess s none p m narrowOnly permR (indexOff (s.myCore.readV a) (vecWidth (ptrFmt p))) fun fmt w es =>
        vecLoad s d fmt w es)

/-- VSCAT (R105). -/
def execVscat (vd va : VReg) (g : Reg) (m : MReg) (s : State) : Out :=
  withV s vd fun d => withV s va fun a =>
    withOperands s [.v d, .v a, srcB g false] [] (
      let p := s.me.readG g
      vecAccess s none p m narrowOnly permW (indexOff (s.myCore.readV a) (vecWidth (ptrFmt p))) fun fmt w es =>
        vecStore s (s.myCore.readV d) fmt w es)

/-- The waiters of the lanes of a VLDF on words with live tags (R111, R149). -/
def vldfWaiters (s : State) (req : Nat) (es : List (Nat × Nat)) : List Waiter :=
  es.filterMap fun e =>
    if isPeer e.2 then none
    else match s.resolve (s.agent s.cur) e.2 4 permR with
      | .ok l => if l.tagged then some ⟨s.cur, req, l.keys.headD 0, 4, .lane e.1⟩ else none
      | .error _ => none

/-- VLDF: each lane waits until its word is full (R111), and is an acquire (R157): later accesses wait for its value (DEDUCED: log 32). -/
def execVldf (vd : VReg) (g : Reg) (m : MReg) (s : State) : Out :=
  withV s vd fun d =>
    withOperands s (maskedDest m d ++ [srcB g false]) [.v d] (
      let p := s.me.readG g
      vecAccess s none p m (fun fmt _ => fmt = 0 || fmt = 3 || fmt = 7 || fmt = 10) permR (fun i => i * 4) fun fmt w es =>
        if es = [] then s.done
        else
          let n := s.nextReq
          let s := s.touchAll fmt w es
          let peer := es.any fun e => isPeer e.2
          let s := s.addReq (.vldf d p (s.me.readM m) (es.map fun e => (e.1, BitVec.ofNat 64 e.2)) [] [])
            (vecCounted s.cur.core fmt w es) peer
          let s := (s.modCore s.cur.core fun c => c.setTagV d .empty).modMe fun x => x.next.acquire
          let s := { s with waiters := s.waiters ++ vldfWaiters s n es }
          .next (sendVec s n es fun e => .syncLoad (peerOff e.2) 4 false))

end Sys2Proof.Machine
end

