-- ==== Sys2Proof/Machine/Requests.lean ====
section
/-!
DEFINITION. The steps of a slot's requests and of its boundaries: values land (R15, R75, R108), posted stores are performed
(R76, R109), accesses park (R75, R78, R329), traps are delivered (R85, R87), and waits end (R17, R90, R148, R283).
-/

namespace Sys2Proof.Machine

/-- An access of the request may touch its bytes now: nothing earlier of the slot is before it, and no earlier access that it overlaps
has parked (R78). -/
def Slot.clear (x : Slot) (num ea n : Nat) : Bool :=
  x.mayPerform num ea n && !(x.parked.any fun p => p.num < num && overlaps ea n p.ea.toNat (szBytes p.sz))

/-! ## Producers land -/

/-- An LDN lands (R75). -/
def State.landLoad (s : State) (sl : SlotId) (r : Req) (rd : Reg) (z : BitVec 3) (ea : Nat) : State :=
  let n := szBytes z
  match s.resolve (r.agent sl) ea n permR with
  | .error _ => s
  | .ok l =>
    if !s.bankOpen (.req sl r.num) l then s
    else if (s.badByte sl.core ea l).isSome then s.modSlot sl fun x => ((x.dropReq r.num).poisonG rd cUNCORR (lineAddr ea)).wake
    else
      let v := extend z (s.loadBytes sl.core ea l)
      (s.loadFill (r.agent sl) sl.core ea l).modSlot sl fun x => ((x.dropReq r.num).writeG rd v).wake

/-- The lanes that element i of a vector load fills, from its bytes (R106): a record fills the low bytes of the register,
and every byte past it, pad bytes included, is 0. -/
def elemLanes (fmt w i : Nat) (bs : List Byte) : List (Nat × Word32) :=
  if w = 0 then (words32 (bs.take (packedSize fmt) ++ List.replicate 64 0)).zip (List.range 16) |>.map fun p => (p.2, p.1)
  else if w = 8 then [(2 * i, BitVec.ofNat 32 (leNat (bs.take 4))), (2 * i + 1, BitVec.ofNat 32 (leNat (bs.drop 4)))]
  else
    let v := leNat bs
    let x : Word32 :=
      if w = 1 then (if fmt = 1 then (BitVec.ofNat 8 v).signExtend 32 else BitVec.ofNat 32 v)
      else if w = 2 then (if fmt = 2 then (BitVec.ofNat 16 v).signExtend 32 else BitVec.ofNat 32 v)
      else BitVec.ofNat 32 v
    [(i, x)]

/-- The local elements of a vector load that may land, with their locations. -/
def landable (s : State) (sl : SlotId) (r : Req) (fmt w : Nat) (es : List (Nat × Word)) : List (Nat × Nat × Loc) :=
  es.filterMap fun e =>
    let ea := e.2.toNat
    if isPeer ea then none
    else match s.resolve (r.agent sl) ea (vecBytes fmt w ea) permR with
      | .ok l => if (s.slot sl).clear r.num ea (vecBytes fmt w ea) && s.bankOpen (.req sl r.num) l then some (e.1, ea, l) else none
      | .error _ => none

/-- Fills the cache for the elements of a vector load. -/
def State.fillElems (s : State) (ag : Agent) (core : Nat) : List (Nat × Nat × Loc) → State
  | [] => s
  | e :: rest => (s.loadFill ag core e.2.1 e.2.2).fillElems ag core rest

/-- The local elements of a vector load land, those with uncorrectable data as failures (R108). -/
def State.landVector (s : State) (sl : SlotId) (r : Req) (w fmt : Nat) (es : List (Nat × Word)) : State :=
  let now := landable s sl r fmt w es
  if now = [] then s
  else
    let bad := now.filter fun e => (s.badByte sl.core e.2.1 e.2.2).isSome
    let good := now.filter fun e => (s.badByte sl.core e.2.1 e.2.2).isNone
    let lanes := good.flatMap fun e => elemLanes fmt w e.1 (s.loadBytes sl.core e.2.1 e.2.2)
    (s.fillElems (r.agent sl) sl.core good).vldEnds sl r.num (now.map (·.1)) lanes
      (bad.map fun e => (e.1, cUNCORR, lineAddr (e.2.1 + (s.badByte sl.core e.2.1 e.2.2).getD 0)))

/-- The lanes of a VLDF on words without live tags land, as always full (R111, R149). -/
def State.landUntagged (s : State) (sl : SlotId) (num : Nat) : List (Nat × Nat × Loc) → State
  | [] => s
  | e :: rest =>
    let keys := e.2.2.keys
    let t :=
      if e.2.2.tagged || s.sliceOver sl.core keys then s
      else if s.isPoisoned keys then s.laneFails sl num e.1 cUNCORR (lineAddr e.2.1)
      else s.vldfLane sl num e.1 (BitVec.ofNat 32 (leNat (s.bytes keys)))
    t.landUntagged sl num rest

/-- A value of a producer lands (R15). -/
def State.landReq (s : State) (sl : SlotId) (req : Nat) : State :=
  match (s.slot sl).req req with
  | none => s
  | some r =>
    match r.kind with
    | .ldn rd z _ ea => if r.peer || !(s.slot sl).clear req ea.toNat (szBytes z) then s else s.landLoad sl r rd z ea.toNat
    | .vld _ w fmt es _ => s.landVector sl r w fmt.toNat es
    | .vldf _ _ _ es _ _ => (s.landUntagged sl req (landable s sl r 3 4 es)).served
    | .eng rd v => s.modSlot sl fun x => ((x.dropReq req).writeG rd v).wake
    | _ => s

/-- The banks with a near-bank unit at work that the request needs now (R218, R223). -/
def State.banksNow (s : State) (sl : SlotId) (req : Nat) : List Nat :=
  match (s.slot sl).req req with
  | none => []
  | some r =>
    r.kind.touches.filterMap fun p => if (s.slot sl).clear req p.1 p.2 then s.bankFor (r.agent sl) p.1 p.2 else none

/-- A request whose step met a near-bank unit at work waits there, at each such bank in order of arrival, for the next row boundary (R218,
R223). -/
def State.orWait (s : State) (sl : SlotId) (req : Nat) : State :=
  if s.carafe.nb = [] then s else (s.banksNow sl req).foldl (fun t b => t.joinBank (.req sl req) b) s

def execProducerLands (sl : SlotId) (req : Nat) (s : State) : Out := .next ((s.landReq sl req).orWait sl req)

/-! ## Posted stores -/

/-- A posted store is performed (R76): its tag stays as it is (R73); the core's line takes its bytes (R144). DESIGN CHOICE: R120 forbids
stores to the channel area that CHBASE names and gives them no effect; here they change the bytes there, and not the live table (log 38). -/
def State.doStore (s : State) (ag : Agent) (core ea : Nat) (bs : List Byte) (l : Loc) : State :=
  (((s.used ag ea bs.length).keptAll l.keys false).put l.keys bs).storeLine core ea bs

/-- An operation that waits to store into an empty word lies over one of the words (R148). -/
def State.storeWaits (s : State) (keys : List Nat) : Bool :=
  s.waiters.any fun w => w.wantsEmpty && w.keys.any fun k => keys.any fun q => q / 4 = k / 4

/-- The die's store slices take a posted store before its point of coherence has it: one of a compute core to a word that neither a
scratchpad nor the memory side holds, that is not poisoned, and that no store waits for (R154). -/
def State.forwards (s : State) (core : Nat) (l : Loc) : Bool :=
  !isControl core && !l.pad && !l.ms && !s.isPoisoned l.keys && !s.storeWaits l.keys

/-- A posted store enters the slices of its die, where the cores of the die see it (R154). -/
def State.forward (s : State) (sl : SlotId) (r : Req) (ea : Nat) (bs : List Byte) (l : Loc) : State :=
  let e : SliceStore := ⟨s.nextReq, sl, r.num, r.ctxid.toNat % 64, ea, l.keys, bs, none, []⟩
  let t := s.kept l.keys (s.seen sl.core) (dieOf sl.core) true false
  { t with slices := s.slices ++ [e], nextReq := s.nextReq + 1 }.storeLine sl.core ea bs

/-- One local write of a posted store takes effect, in the slices of its die or at its point of coherence; uncorrectable data of a merge
give a record (R76, R109). It waits for what comes before it (R78, R152, R154). -/
def State.perform (s : State) (sl : SlotId) (r : Req) (ea : Nat) (bs : List Byte) : Option State :=
  if !(s.slot sl).clear r.num ea bs.length then none
  else match s.resolve (r.agent sl) ea bs.length permW with
    | .error _ => none
    | .ok l =>
      if s.forwards sl.core l then if s.sliceClash sl.core l.keys then none else some (s.forward sl r ea bs l)
      else if s.sliceOver sl.core l.keys || !s.bankOpen (.req sl r.num) l then none
      else if s.canMerge l.keys then some (s.doStore (r.agent sl) sl.core ea bs l)
      else some (s.slotFault sl 2 cUNCORR (s.badLine ea l.keys) 0)

/-- The local writes of a posted store take effect, ascending, but for those that must wait: the state, and what is left (R109). -/
def State.performAll (s : State) (sl : SlotId) (r : Req) : List (Nat × Word × List Byte) → State × List (Nat × Word × List Byte)
  | [] => (s, [])
  | w :: rest =>
    match if isPeer w.2.1.toNat then none else s.perform sl r w.2.1.toNat w.2.2 with
    | some t => t.performAll sl r rest
    | none => ((s.performAll sl r rest).1, w :: (s.performAll sl r rest).2)

/-- The next forwarded store that its point of coherence may take, among those that p picks: nothing that its die forwarded before lies over
a word of it (R152). -/
def nextDrain (p : SliceStore → Bool) : List SliceStore → List SliceStore → Option SliceStore
  | _, [] => none
  | before, e :: rest =>
    if p e && !(before.any fun b => dieOf b.sl.core = dieOf e.sl.core && b.over e.keys) then some e else nextDrain p (e :: before) rest

/-- A forwarded store of a slot's request. -/
def SliceStore.ofReq (sl : SlotId) (req : Nat) (e : SliceStore) : Bool := e.job.isNone && e.sl = sl && e.req = req

/-- A forwarded store reaches its point of coherence, and so the other dies (R154); words that a job writes whole become full there (R147).
One that would merge with data that have become uncorrectable writes nothing, and a record says so (R297). -/
def State.drain (s : State) (e : SliceStore) : State :=
  let s := { s with slices := s.slices.erase e }
  let s := if s.canMerge e.keys then
      ((if e.job.isNone then s.kept e.keys s.bytes (dieOf e.sl.core) false false else s).used ⟨e.ctx, none, false⟩ e.ea e.bytes.length).put
        e.keys e.bytes
    else s.slotFault e.sl (if e.job.isNone then 2 else 4) cUNCORR (s.badLine e.ea e.keys) 0
  ((if e.job.isNone then s.vstEnds e.sl e.req [] else s).setTags e.full true).served

/-- The writes of a posted store that have not taken effect. -/
def ReqKind.writes : ReqKind → List (Nat × Word × List Byte)
  | .st z _ ea data => [(0, ea, toBytes (szBytes z) data.toNat)]
  | .vst ws => ws
  | _ => []

/-- An outstanding request completes (R77): its writes take effect, and then, one at a time, those that the die's slices hold reach
their points of coherence (R154). -/
def State.completeReq (s : State) (sl : SlotId) (req : Nat) : State :=
  match (s.slot sl).req req with
  | none => s
  | some r =>
    match r.kind with
    | .st .. | .vst .. =>
      let q := s.performAll sl r r.kind.writes
      if q.2 ≠ r.kind.writes then (q.1.modSlot sl fun x => x.setKind req (.vst q.2)).vstEnds sl req []
      else match nextDrain (SliceStore.ofReq sl req) [] s.slices with
        | some e => s.drain e
        | none => s
    | _ => s

def execRequestComplete (sl : SlotId) (req : Nat) (s : State) : Out := .next ((s.completeReq sl req).orWait sl req)

/-! ## Parking (R75, R76, R78, R329) -/

/-- A walk of an access finds no entry where it has not been made to see the store that makes one: no release at package scope and no
synchronising access has come since. DEDUCED: so the caption of R257 has it, which allows a second PAGEFAULT without the kernel's fence
though the notice orders the store before the reissued access (log 77). -/
def State.staleWalk (s : State) (ag : Agent) (ea n : Nat) (perm : Perm) : Option (BitVec 8) :=
  match s.unseen.resolve ag ea n perm with
  | .error c => if c = cPAGEFAULT then some c else none
  | .ok _ => none

/-- The translation answer of an access faults, or it overlaps an access that parked before it, and parks behind it (R78). -/
def State.parkCause (s : State) (sl : SlotId) (r : Req) (ea n : Nat) (perm : Perm) : Option (BitVec 8) :=
  match s.resolve (r.agent sl) ea n perm with
  | .error c => some c
  | .ok _ =>
    ((s.slot sl).parked.find? fun p => p.num < r.num && overlaps ea n p.ea.toNat (szBytes p.sz)).map (·.cause)
      <|> s.staleWalk (r.agent sl) ea n perm

/-- The replay entry and the cause of a request that would park. -/
def State.parkOf (s : State) (sl : SlotId) (r : Req) : Option Replay :=
  if r.peer then none
  else match r.kind with
    | .ldn rd z p ea =>
      (s.parkCause sl r ea.toNat (szBytes z) permR).map fun c => ⟨1, withAddr p ea.toNat, 0, z, rd.setWidth 7, 0, c, ea, r.num, s.nextReq⟩
    | .st z p ea data =>
      (s.parkCause sl r ea.toNat (szBytes z) permW).map fun c => ⟨2, withAddr p ea.toNat, data, z, 0, 0, c, ea, r.num, s.nextReq⟩
    | _ => none

/-- Replay entries keep program order (R78). -/
def insertParked (p : Replay) : List Replay → List Replay
  | [] => [p]
  | q :: rest => if p.num < q.num then p :: q :: rest else q :: insertParked p rest

/-- An access whose translation faults leaves the requests and parks, or is handled at once when its activation has ended or UE = 0 (R75,
R329). On a control core the fault cannot park: a load's register is poisoned, and a store's fault is a kernel trap (R249; log 19). -/
def State.park (s : State) (sl : SlotId) (r : Req) (p : Replay) : State :=
  let x := s.slot sl
  let t := s.modSlot sl fun y => y.dropReq r.num
  let load := p.kind = 1
  let poisoned := if load then t.modSlot sl fun y => (y.poisonG (p.rd.setWidth 5) p.cause (faultTval p.cause p.ea.toNat)).wake else t
  if isControl sl.core then if load then poisoned else t.kernelTrap sl ⟨p.cause, faultTval p.cause p.ea.toNat, x.pc, p.ea⟩
  else if x.act.isNone || r.ended || !x.upvec.getLsbD 0 then poisoned.slotFault sl (if load then 1 else 2) p.cause (faultTval p.cause p.ea.toNat) p.ea
  else { t.modSlot sl fun y => { y with parked := insertParked p y.parked } with nextReq := s.nextReq + 1 }

/-- A translation answer faults an LDN or ST (R75, R76), the earliest such access of the slot first (R78). -/
def execParkedAccess (sl : SlotId) (req : Nat) (s : State) : Out :=
  .next <|
    match (s.slot sl).req req with
    | none => s
    | some r =>
      match s.parkOf sl r with
      | none => s
      | some p => if (s.slot sl).reqs.any fun q => q.num < req && (s.parkOf sl q).isSome then s else s.park sl r p

/-! ## Boundaries of a slot -/

/-- A word that is not an instruction (R34). -/
def execIllop (w : BitVec 32) (s : State) : Out := s.illegal w

/-- A blocked slot repeats its checks (R17). -/
def execIssueRetry (sl : SlotId) (s : State) : Out :=
  .next <|
    if (s.slot sl).wait = .retry then { s.modSlot sl fun x => { x with wait := .ready } with cur := sl } else s

/-- A trap is delivered once the producers of its slot have settled (R85). -/
def execUpcall (sl : SlotId) (s : State) : Out :=
  .next <|
    match (s.slot sl).trap with
    | some t => if isControl sl.core then s.kernelTrap sl t else if s.trapReady sl then s.deliver sl t else s
    | none => s

/-- The oldest of a slot's events is the report of a job: no access parked before it (R195). -/
def Slot.engFirst (x : Slot) : Bool :=
  match x.events with
  | [] => false
  | e :: _ => x.parked.all fun p => p.kind = 3 || e.1 < p.since

/-- Parked accesses are delivered at the next instruction boundary, in their turn (R87, R195). DESIGN CHOICE: of a slot that waits in WFE the
boundary is before the WFE, whose own address TPC takes, so that UPRET repeats it; R87 does not say it (log 78). -/
def execDeferredUpcall (sl : SlotId) (s : State) : Out :=
  .next <|
    let x := s.slot sl
    match x.parked with
    | p :: _ => if x.atBoundary && x.trap.isNone && p.kind ≠ 3 && x.act.isSome && !x.engFirst then s.takeTrapAt sl p.cause (faultTval p.cause p.ea.toNat) p.ea else s
    | [] => s

/-- TIME has reached the limit of a WFE that no event has ended (R90). -/
def execWfeTimeout (sl : SlotId) (s : State) : Out :=
  .next <|
    let x := s.slot sl
    if x.wait = .wfe false && x.wfeLimit ≠ 0 && x.wfeLimit.toNat ≤ s.time then s.modSlot sl fun y => (y.writeG y.wfeReg 1).next else s

/-- The point of coherence of a word serves the operations that wait there (R148). -/
def execTagServe (word : Nat) (s : State) : Out :=
  .next <| if s.waiters.any fun w => (wordsOf w.keys).contains word then s.served else s

/-- The slot restores its checkpoint (R283). -/
def execRollback (sl : SlotId) (s : State) : Out := .next (s.rollBack sl)

end Sys2Proof.Machine
end

