-- ==== Sys2Proof/Machine/Arrivals.lean ====
section
/-!
DEFINITION. The steps of the message unit: messages arrive (R124 to R126, R263) or leave for the fabric (R131, R272), and a
free slot starts an activation (R128 to R131, R135, R136).
-/

namespace Sys2Proof.Machine

/-! ## Queues of messages on their way -/

/-- The outbound queue of a core, or the messages that no core sent. -/
def State.msgs (s : State) : Option Nat → List Msg
  | some c => (s.core c).outq
  | none => s.net

def State.setMsgs (s : State) (src : Option Nat) (ms : List Msg) : State :=
  match src with
  | some c => s.modCore c fun k => { k with outq := ms }
  | none => { s with net := ms }

/-- The message goes to a peer package (R123). -/
def outbound (m : Msg) : Bool := m.dest.getLsbD 55 && !m.fabric

/-- A store that the message follows is not visible where it goes (R127): on the sender's die a forwarded store is (R154). -/
def State.heldBack (s : State) (src : Option Nat) (target : Nat) (m : Msg) : Bool :=
  match src with
  | none => false
  | some c =>
    let far := outbound m || dieOf target ≠ dieOf c
    (slotIds c).any (fun sl => (s.slot sl).reqs.any fun r =>
      m.after.contains r.num && r.kind.isStore && (far || match r.kind with | .vst ws => ws ≠ [] | _ => true)) ||
    far && s.slices.any fun e => m.after.contains e.num

/-- Message `idx` may go to the target: nothing earlier in the queue of its core goes there, nor in the network from its sender (R125,
R278), and the stores before it are visible there (R127). -/
def State.mayLeave (s : State) (src : Option Nat) (idx target : Nat) (m : Msg) : Bool :=
  !(((s.msgs src).take idx).any fun e =>
    (src.isSome || e.sender = m.sender) &&
      (if outbound m then outbound e && e.dest.extractLsb' 40 15 = m.dest.extractLsb' 40 15
       else !outbound e && e.targets.contains target)) && !s.heldBack src target m

/-- Answers a peer's message: 0 when it is done with, 13 when a full inbound queue refused it (R280, R282). -/
def State.ackMsg (s : State) (m : Msg) (code : Nat) : State :=
  match m.fabric, m.region with
  | true, some (sl, n) => s.sendFrame (m.sender.extractLsb' 25 15).toNat sl n 0 (.reply code [] none)
  | _, _ => s

/-- One core has taken the message; an entry leaves its queue with the last (R125). -/
def State.delivered (s : State) (src : Option Nat) (idx target : Nat) : State :=
  let ms := s.msgs src
  match ms[idx]? with
  | some m =>
    let left := m.targets.erase target
    if left = [] then (s.setMsgs src (ms.eraseIdx idx)).ackMsg m 0 else s.setMsgs src (ms.set idx { m with targets := left })
  | none => s

/-- Who holds a core for a context (R124, R263). -/
inductive Holder where
  | live
  | saved
  | nobody
  deriving DecidableEq, Repr

def State.holder (s : State) (core ctx : Nat) : Holder :=
  if (s.core core).ctx = some ctx then .live
  else if ((s.ctx ctx).savedCores.any fun c => c.coord = core) then .saved else .nobody

/-- A message to a core that its context does not hold is dropped with a record that names the sender: the slot of its SLOTID, also where the
device sent it under that slot (R124, R258, R277). -/
def State.dropMsg (s : State) (src : Option Nat) (m : Msg) : State :=
  let launch := if m.fabric || m.launch.isSome then 0 else s.launchidOf ⟨src.getD (destCore m.sender), (m.sender.extractLsb' 0 2).toFin⟩
  s.queueFault m.ctx
    { cause := cACCESS, source := if m.fabric then 8 else 3, tval := m.dest, slotid := if m.fabric then 0 else m.sender,
      launchid := launch, extra := 0, va := 0 }

/-- The message came from another core than the one it reaches (R157). -/
def fromFar (m : Msg) (src : Option Nat) (target : Nat) : Bool := m.fabric || m.launch.isSome || src ≠ some target

/-- The message leaves for a peer: a frame in the send queue of its device, a remote operation of the sending slot (R272, R282). -/
def State.toFabric (s : State) (src : Option Nat) (idx : Nat) (m : Msg) : State :=
  let sl : SlotId := ⟨src.getD 0, m.sender.extractLsb' 0 2 |>.toFin⟩
  let dev := (m.dest.extractLsb' 40 15).toNat
  let s := s.setMsgs src ((s.msgs src).eraseIdx idx)
  let (num, s) :=
    match m.region with
    | some (_, n) => (n, s)
    | none =>
      (s.nextReq, { s.modSlot sl fun x => x.addReq { s.newReqOf sl .post false true with region := false } with nextReq := s.nextReq + 1 })
  if s.fab.reaches dev then s.sendFrame dev sl num 0 (.msg m) else s.remoteFail sl num 0 5 dev

/-! ## Arrivals -/

/-- An active message arrives: it enters the inbound queue, or is refused (R126, R263). -/
def State.arriveActive (s : State) (src : Option Nat) (idx target : Nat) (m : Msg) : State :=
  let refuse := (s.setMsgs src ((s.msgs src).set idx { m with refused := true })).ackMsg m 13
  match s.holder target m.ctx with
  | .nobody => (s.delivered src idx target).dropMsg src m
  | .saved => refuse
  | .live =>
    if (s.core target).inq.length < 64 then
      (s.delivered src idx target).modCore target fun c => { c with inq := c.inq ++ [m] }.wakeAll
    else refuse

def execActiveMessageArrival (src : Option Nat) (idx target : Nat) (s : State) : Out :=
  .next <|
    match (s.msgs src)[idx]? with
    | none => s
    | some m =>
      if m.dec.isSome || m.refused || !m.targets.contains target || !s.mayLeave src idx target m then s
      else if outbound m then s.toFabric src idx m
      else s.arriveActive src idx target m

/-- A decrement reaches a channel of a core that is out: its saved entry and its image in the save area take it (R263). -/
def State.applySaved (s : State) (ctx core : Nat) (ch : BitVec 5) (d : BitVec 16) (xm far : Bool) : State :=
  let c := s.ctx ctx
  match c.savedCores.findIdx? fun k => k.coord = core with
  | none => s
  | some i =>
    let upd (k : SavedCore) : SavedCore :=
      if k.coord = core then
        let e := (k.core.chan ch).decrement d xm
        let at_ := padKey core (k.core.area.toNat * 4096 + 32 * ch.toNat + 8)
        { k with core := (k.core.noteFar ch far).putChan ch e,
                 pad := ((keysFrom at_ 8).zip (toBytes 8 e.ctrl.toNat)).foldl (fun m p => mset 0 m p.1 p.2) k.pad }
      else k
    let cs := c.savedCores.map upd
    let s := s.setCtx ctx { c with savedCores := cs }
    match cs[i]? with
    | none => s
    | some k =>
      let e := k.core.chan ch
      s.put (keysFrom (c.save.toNat + 131072 + i * 114688 + k.core.area.toNat * 4096 + 32 * ch.toNat + 8) 8) (toBytes 8 e.ctrl.toNat)

/-- A counter message is applied on arrival and never refused (R122, R126, R263). -/
def State.arriveCounter (s : State) (src : Option Nat) (idx target : Nat) (m : Msg) (d : BitVec 16) : State :=
  let ch := m.dest.extractLsb' 19 5
  let t := s.delivered src idx target
  match s.holder target m.ctx with
  | .nobody => t.dropMsg src m
  | .saved => t.applySaved m.ctx target ch d m.xm (fromFar m src target)
  | .live => t.applyCounter target ch d m.xm (fromFar m src target)

def execCounterMessage (src : Option Nat) (idx : Nat) (s : State) : Out :=
  .next <|
    match (s.msgs src)[idx]? with
    | none => s
    | some m =>
      match m.dec, m.targets with
      | some d, target :: _ =>
        if !s.mayLeave src idx target m then s
        else if outbound m then s.toFabric src idx m
        else s.arriveCounter src idx target m d
      | _, _ => s

/-- The outbound queue of a core tries a refused message again; past the last core, the messages of the network (R125). -/
def execOutboundRetry (core idx : Nat) (s : State) : Out :=
  let src := if core < allCores then some core else none
  .next <|
    match (s.msgs src)[idx]? with
    | some m => s.setMsgs src ((s.msgs src).set idx { m with refused := false })
    | none => s

/-! ## Starting activations -/

/-- The local virtual address of a channel's region (R118). -/
def regionAddr (core : Nat) (e : Channel) : Word := BitVec.ofNat 64 (winAddr core e.rbase.toNat)

/-- An HBOUND record of the message unit (R128). -/
def State.hbound (s : State) (ctx : Nat) (a : Word) : State :=
  s.queueFault ctx { cause := cHBOUND, source := 3, tval := a, slotid := 0, launchid := 0, extra := 0, va := 0 }

/-- The launch and group of an activation on a core. -/
def State.launchOf (s : State) (core : Nat) : Option (Nat × Nat) := (s.groupOf core).map fun g => (g.launch, g.idx)

/-- Writes payload words into the region as STF writes them (R128). -/
def State.writePayload (s : State) (core : Nat) (e : Channel) (ws : List Word32) : State :=
  let k := padKey core e.rbase.toNat
  s.putFull (keysFrom k (4 * ws.length)) (ws.flatMap fun w => toBytes 4 w.toNat)

/-- A free slot takes the oldest message of a channel (R128). -/
def State.startMessage (s : State) (sl : SlotId) (ch : BitVec 5) (m : Msg) : State :=
  let core := sl.core
  let ctx := ((s.core core).ctx).getD 0
  let s := s.modCore core fun c => { c.setLast ch with inq := c.inq.erase m }
  let addr : Word := (m.body.getD 1 0 ++ m.body.getD 0 0 : BitVec 64)
  let e := (s.core core).chan ch
  if !(s.ctx ctx).legal addr then s.hbound ctx addr
  else
    let payload := m.body.drop 2
    let n := min payload.length e.rlen.toNat
    let s := s.writePayload core e (payload.take n)
    let e' : Channel := { e with busy := true, loss := e.loss || e.rlen.toNat < payload.length }
    let s := s.changeChan core ch e'
    let act : Act := ⟨.channel ch, e.prio, match m.launch with | some (l, g, _) => some (l, g) | none => s.launchOf core⟩
    s.start sl act addr (regionAddr core e) (BitVec.ofNat 64 n) m.sender (ch.setWidth 64) e.xm
      (m.launch.map fun l => l.2.2) (if m.xm = e.xm then none else some (xmTval m.xm ch))
      (m.fabric || m.launch.isSome || m.sender.extractLsb' 2 17 ≠ (BitVec.ofNat 64 (coordOf core)).extractLsb' 2 17)

/-- START_ACTIVE_MESSAGE (R128, R129). -/
def execStartActiveMessage (sl : SlotId) (ch : BitVec 5) (s : State) : Out :=
  .next <|
    if s.fill sl.core = some (sl, .message ch) then
      match (s.core sl.core).oldest ch with
      | some m => s.startMessage sl ch m
      | none => s
    else s

/-- A free slot starts a pending firing of a channel (R128, R130, R67). -/
def State.startFiring (s : State) (sl : SlotId) (ch : BitVec 5) : State :=
  let core := sl.core
  let ctx := ((s.core core).ctx).getD 0
  let s := s.modCore core fun c => c.setLast ch
  let far := (s.core core).farFired.getLsbD ch.toNat || (s.core core).far.getLsbD ch.toNat
  let e := (s.core core).chan ch
  let e' : Channel := { e with pnum := e.pnum - 1 }
  if !(s.ctx ctx).legal e.haddr then (s.changeChan core ch e').hbound ctx e.haddr
  else
    (s.changeChan core ch { e' with busy := true, xmbad := false }).start sl ⟨.channel ch, e.prio, s.launchOf core⟩ e.haddr
      (regionAddr core e) 0 0 (ch.setWidth 64) e.xm none (if e.xmbad then some (xmTval (!e.xm) ch) else none) far

/-- START_COUNTER_FIRING (R130). -/
def execStartCounterFiring (sl : SlotId) (ch : BitVec 5) (s : State) : Out :=
  .next <| if s.fill sl.core = some (sl, .firing ch) then s.startFiring sl ch else s

/-- A task activation starts (R118, R135), with the range given; `far` for a task of another core. -/
def State.startTask (s : State) (sl : SlotId) (t : Task) (lo hi : Nat) (far : Bool) : State :=
  let g4 := BitVec.ofNat 64 (2 ^ 63 + b2n t.isRange * 2 ^ 62 + t.joinCh.toNat)
  s.start sl ⟨.task t.joinCore t.joinCh t.joinXm, 3, s.launchOf sl.core⟩ t.entry t.arg
    (BitVec.ofNat 64 (if t.isRange then lo else 0)) (BitVec.ofNat 64 (if t.isRange then hi else 0)) g4 t.joinXm none
    (if t.xm = t.joinXm then none else some (xmTval t.xm t.joinCh)) far

/-- TASK_POP: the newest task of the own deque (R135). -/
def execTaskPop (sl : SlotId) (s : State) : Out :=
  .next <|
    if s.fill sl.core = some (sl, .pop) then
      let c := s.core sl.core
      let t := s.taskAt sl.core (c.bottom - 1)
      (s.setDeque sl.core c.top (c.bottom - 1)).startTask sl t t.low t.high false
    else s

/-- A thief takes the oldest task of a victim, or half of a range (R136). -/
def State.stealFrom (s : State) (sl : SlotId) (v : Nat) : State :=
  let c := s.core v
  let t := s.taskAt v c.top
  if t.isRange && 2 ≤ t.high - t.low then
    let mid := t.low + (t.high - t.low) / 2
    let keep : Task := { t with range := rangeWord t.low mid }
    (s.put (keysFrom (c.taskKey v c.top) 32) keep.bytes).startTask sl t mid t.high true
  else (s.setDeque v (c.top + 1) c.bottom).startTask sl t t.low t.high true

/-- TASK_STEAL (R136). -/
def execTaskSteal (sl : SlotId) (s : State) : Out :=
  .next <|
    match s.fill sl.core with
    | some (sl', .steal v) => if sl' = sl then s.stealFrom sl v else s
    | _ => s

/-! ## CSR writes as steps of their own -/

/-- CHBASE_WRITE: the effect of a write of CHBASE by the issuing slot (R120). -/
def execChbaseWrite (v : Word) (s : State) : Out :=
  match s.writeChbase s.cur v with
  | .ok t => .next t
  | .trap c t => s.trap c t
  | _ => .next s

/-- VALLOC_WRITE: the effect of a write of VALLOC by the issuing slot (R20). -/
def execVallocWrite (v : Word) (s : State) : Out :=
  match s.writeValloc s.cur v with
  | .ok t => .next t
  | .trap c t => s.trap c t
  | .illegal => s.illegal (sysWord 1 0 0 4)
  | .wait => s.stall
  | .begun t => t.stall

/-- XINV: the effect of a write of XINV by the issuing slot (R255). -/
def execXinv (v : Word) (s : State) : Out :=
  match s.writeCsr s.cur 0x80D v with
  | .ok t => .next t
  | _ => .next s

end Sys2Proof.Machine
end

