-- ==== Sys2Proof/Machine/Fields.lean ====
section
/-!
DEFINITION. Field descriptors (R175 to R178), permutations and remap maps (R186, R187), and the memory accesses of jobs
(R147, R158, R195).
-/

namespace Sys2Proof.Machine

/-! ## Descriptors (R175) -/

/-- Bits of a descriptor. -/
def dbits (d : BitVec 512) (lo w : Nat) : Nat := d.toNat / 2 ^ lo % 2 ^ w

/-- A descriptor with some bits replaced. -/
def dput (d : BitVec 512) (lo w v : Nat) : BitVec 512 :=
  BitVec.ofNat 512 (d.toNat - dbits d lo w * 2 ^ lo + v % 2 ^ w * 2 ^ lo)

def dBase (d : BitVec 512) : Word := BitVec.ofNat 64 (dbits d 0 64)
def dShadow (d : BitVec 512) : Nat := dbits d 64 55
def dN (d : BitVec 512) : Nat := dbits d 120 6
def dState (d : BitVec 512) : Nat := dbits d 126 2
def dWmark (d : BitVec 512) : Nat := dbits d 384 40
def mapPos (i : Nat) : Nat := 128 + 64 * (i / 10) + 6 * (i % 10)
/-- MAP[i]. -/
def dMap (d : BitVec 512) (i : Nat) : Nat := dbits d (mapPos i) 6
def dWidth (d : BitVec 512) (a : Nat) : Nat := dbits d (if a < 4 then 6 * a + 424 else 6 * a + 464) 6
def dLast (d : BitVec 512) : Nat := dbits d 448 40
def dFmt (d : BitVec 512) : Nat := ptrFmt (dBase d)

/-- The descriptor with the map f on its N logical bits. -/
def dSetMap (d : BitVec 512) (f : Nat → Nat) : BitVec 512 :=
  (List.range (dN d)).foldl (fun d i => dput d (mapPos i) 6 (f i)) d

def Slot.desc (x : Slot) (n : BitVec 4) : BitVec 512 := x.d[n.toNat]'n.isLt
def Slot.setDesc (x : Slot) (n : BitVec 4) (d : BitVec 512) : Slot := { x with d := x.d.set n.toNat d n.isLt }

/-- First logical bit of axis a. -/
def axisStart (d : BitVec 512) (a : Nat) : Nat := ((List.range a).map (dWidth d)).sum

def axes : List Nat := [0, 1, 2, 3, 4, 5, 6, 7]

/-- What the alignment of a pointer of format fmt at address a must be a multiple of: a record takes any byte address in global
memory and 4 in a scratchpad (R41, R57). -/
def alignOf (fmt a : Nat) : Nat := if isBlock fmt then (if inWin a then 4 else 1) else packedSize fmt

/-- The descriptor is valid (R177), or the trap, by the order of R177's list (log 20). -/
def descFault (d : BitVec 512) (n : Nat) : Option (BitVec 8 × Word) :=
  let bad := some (cACCESS, BitVec.ofNat 64 n)
  let N := dN d
  let maps := (List.range N).map (dMap d)
  let ws := axes.map (dWidth d)
  let base := dbits d 0 55
  let sh := dShadow d
  if dbits d 380 4 ≠ 0 || dbits d 316 4 ≠ 0 || dbits d 252 4 ≠ 0 || dbits d 188 4 ≠ 0 || dbits d 119 1 ≠ 0 || dState d = 3 then bad
  else if 40 < N || !maps.all (· < N) || !maps.Nodup || !((List.range (40 - N)).all fun i => dMap d (N + i) = 0) then bad
  else if ws.sum ≠ N || !((ws.dropWhile (0 < ·)).all (· = 0)) || dLast d / 2 ^ N ≠ 0 then bad
  else if !ptrOk (dBase d) then some (cFMTFAULT, dBase d)
  else if (dBase d).getLsbD 55 || base % alignOf (dFmt d) base ≠ 0 || (sh ≠ 0 && sh % alignOf (dFmt d) sh ≠ 0) then bad
  else none

/-! ## Resolution (R178) -/

/-- The buffer a snapshot addresses. -/
def dBuffer (d : BitVec 512) : Nat := if dState d = 1 then dShadow d else dbits d 0 55

/-- Size of an element where the buffer lies. -/
def dSize (d : BitVec 512) (buf : Nat) : Nat := elemSize (dFmt d) (inWin buf)

/-- A logical index with a coordinate above its axis's LAST. -/
def isVoid (d : BitVec 512) (L : Nat) : Bool :=
  axes.any fun a =>
    let w := dWidth d a
    let f := axisStart d a
    0 < w && dLast d / 2 ^ f % 2 ^ w < L / 2 ^ f % 2 ^ w

/-- The physical index of a logical one. -/
def physical (d : BitVec 512) (L : Nat) : Nat :=
  ((List.range (dN d)).map fun i => L / 2 ^ i % 2 * 2 ^ dMap d i).sum

/-- The logical index of a physical one. -/
def logical (d : BitVec 512) (P : Nat) : Nat :=
  ((List.range (dN d)).map fun i => P / 2 ^ dMap d i % 2 * 2 ^ i).sum

/-- Address of physical element P of a buffer. -/
def elemAddr (d : BitVec 512) (buf P : Nat) : Nat := (buf + P * dSize d buf) % 2 ^ 56

/-! ## Permutations and remaps -/

/-- The permutation of PERM (R186). -/
def permSigma (mode A B W i : Nat) : Nat :=
  if mode = 1 then (if A ≤ i && i < A + W then 2 * A + W - 1 - i else i)
  else if mode = 0 then
    if A ≤ i && i < A + W then B + (i - A) else if B ≤ i && i < B + W then A + (i - B) else i
  else if A ≤ i && i < A + W then A + (i - A + W - B) % W else i

/-- The new map of a remap with bit set S (R187). -/
def remapMap (d : BitVec 512) (S : Nat → Bool) (i : Nat) : Nat :=
  let N := dN d
  let bitsOf := (List.range N).filter S
  if S i then (bitsOf.filter (· < i)).length
  else bitsOf.length + ((List.range N).filter fun k => !S k && dMap d k < dMap d i).length

/-- The descriptor after a remap starts (R189, R190). -/
def remapped (d : BitVec 512) (inplace : Bool) (f : Nat → Nat) : BitVec 512 :=
  let d := dput (dSetMap d f) 126 2 (if inplace then 2 else 1)
  if inplace then dput d 384 40 0 else d

/-- The buffer that a remap writes (R189, R190). -/
def Remap.target (r : Remap) : Nat := if r.inplace then dbits r.before 0 55 else dShadow r.before

def newRemap (n : BitVec 4) (d : BitVec 512) (inplace : Bool) (f : Nat → Nat) : Remap :=
  ⟨n, inplace, d, remapped d inplace f, false, 0, 0⟩

/-! ## Jobs and their queue -/

def Job.kreg (j : Job) (n : Fin 64) : Word := j.k[n]
def Job.desc (j : Job) (n : Nat) : BitVec 512 := if h : n < 16 then j.d[n] else 0
def Slot.kreg (x : Slot) (n : BitVec 6) : Word := x.k[n.toNat]'n.isLt
def Slot.setK (x : Slot) (n : BitVec 6) (v : Word) : Slot := { x with k := x.k.set n.toNat v n.isLt }

/-- Completion counter of a job (R165, R170). -/
def Job.cnt (j : Job) : BitVec 4 := j.b.extractLsb' 44 4

def State.jobsOf (s : State) (oct : Nat) : List Job := mget [] s.jobs oct

def State.job (s : State) (oct ctx : Nat) (id : BitVec 16) : Option Job :=
  (s.jobsOf oct).find? fun j => j.ctx = ctx && j.id = id

def State.setJobs (s : State) (oct : Nat) (js : List Job) : State := { s with jobs := mput s.jobs oct js }

/-- Replaces a job by its context and id. -/
def State.setJob (s : State) (oct : Nat) (j : Job) : State :=
  s.setJobs oct ((s.jobsOf oct).map fun i => if i.ctx = j.ctx && i.id = j.id then j else i)

def State.dropJob (s : State) (oct : Nat) (j : Job) : State :=
  s.setJobs oct ((s.jobsOf oct).filter fun i => !(i.ctx = j.ctx && i.id = j.id))

/-- A matrix-engine job (R169). -/
def Job.matrix (j : Job) : Bool := [4, 5, 6, 8, 9, 10, 11, 13].contains j.opc.toNat

/-- A job that is nothing but its remap (R192). -/
def Job.isRemap (j : Job) : Bool := j.opc = 8 || j.opc = 0x84

/-- It reads or writes accumulator memory. -/
def Job.usesAcc (j : Job) : Bool :=
  [4, 9, 10, 11].contains j.opc.toNat || ([5, 6].contains j.opc.toNat && (j.kreg 8).getLsbD 2)

/-- The progress that software sees: that of the remap in which the job stands, else its own (R193, R195). -/
def Job.shown (j : Job) : Nat :=
  match j.remaps with
  | r :: _ => if r.started || j.inRemap then r.count else j.progress
  | [] => j.progress

/-- The jobs that entered the queue before one. -/
def State.before (s : State) (oct : Nat) (j : Job) : List Job :=
  (s.jobsOf oct).takeWhile fun i => !(i.ctx = j.ctx && i.id = j.id)

/-- Those that entered it after. -/
def State.behind (s : State) (oct : Nat) (j : Job) : List Job :=
  ((s.jobsOf oct).dropWhile fun i => !(i.ctx = j.ctx && i.id = j.id)).tail

/-- A job's context runs and its core is not fenced; the kernel's own jobs always run (R173, R296). -/
def State.jobLive (s : State) (j : Job) : Bool :=
  isControl j.owner.core || ((s.ctx j.ctx).st = .running && !s.fencedCore j.owner.core)

/-! ## Accesses of a job -/

/-- A job acts for the context that it was issued under, through the window of its core (R142, R247). -/
def State.jobAgent (_ : State) (j : Job) : Agent :=
  { agentOf j.owner.core (BitVec.ofNat 7 (j.ctx % 64)) with phys := j.phys }

/-- What a unit of a job's work comes to. A fault of cause 0 is none: the unit waits, at bank va - 1 if va is not 0 (R218, R223). -/
inductive Tried where
  | did (s : State) (j : Job)
  | wait
  | fault (cause : BitVec 8) (va : Nat)

/-- The agent of the job is the octet engine or the copy unit of a compute core, an agent of its die (R150, R169). -/
def Job.dieAgent (j : Job) : Bool := !isControl j.owner.core && (j.opc.toNat = 0x80 || [4, 5, 6, 9, 10, 11, 13].contains j.opc.toNat)

/-- A core of the die that the job's agent belongs to; a control core for a package agent, which no die's slices serve (R150, R154). -/
def Job.home (j : Job) : Nat := if j.dieAgent then j.owner.core else computeCores

/-- Where bytes lie for a job, or the fault; at a bank whose near-bank unit is at work it waits for its turn (R218, R223). DEDUCED: R182 to R198
list no check at issue of bit 55 in k.cbase of ACCLD and ACCST, in k.mat of APPLY and DIAG, or in ga of CTLOAD; such a pointer names no local
memory, and the job stops at it with ACCESS (log 79). -/
def State.jobLoc (s : State) (j : Job) (ea n : Nat) (p : Perm) : Except (BitVec 8 × Nat) Loc :=
  match s.resolve (s.jobAgent j) ea n p with
  | .ok l => if s.bankOpen (.job (octetOf j.owner.core) j.ctx j.id) l then .ok l else .error (0, l.bank + 1)
  | .error c => .error (c, ea)

/-- The bytes at some keys as the job's agent sees them (R154). -/
def State.jobBytes (s : State) (j : Job) (keys : List Nat) : List Byte := if j.dieAgent then s.seen j.owner.core keys else s.bytes keys

/-- A read of a job (R195). -/
def State.jobRead (s : State) (j : Job) (ea n : Nat) : Except (BitVec 8 × Nat) (List Byte) :=
  match s.jobLoc j ea n permR with
  | .error e => .error e
  | .ok l => if s.isPoisoned l.keys then .error (cUNCORR, ea) else .ok (s.jobBytes j l.keys)

/-- A write of a job may be performed (R58, R297). -/
def State.jobWritable (s : State) (j : Job) (ea n : Nat) : Option (BitVec 8 × Nat) :=
  match s.jobLoc j ea n permW with
  | .error e => some e
  | .ok l => if s.canMerge l.keys then none else some (cUNCORR, ea)

/-- The words that bytes at some keys complete, with those a job has written in part before (R147). -/
def fillParts : SMap Nat → List Nat → SMap Nat × List Nat
  | part, [] => (part, [])
  | part, k :: rest =>
    let m := mget 0 part (k / 4) ||| 2 ^ (k % 4)
    if m = 15 then
      let r := fillParts (mdel part (k / 4)) rest
      (r.1, k / 4 :: r.2)
    else fillParts (mput part (k / 4) m) rest

/-- A write of a die agent enters the slices of its die, with the words that it sets full (R154). -/
def State.forwardJob (s : State) (j : Job) (ea : Nat) (bs : List Byte) (l : Loc) (full : List Nat) : State :=
  { s with slices := s.slices ++ [⟨s.nextReq, j.owner, 0, j.ctx, ea, l.keys, bs, some (j.ctx, j.id), full⟩], nextReq := s.nextReq + 1 }

/-- A write of a job where its bytes lie: in the slices of its die, or at the point of coherence, bytes first, then the tags of the words that
the job has written whole (R58, R147, R154, R158). It waits for forwarded stores that come before it (R152). -/
def State.jobPut (s : State) (j : Job) (ea : Nat) (bs : List Byte) (l : Loc) : Except (BitVec 8 × Nat) (State × Job) :=
  let r := fillParts j.part l.keys
  if j.dieAgent && s.forwards j.owner.core l then
    if s.sliceClash j.owner.core l.keys then .error (0, 0) else .ok (s.forwardJob j ea bs l r.2, { j with part := r.1 })
  else if s.sliceOver j.home l.keys then .error (0, 0)
  else .ok (((s.used (s.jobAgent j) ea bs.length).put l.keys bs).retag r.2 true, { j with part := r.1 })

/-- A write of a job (R195). -/
def State.jobWrite (s : State) (j : Job) (ea : Nat) (bs : List Byte) : Except (BitVec 8 × Nat) (State × Job) :=
  match s.jobLoc j ea bs.length permW with
  | .error e => .error e
  | .ok l => if s.canMerge l.keys then s.jobPut j ea bs l else .error (cUNCORR, ea)

/-- A write of bytes of one word, given by their rising addresses (R195). -/
def State.jobWriteAt (s : State) (j : Job) (bs : List (Nat × Byte)) : Except (BitVec 8 × Nat) (State × Job) :=
  let a := (bs.map (·.1)).headD 0
  match s.jobLoc j a ((bs.map (·.1)).getLastD 0 - a + 1) permW with
  | .error e => .error e
  | .ok l =>
    let l := { l with keys := bs.filterMap fun p => l.keys[p.1 - a]? }
    if s.canMerge l.keys then s.jobPut j a (bs.map (·.2)) l else .error (cUNCORR, a)

/-- Writes of several words, in order. -/
def State.jobWrites (s : State) (j : Job) : List (List (Nat × Byte)) → Except (BitVec 8 × Nat) (State × Job)
  | [] => .ok (s, j)
  | w :: rest =>
    match s.jobWriteAt j w with
    | .error e => .error e
    | .ok (s, j) => s.jobWrites j rest

/-! ## Bytes by word (R158) -/

/-- The bytes of some writes, by address. -/
def writeBytes (ws : List (Nat × List Byte)) : List (Nat × Byte) := ws.flatMap fun w => (keysFrom w.1 w.2.length).zip w.2

/-- Bytes added to those a job holds. -/
def holdBytes (pend : SMap Byte) (bs : List (Nat × Byte)) : SMap Byte := bs.foldl (fun m p => mput m p.1 p.2) pend

/-- The words of some addresses, each once. -/
def wordsAt (as : List Nat) : List Nat := (as.map (· / 4)).dedup

/-- The four byte addresses of a word. -/
def wordBytes (w : Nat) : List Nat := keysFrom (4 * w) 4

/-- The bytes of a word that are held. -/
def bytesIn (pend : SMap Byte) (w : Nat) : List (Nat × Byte) := (wordBytes w).filterMap fun a => (mfind pend a).map fun b => (a, b)

/-- Why some writes may not take effect: a page that cannot be written, or a poisoned word that they and what `more` says of a byte do not cover
whole (R195, R297). -/
def State.mergeFault (s : State) (j : Job) (pend : SMap Byte) (more : Nat → Bool) (ws : List (Nat × List Byte)) : Option (BitVec 8 × Nat) :=
  ws.findSome? fun w =>
    match s.jobLoc j w.1 w.2.length permW with
    | .error e => some e
    | .ok l =>
      if ((keysFrom w.1 w.2.length).zip l.keys).any fun p => s.isPoisoned [p.2] &&
          !(wordBytes (p.1 / 4)).all fun a => (mfind pend a).isSome || more a then
        some (cUNCORR, w.1)
      else none

/-- The words of a location on which a job waits: those of its first page, unless they are full (R148, R165). -/
def State.waitPart (s : State) (l : Loc) : List Nat :=
  let k := l.keys.headD 0
  let one := l.keys.filter fun q => k ≤ q && q < k / 65536 * 65536 + 65536
  if (wordsOf one).all s.tagFull then l.keys.drop one.length else one

/-- A job waits at the point of coherence of some words until they are full, in order with the others that wait there (R148, R165, R191). -/
def State.jobWait (s : State) (j : Job) (ea : Nat) (l : Loc) : Tried :=
  let n := s.nextReq
  let ks := s.waitPart l
  let kind : WaitKind := .job (if j.phys then 64 else j.ctx) ea
  .did { s with nextReq := n + 1, waiters := s.waiters ++ [⟨j.owner, n, ks.headD 0, ks.length, kind⟩] }
    { j with ask := some ⟨2, n, s.time, none⟩ }

/-- Collects results in order; the first error stops. -/
def traverse {α β ε : Type} (f : α → Except ε β) : List α → Except ε (List β)
  | [] => .ok []
  | a :: as =>
    match f a with
    | .error e => .error e
    | .ok b => match traverse f as with | .error e => .error e | .ok bs => .ok (b :: bs)

/-- The parts of an element: real and imaginary for C64 (R45). -/
def elemParts (fmt : Nat) (xm : Bool) (bs : List Byte) : List FVal :=
  if fmt = 11 then [fdecode 10 xm (leNat (bs.take 4)), fdecode 10 xm (leNat (bs.drop 4))]
  else [decodeVal fmt xm (leNat bs)]

/-! ## Accumulator memory and code tables of a job's context on its engine (R61, R179) -/

def Job.oct (j : Job) : Nat := octetOf j.owner.core

def State.jobEng (s : State) (j : Job) : EngCtx := s.eng j.oct j.ctx

def State.accWord (s : State) (j : Job) (w : Nat) : Word32 := mget 0 (s.jobEng j).acc w

/-- Writes accumulator words. -/
def State.setAcc (s : State) (j : Job) (ws : List (Nat × Word32)) : State :=
  let e := s.jobEng j
  s.setEng j.oct j.ctx { e with acc := ws.foldl (fun a p => mset 0 a p.1 p.2) e.acc }

/-- Byte o of the code table that a job latched (R61). -/
def State.tableByte (s : State) (j : Job) (o : Nat) : Byte :=
  mget 0 (if j.bank then (s.jobEng j).bank1 else (s.jobEng j).bank0) o

end Sys2Proof.Machine
end

