-- ==== Sys2Proof/Machine/Matrix.lean ====
section
/-!
DEFINITION. One unit of the work of each matrix-engine job: a k-step of MMA (R183), a batch of APPLY (R184), an element of
DIAG (R185), a row of ACCLD, ACCST and ACCZ (R194), a part of CTLOAD (R198). Sums are those of R63 and R64, words of
stochastic rounding those of R65.
-/

namespace Sys2Proof.Machine

/-! ## Sums (R63, R64) -/

def FVal.zero : FVal := .fin false 0 0

/-- Both parts of an operand are zero (R64). -/
def zeroElem (x : List FVal) : Bool := x.all FVal.isZero

def part0 (x : List FVal) : FVal := x.getD 0 FVal.zero
def part1 (x : List FVal) : FVal := x.getD 1 FVal.zero

/-- The real products of a complex product, for its real and for its imaginary part (R63, R64). -/
def cproduct (zs : Bool) (a b : List FVal) : List FVal × List FVal × Flags :=
  let rr := fmulV (part0 a) (part0 b)
  let ii := fmulV (part1 a) (part1 b)
  let ri := fmulV (part0 a) (part1 b)
  let ir := fmulV (part1 a) (part0 b)
  let bad := rr.1.isNaN || ii.1.isNaN || ri.1.isNaN || ir.1.isNaN
  if zs && (zeroElem a || zeroElem b) then ([FVal.zero, FVal.zero], [FVal.zero, FVal.zero], if bad then fSUPN else 0)
  else ([rr.1, ii.1.neg], [ri.1, ir.1], if bad then fNV else 0)

def orAll (fs : List Flags) : Flags := fs.foldl (· ||| ·) 0

/-- The sums of one k-step: one for real operands, two for complex ones, with the flags (R63). -/
def kstep (cplx zs : Bool) (rm : Nat) (ps : List (List FVal × List FVal)) : List FVal × Flags :=
  if cplx then
    let qs := ps.map fun p => cproduct zs p.1 p.2
    let re := sumProducts rm (qs.flatMap (·.1))
    let im := sumProducts rm (qs.flatMap (·.2.1))
    ([re.1, im.1], orAll (qs.map (·.2.2)) ||| re.2 ||| im.2)
  else
    let qs := ps.map fun p => product zs (part0 p.1) (part0 p.2)
    let t := sumProducts rm (qs.map (·.1))
    ([t.1], orAll (qs.map (·.2)) ||| t.2)

/-- acc := round(acc + T, FP32, rm) (R63). -/
def accAdd (rm w : Nat) (acc : Word32) (t : FVal) : Word32 × Flags := pack32 rm w (faddV rm (f32 acc) t)

/-- Adds sums to accumulator words in order, a word drawn for each (R65). -/
def accAddAll (rm : Nat) : BitVec 16 → List (Word32 × FVal) → List Word32 × Flags × BitVec 16
  | seed, [] => ([], 0, seed)
  | seed, (a, t) :: rest =>
    let w := drawWord rm seed
    let r := accAdd rm w.1 a t
    let q := accAddAll rm w.2 rest
    (r.1 :: q.1, r.2 ||| q.2.1, q.2.2)

/-! ## MMA (R181 to R183) -/

/-- Products per k-step of an A format, 0 for a format of no class (R181). -/
def perStep (fmt : Nat) : Nat :=
  if fmt = 8 || fmt = 9 then 16 else if (12 ≤ fmt && fmt ≤ 15) || (17 ≤ fmt && fmt ≤ 19) then 32
  else if fmt = 10 then 8 else if fmt = 11 then 4 else 0

/-- The pair of formats is legal, for an A format of a class (R181). -/
def pairOk (fa fb : Nat) : Bool := if perStep fa = 32 then 12 ≤ fb && fb ≤ 20 else fa = fb

/-- What k must be a multiple of (R181). -/
def kMultiple (fa fb : Nat) : Nat :=
  if fb = 20 then 64 else if (17 ≤ fa && fa ≤ 19) || (17 ≤ fb && fb ≤ 19) then 32 else if fb = 16 then 8 else 1

/-- c elements of one operand row from element t0, a whole number of CB2 indices and within one record (R183). -/
def State.rowElems (s : State) (j : Job) (p : Word) (stride : Int) (i t0 c : Nat) : Except (BitVec 8 × Nat) (List (List FVal)) :=
  let fmt := ptrFmt p
  let rec_ := elemSize fmt (inWin (addr56 p))
  if fmt = 20 then
    match s.jobRead j (laneAddr p (i * stride + (t0 / 64 * rec_ : Nat))) 17 with
    | .error e => .error e
    | .ok bs => .ok ((List.range c).map fun u =>
        let t := t0 % 64 + u
        let w := cbWeight (s.tableByte j) j.xm (leNat ((bs.drop (1 + 2 * (t / 8))).take 2)) (t % 8)
        [if leNat (bs.take 1) = 255 then .nan false else w.shift ((leNat (bs.take 1) : Int) - 127)])
  else if isBlock fmt then
    match s.jobRead j (laneAddr p (i * stride + (t0 / 32 * rec_ : Nat))) (packedSize fmt) with
    | .error e => .error e
    | .ok bs => .ok ((List.range c).map fun u => [recElem fmt j.xm bs (t0 % 32 + u)])
  else if fmt = 16 then
    match traverse (fun q => s.jobRead j (laneAddr p (i * stride + ((t0 / 8 + q) * 2 : Nat))) 2) (List.range ((c + 7) / 8)) with
    | .error e => .error e
    | .ok ws => .ok ((List.range c).map fun u => [cbWeight (s.tableByte j) j.xm (leNat (ws.getD (u / 8) [])) (u % 8)])
  else
    let size := packedSize fmt
    traverse (fun u =>
      match s.jobRead j (laneAddr p (i * stride + ((t0 + u) * size : Nat))) size with
      | .error e => .error e
      | .ok bs => .ok (elemParts fmt j.xm bs)) (List.range c)

/-- One k-step of an MMA over the whole tile (R183). -/
def State.mmaUnit (s : State) (j : Job) : Tried :=
  let pa := j.kreg 0
  let pb := j.kreg 2
  let m := (j.kreg 4).toNat
  let n := (j.kreg 5).toNat
  let per := perStep (ptrFmt pa)
  let t0 := j.progress * per
  let c := min per ((j.kreg 6).toNat - t0)
  let cplx := ptrFmt pa = 11
  let parts := if cplx then 2 else 1
  let zs := (j.kreg 8).getLsbD 0
  let fresh := j.progress = 0 && !(j.kreg 8).getLsbD 1
  if m = 0 || n = 0 then .did s { j with progress := j.progress + 1 }
  else
    match traverse (fun i => s.rowElems j pa (j.kreg 1).toInt i t0 c) (List.range m),
      traverse (fun i => s.rowElems j pb (j.kreg 3).toInt i t0 c) (List.range n) with
    | .error e, _ => .fault e.1 e.2
    | _, .error e => .fault e.1 e.2
    | .ok as, .ok bs =>
      let base := (j.kreg 7).toNat / 4
      let sums := as.flatMap fun a => bs.map fun b => kstep cplx zs j.rm.toNat (a.zip b)
      let ts := sums.flatMap (·.1)
      let olds := (List.range ts.length).map fun i => if fresh then 0 else s.accWord j (base + i)
      let r := accAddAll j.rm.toNat j.seed (olds.zip ts)
      let s := s.setAcc j (((List.range (m * n * parts)).map (base + ·)).zip r.1)
      .did s { j with progress := j.progress + 1, seed := r.2.2, flags := j.flags ||| orAll (sums.map (·.2)) ||| r.2.1 }

/-! ## APPLY and DIAG (R184, R185) -/

/-- J and the entries of k.bits. -/
def bitsJ (k : Word) : Nat := k.toNat % 16
def bitsEntry (k : Word) (u : Nat) : Nat := k.toNat / 2 ^ (8 + 6 * u) % 64
def bitsEntries (k : Word) : List Nat := (List.range (bitsJ k)).map (bitsEntry k)

/-- The format of the matrix or vector (R184). -/
def Job.matFmt (j : Job) : Nat :=
  if (j.kreg 8).getLsbD 2 then ((j.kreg 8).extractLsb' 11 5).toNat else ptrFmt (j.kreg 14)

/-- Entries i of the matrix or vector, in order (R184). -/
def State.matEntries (s : State) (j : Job) (is : List Nat) : Except (BitVec 8 × Nat) (List (List FVal)) :=
  let fmt := j.matFmt
  if (j.kreg 8).getLsbD 2 then
    let o := (j.kreg 14).toNat / 4
    .ok (is.map fun i => if fmt = 11 then [f32 (s.accWord j (o + 2 * i)), f32 (s.accWord j (o + 2 * i + 1))] else [f32 (s.accWord j (o + i))])
  else
    let size := packedSize fmt
    traverse (fun i =>
      match s.jobRead j (laneAddr (j.kreg 14) (i * size : Nat)) size with
      | .error e => .error e
      | .ok bs => .ok (elemParts fmt j.xm bs)) is

/-- The address of a logical element, or none where it is void. -/
def fieldAddr (d : BitVec 512) (L : Nat) : Option Nat :=
  if isVoid d L then none else some (elemAddr d (dBuffer d) (physical d L))

/-- A field access must wait for the start of a remap that its snapshot runs under: an earlier job has it still to start (R191). -/
def State.fieldHeld (s : State) (j : Job) (d : BitVec 512) : Bool :=
  dState d ≠ 0 &&
    (s.before j.oct j).any fun i => i.owner = j.owner && i.ctx = j.ctx && i.remaps.any fun r => !r.started && r.target = dBuffer d

/-- The first of some elements of a field under a remap whose words are not full, where the access waits (R191). -/
def State.fieldWait (s : State) (j : Job) (d : BitVec 512) (p : Perm) (eas : List Nat) : Option (Nat × Loc) :=
  if dState d = 0 then none
  else eas.findSome? fun ea =>
    match s.resolve (s.jobAgent j) ea (packedSize (dFmt d)) p with
    | .ok l => if s.locFull l then none else some (ea, l)
    | .error _ => none

/-- The job's accesses to elements of its source and destination fields wait, or k goes on (R191). -/
def State.fieldsReady (s : State) (j : Job) (src dst : BitVec 512) (srcs dsts : List Nat) (k : Tried) : Tried :=
  match j.ask with
  | some ⟨_, _, _, none⟩ => .wait
  | some ⟨_, _, _, some _⟩ => .did s { j with ask := none }
  | none =>
    if s.fieldHeld j src || s.fieldHeld j dst then .wait
    else match s.fieldWait j src permR srcs <|> s.fieldWait j dst permW dsts with
      | some (ea, l) => s.jobWait j ea l
      | none => k

/-- Elements of a field, a void one as +0 (R178). -/
def State.fieldRead (s : State) (j : Job) (d : BitVec 512) (Ls : List Nat) : Except (BitVec 8 × Nat) (List (List FVal)) :=
  traverse (fun L =>
    match fieldAddr d L with
    | none => .ok (if dFmt d = 11 then [FVal.zero, FVal.zero] else [FVal.zero])
    | some ea =>
      match s.jobRead j ea (packedSize (dFmt d)) with
      | .error e => .error e
      | .ok bs => .ok (elemParts (dFmt d) j.xm bs)) Ls

/-- Rounds the parts of an element into the field format, a word drawn for each: its bytes (R184, R65). -/
def encodeParts (fmt rm : Nat) : BitVec 16 → List FVal → List Byte × Flags × BitVec 16
  | seed, [] => ([], 0, seed)
  | seed, v :: rest =>
    let w := drawWord rm seed
    let f := if fmt = 11 then 10 else fmt
    let r := fround f false false rm w.1 v
    let q := encodeParts fmt rm w.2 rest
    (toBytes (packedSize f) r.1 ++ q.1, r.2 ||| q.2.1, q.2.2)

/-- A real entry times a complex element under ZS: a skipped product is 0 times 0 (R64). DESIGN CHOICE: the element counts as one complex
operand, so one part that is 0 alone is not skipped; R63 counts two real products here, and R64 speaks of a complex operand (log 37). -/
def realByComplex (zs : Bool) (m : FVal) (x : List FVal) : FVal × List FVal × Flags :=
  if zs && (m.isZero || zeroElem x) then
    (FVal.zero, [FVal.zero, FVal.zero], if x.any fun p => (fmulV m p).1.isNaN then fSUPN else 0)
  else (m, x, 0)

/-- One or two sums of a k-step of entries and elements, for the parts of the result (R63, R184). -/
def mixedStep (cm cf zs : Bool) (rm : Nat) (ps : List (List FVal × List FVal)) : List FVal × Flags :=
  if cf && !cm then
    let qs := ps.map fun p => realByComplex zs (part0 p.1) p.2
    let re := kstep false false rm (qs.map fun q => ([q.1], [part0 q.2.1]))
    let im := kstep false false rm (qs.map fun q => ([q.1], [part1 q.2.1]))
    (re.1 ++ im.1, orAll (qs.map (·.2.2)) ||| re.2 ||| im.2)
  else kstep cm zs rm ps

/-- Pieces of a list, n at a time; `fuel` bounds their number. -/
def chunks {α : Type} (n : Nat) : Nat → List α → List (List α)
  | 0, _ => []
  | fuel + 1, l => if l = [] then [] else l.take n :: chunks n fuel (l.drop n)

/-- y[r] of an APPLY: k-steps from +0.0, then the rounding into the field format (R184, R65). -/
def applyRow (cm cf zs : Bool) (fmt rm : Nat) (seed : BitVec 16) (row xs : List (List FVal)) : List Byte × Flags × BitVec 16 :=
  let steps := chunks (if cm then 4 else 8) (row.length + 1) (row.zip xs)
  let start : List Word32 := if cf then [0, 0] else [0]
  let r := steps.foldl (fun (a : List Word32 × Flags × BitVec 16) ps =>
    let t := mixedStep cm cf zs rm ps
    let q := accAddAll rm a.2.2 (a.1.zip t.1)
    (q.1, a.2.1 ||| t.2 ||| q.2.1, q.2.2)) (start, (0 : Flags), seed)
  let e := encodeParts fmt rm r.2.2 (r.1.map f32)
  (e.1, r.2.1 ||| e.2.1, e.2.2)

/-- The rows of a batch, in ascending order. -/
def applyRows (cm cf zs : Bool) (fmt rm : Nat) (xs : List (List FVal)) :
    BitVec 16 → List (List (List FVal)) → List (List Byte) × Flags × BitVec 16
  | seed, [] => ([], 0, seed)
  | seed, row :: rest =>
    let r := applyRow cm cf zs fmt rm seed row xs
    let q := applyRows cm cf zs fmt rm xs r.2.2 rest
    (r.1 :: q.1, r.2.1 ||| q.2.1, q.2.2)

/-- idx(b, c) of R184. -/
def batchIndex (N : Nat) (ents : List Nat) (b c : Nat) : Nat :=
  let q := (List.range N).filter fun i => !ents.contains i
  ((q.zip (List.range q.length)).map fun p => b / 2 ^ p.2 % 2 * 2 ^ p.1).sum +
    ((ents.zip (List.range ents.length)).map fun p => c / 2 ^ p.2 % 2 * 2 ^ p.1).sum

/-- The addresses of the destination elements that a batch of an APPLY writes (R184). -/
def Job.batchDsts (j : Job) (b : Nat) : List Nat :=
  let dst := j.desc (j.kreg 16).toNat
  let ents := bitsEntries (j.kreg 10)
  ((List.range (2 ^ ents.length)).map (batchIndex (dN dst) ents b)).filterMap (fieldAddr dst)

/-- The address that a position of a DIAG writes, if any (R185). -/
def Job.diagDst (j : Job) (L : Nat) : Option Nat :=
  if (fieldAddr (j.desc (j.kreg 15).toNat) L).isNone then none else fieldAddr (j.desc (j.kreg 16).toNat) L

/-- Size of an element of ACCST where it lies, of one part of a complex one (R194). -/
def Job.accSize (j : Job) : Nat := if ptrFmt (j.kreg 12) = 11 then 4 else elemSize (ptrFmt (j.kreg 12)) (inWin (addr56 (j.kreg 12)))

/-- Parts, or records, of a row of ACCST. -/
def Job.accCount (j : Job) : Nat :=
  let n := (j.kreg 5).toNat
  if isBlock (ptrFmt (j.kreg 12)) then n / 32 else if ptrFmt (j.kreg 12) = 11 then 2 * n else n

/-- Address of part q of a row of ACCST. -/
def Job.accAddr (j : Job) (i q : Nat) : Nat := laneAddr (j.kreg 12) (i * (j.kreg 13).toInt + (q * j.accSize : Nat))

/-- Units of an APPLY, a DIAG or an ACCST. -/
def Job.writeUnits (j : Job) : Nat :=
  let N := dN (j.desc (j.kreg 15).toNat)
  match j.opc.toNat with
  | 5 => 2 ^ (N - bitsJ (j.kreg 10))
  | 6 => 2 ^ N
  | _ => (j.kreg 4).toNat

/-- The bytes that a unit of an APPLY, a DIAG or an ACCST writes. -/
def Job.writesOf (j : Job) (u : Nat) : List (Nat × Nat) :=
  let size := packedSize (dFmt (j.desc (j.kreg 16).toNat))
  match j.opc.toNat with
  | 5 => (j.batchDsts u).map fun a => (a, size)
  | 6 => match j.diagDst u with | some a => [(a, size)] | none => []
  | _ => (List.range j.accCount).map fun q => (j.accAddr u q, j.accSize)

/-- A unit from u on writes the byte at an address. -/
def Job.writesLater (j : Job) (u a : Nat) : Bool :=
  (List.range (j.writeUnits - u)).any fun i => (j.writesOf (u + i)).any fun w => w.1 ≤ a && a < w.1 + w.2

/-- A word is not written any more from unit u on, or has all its bytes, so that it is written now (R158). -/
def Job.wordDone (j : Job) (pend : SMap Byte) (u w : Nat) : Bool :=
  (wordBytes w).all (fun a => (mfind pend a).isSome) || (wordBytes w).all fun a => !j.writesLater u a

/-- Writes the bytes that the job holds of some words, and holds them no longer. -/
def State.emitWords (s : State) (j : Job) (ws : List Nat) : Except (BitVec 8 × Nat) (State × Job) :=
  match s.jobWrites j (ws.map (bytesIn j.pend)) with
  | .error e => .error e
  | .ok (s, j) => .ok (s, { j with pend := (ws.flatMap wordBytes).foldl mdel j.pend })

/-- The writes of a unit of an APPLY, a DIAG or an ACCST, the next unit being u: every word that is written for the last time is written as one;
of the others the bytes are held (R158). -/
def State.jobEmit (s : State) (j : Job) (u : Nat) (ws : List (Nat × List Byte)) : Except (BitVec 8 × Nat) (State × Job) :=
  let bs := writeBytes ws
  let pend := holdBytes j.pend bs
  match s.mergeFault j pend (j.writesLater u) ws with
  | some e => .error e
  | none => s.emitWords { j with pend := pend } ((wordsAt (bs.map (·.1))).filter (j.wordDone pend u))

/-- The words held by a job whose bytes can be written. -/
def State.flushable (s : State) (j : Job) : List Nat :=
  (wordsAt (j.pend.map (·.1))).filter fun w => (s.jobWriteAt j (bytesIn j.pend w)).toOption.isSome

/-- Before a job stops, what it holds is written: its completed progress stays (R195). -/
def State.flush (s : State) (j : Job) : Option (State × Job) :=
  let ws := s.flushable j
  if ws = [] then none else (s.emitWords j ws).toOption

/-- One batch of an APPLY (R184). DESIGN CHOICE: where different descriptors' ranges overlap, R184 leaves the order open; here batches are
ascending and each reads all its elements before it writes one (log 39). -/
def State.applyUnit (s : State) (j : Job) : Tried :=
  let src := j.desc (j.kreg 15).toNat
  let dst := j.desc (j.kreg 16).toNat
  let ents := bitsEntries (j.kreg 10)
  let J := ents.length
  let ix := (List.range (2 ^ J)).map (batchIndex (dN src) ents j.progress)
  s.fieldsReady j src dst (ix.filterMap (fieldAddr src)) (ix.filterMap (fieldAddr dst)) (
    match s.fieldRead j src ix, s.matEntries j (List.range (2 ^ J * 2 ^ J)) with
    | .error e, _ => .fault e.1 e.2
    | _, .error e => .fault e.1 e.2
    | .ok xs, .ok mat =>
      let rows := (List.range (2 ^ J)).map fun r => (mat.drop (r * 2 ^ J)).take (2 ^ J)
      let y := applyRows (j.matFmt = 11) (dFmt src = 11) ((j.kreg 8).getLsbD 0) (dFmt dst) j.rm.toNat xs j.seed rows
      let ws := (ix.zip y.1).filterMap fun p => (fieldAddr dst p.1).map fun a => (a, p.2)
      match s.jobEmit j (j.progress + 1) ws with
      | .error e => .fault e.1 e.2
      | .ok (s, j) => .did s { j with progress := j.progress + 1, seed := y.2.2, flags := j.flags ||| y.2.1 })

/-- One element of a DIAG (R185). DESIGN CHOICE: R185 skips void positions and does not say so of one void in the destination alone; here a
void source skips the element, and a void destination drops the write, and the word of a rounding with it, and keeps the flags of the product
(log 47). -/
def State.diagUnit (s : State) (j : Job) : Tried :=
  let src := j.desc (j.kreg 15).toNat
  let dst := j.desc (j.kreg 16).toNat
  let L := j.progress
  let ents := bitsEntries (j.kreg 10)
  let c := ((ents.zip (List.range ents.length)).map fun p => L / 2 ^ p.1 % 2 * 2 ^ p.2).sum
  let cm := j.matFmt = 11
  let cf := dFmt src = 11
  match fieldAddr src L with
  | none => .did s { j with progress := L + 1 }
  | some a =>
    s.fieldsReady j src dst [a] (fieldAddr dst L).toList (
      match s.fieldRead j src [L], s.matEntries j [c] with
      | .error e, _ => .fault e.1 e.2
      | _, .error e => .fault e.1 e.2
      | .ok xs, .ok vs =>
        let t := mixedStep cm cf ((j.kreg 8).getLsbD 0) j.rm.toNat (vs.zip xs)
        match fieldAddr dst L with
        | none => .did s { j with progress := L + 1, flags := j.flags ||| t.2 }
        | some b =>
          let e := encodeParts (dFmt dst) j.rm.toNat j.seed t.1
          match s.jobEmit j (L + 1) [(b, e.1)] with
          | .error f => .fault f.1 f.2
          | .ok (s, j) => .did s { j with progress := L + 1, seed := e.2.2, flags := j.flags ||| t.2 ||| e.2.1 })

/-! ## Accumulator transfers (R194) -/

/-- Words of an element in accumulator memory. -/
def accParts (fmt : Nat) : Nat := if fmt = 11 then 2 else 1

/-- One row of ACCLD: elements become FP32 exactly; a NaN becomes the canonical one, and a signalling one sets NV (R46, R194). -/
def State.accldUnit (s : State) (j : Job) : Tried :=
  let p := j.kreg 12
  let fmt := ptrFmt p
  let n := (j.kreg 5).toNat
  let i := j.progress
  let size := packedSize fmt
  match traverse (fun u => s.jobRead j (laneAddr p (i * (j.kreg 13).toInt + (u * size : Nat))) size) (List.range n) with
  | .error e => .fault e.1 e.2
  | .ok es =>
    let rs := es.flatMap fun bs => (elemParts fmt j.xm bs).map fun v => fround 10 false false 0 0 v
    let ws := rs.map fun r => BitVec.ofNat 32 r.1
    let base := (j.kreg 7).toNat / 4 + i * n * accParts fmt
    .did (s.setAcc j (((List.range ws.length).map (base + ·)).zip ws)) { j with progress := i + 1, flags := j.flags ||| orAll (rs.map (·.2)) }

/-- The elements of a row of ACCST as bytes, the words drawn in order (R194, R65). -/
def encodeRow (fmt rm : Nat) (xm : Bool) : BitVec 16 → List FVal → List (List Byte) × Flags × BitVec 16
  | seed, [] => ([], 0, seed)
  | seed, v :: rest =>
    let w := drawWord rm seed
    let r := encodeVal fmt xm rm w.1 v
    let q := encodeRow fmt rm xm w.2 rest
    (toBytes (packedSize fmt) r.1 :: q.1, r.2 ||| q.2.1, q.2.2)

/-- The records of a row of ACCST, 32 words drawn for each (R59, R65, R194). -/
def encodeRecords (fmt rm : Nat) (xm pad : Bool) : BitVec 16 → List (List FVal) → List (List Byte) × Flags × BitVec 16
  | seed, [] => ([], 0, seed)
  | seed, vs :: rest =>
    let ws := drawWords rm 32 seed
    let r := encodeRecord fmt xm rm ws.1 vs
    let q := encodeRecords fmt rm xm pad ws.2 rest
    ((r.1 ++ if pad then [0, 0, 0] else []) :: q.1, r.2 ||| q.2.1, q.2.2)

/-- One row of ACCST, its pages translated before the first write (R194). -/
def State.accstUnit (s : State) (j : Job) : Tried :=
  let p := j.kreg 12
  let fmt := ptrFmt p
  let n := (j.kreg 5).toNat
  let i := j.progress
  let base := (j.kreg 7).toNat / 4 + i * n * accParts fmt
  let vs := (List.range (n * accParts fmt)).map fun u => f32 (s.accWord j (base + u))
  let r :=
    if isBlock fmt then encodeRecords fmt j.rm.toNat j.xm (inWin (addr56 p)) j.seed (chunks 32 (n / 32) vs)
    else encodeRow (if fmt = 11 then 10 else fmt) j.rm.toNat j.xm j.seed vs
  let ws := (r.1.zip (List.range r.1.length)).map fun b => (j.accAddr i b.2, b.1)
  match s.jobEmit j (i + 1) ws with
  | .error e => .fault e.1 e.2
  | .ok (s, j) => .did s { j with progress := i + 1, seed := r.2.2, flags := j.flags ||| r.2.1 }

/-- One row of ACCZ. -/
def State.acczUnit (s : State) (j : Job) : Tried :=
  let n := (j.kreg 5).toNat
  let base := (j.kreg 7).toNat / 4 + j.progress * n
  .did (s.setAcc j ((List.range n).map fun u => (base + u, 0))) { j with progress := j.progress + 1 }

/-- Eight bytes of CTLOAD, into the bank that was inactive when it entered the queue (R62, R198). -/
def State.ctloadUnit (s : State) (j : Job) : Tried :=
  match s.jobRead j (laneAddr j.a (8 * j.progress : Nat)) 8 with
  | .error e => .fault e.1 e.2
  | .ok bs =>
    let e := s.jobEng j
    let put (m : SMap Byte) := ((List.range 8).zip bs).foldl (fun m p => mset 0 m (8 * j.progress + p.1) p.2) m
    .did (s.setEng j.oct j.ctx (if j.bank then { e with bank0 := put e.bank0 } else { e with bank1 := put e.bank1 }))
      { j with progress := j.progress + 1 }

end Sys2Proof.Machine
end

