-- ==== Sys2Proof/Machine/Engine.lean ====
section
/-!
DEFINITION. The ENG family (R167 to R198) and PREMAP and MATL (R192): register instructions, the issue of jobs (R169, R170)
with their checks, job control and code tables.
-/

namespace Sys2Proof.Machine

/-! ## Issue (R28, R169, R170) -/

/-- An EC instruction reads gd, ga and gb, gd in block mode, and writes gd (R28). -/
def ecForm (s : State) (d a b : Reg) (x y : Bool) (k : Out) : Out :=
  withOperands s [srcD d, srcA a x, srcB b y] [.g d] k

/-- No job may enter now: the queue is full, the counter is at its limit, or a store that the job must observe, of the slot or one that it
may have read, is not performed (R19, R159, R169). -/
def jobMustWait (s : State) (cnt : BitVec 4) : Bool :=
  64 ≤ (s.jobsOf (octetOf s.cur.core)).length || s.me.counter cnt = 0xFFFF || !s.released s.cur

/-- The live descriptors after remaps start (R189, R190). -/
def Slot.startRemaps (x : Slot) (rs : List Remap) : Slot := rs.foldl (fun x r => x.setDesc r.desc r.after) x

/-- A job enters the queue (R169, R170): remaps start, the snapshot is taken, modes, seed and bank are latched, the counter rises and
gd takes the job id. -/
def State.issueJob (s : State) (opc : BitVec 8) (d : Reg) (a b : Word) (remaps : List Remap) (list : List Word) : Out :=
  let oct := octetOf s.cur.core
  let ctx := s.ctxOf s.cur
  let cnt := b.extractLsb' 44 4
  if jobMustWait s cnt then s.stall
  else
    let e := s.eng oct ctx
    let dval := s.me.readG d
    let s := s.modMe fun x => x.startRemaps remaps
    let x := s.me
    let j : Job :=
      { id := e.nextId, ctx := ctx, owner := s.cur, phys := (s.agent s.cur).phys, opc := opc, a := a, b := b, dval := dval, k := x.k, d := x.d, rm := x.rm,
        xm := x.xm, seed := x.rngseed, bank := e.bank, st := .queued, progress := 0, flags := 0, cause := 0, fault := 0,
        remaps := remaps, list := list, part := [], ask := none, got := [], pend := [],
        sends := [], pour := none, inRemap := false }
    let s := (s.setJobs oct (s.jobsOf oct ++ [j])).setEng oct ctx { e with nextId := e.nextId + 1 }
    s.retire fun x =>
      { (x.writeG d (e.nextId.setWidth 64)).setCounter cnt (x.counter cnt + 1) with
          rngseed := if x.rm = 4 then lfsrNext x.rngseed else x.rngseed }

/-- The reserved bits of the control word of R170, with those that a form may use. -/
def ctlFault (b : Word) (inplace desc : Bool) : Option (BitVec 8 × Word) :=
  if b.extractLsb' 48 16 ≠ 0 || b.getLsbD 43 || b.extractLsb' 4 38 ≠ 0 || (b.getLsbD 42 && !inplace) ||
      (b.extractLsb' 0 4 ≠ 0 && !desc) then some (cACCESS, b) else none

/-- k.fmt (R180). -/
def kfmtFault (k : Word) : Option (BitVec 8 × Word) :=
  let mf := k.extractLsb' 11 5
  failIf (k.extractLsb' 16 48 ≠ 0 || k.extractLsb' 3 8 ≠ 0 || (k.getLsbD 2 && mf ≠ 10 && mf ≠ 11)) cACCESS k

/-- An accumulator range of n bytes from off (R179). DESIGN CHOICE: R179 does not say whether an empty range may begin past the window; here it
may not, and the offset is checked as for any other (log 80). -/
def accFault (s : State) (off : Word) (n : Nat) : Option (BitVec 8 × Word) :=
  failIf (off.toNat % 4 ≠ 0 || (s.ctx (s.ctxOf s.cur)).accw * 16384 < off.toNat + n) cACCESS off

/-- Pointer, then stride when it is used, against the element size (R165, R182, R194). -/
def alignFaults (p stride : Word) (used : Bool) : Option (BitVec 8 × Word) × Option (BitVec 8 × Word) :=
  let n := alignOf (ptrFmt p) (addr56 p)
  (failIf (addr56 p % n ≠ 0) cMISALIGN p, failIf (used && stride.toInt % n ≠ 0) cMISALIGN stride)

/-- Runs k unless a check fails. -/
def checked (s : State) (e : Option (BitVec 8 × Word)) (k : Out) : Out :=
  match e with
  | some (c, t) => s.trap c t
  | none => k

/-! ## Engine registers and descriptors (R174) -/

/-- ECFG (R174). -/
def execEcfg (n : BitVec 6) (a : Reg) (x : Bool) (s : State) : Out :=
  withOperands s [srcA a x] [] (s.retire fun t => t.setK n (t.readG a))

/-- An engine read of a value taken in program order: a long-latency producer, which counts in OUTST and waits at its limit (R15, R39, R174). -/
def engineRead (s : State) (d : Reg) (v : Word) : Out :=
  if s.myCore.outstFull then s.stall else .next ((s.addReq (.eng d v) true false).modMe fun x => (x.emptyG d).next)

/-- EREAD (R174). -/
def execEread (d : Reg) (n : BitVec 6) (s : State) : Out :=
  withOperands s [srcD d] [.g d] (engineRead s d (s.me.kreg n))

/-- FLDSET: waits while a remap runs on the descriptor (R174). -/
def execFldset (n : BitVec 4) (a : Reg) (w : BitVec 3) (x : Bool) (s : State) : Out :=
  withOperands s [srcA a x] [] (
    if dState (s.me.desc n) ≠ 0 then s.stall
    else s.retire fun t => t.setDesc n (dput (t.desc n) (64 * w.toNat) 64 (t.readG a).toNat))

/-- FLDGET (R174). -/
def execFldget (d : Reg) (n : BitVec 4) (w : BitVec 3) (s : State) : Out :=
  withOperands s [srcD d] [.g d] (engineRead s d (BitVec.ofNat 64 (dbits (s.me.desc n) (64 * w.toNat) 64)))

/-! ## Jobs of the matrix engine -/

/-- MMA (R182). -/
def execMma (d b : Reg) (y : Bool) (s : State) : Out :=
  ecForm s d 0 b false y (
    let gb := s.me.readG b
    let k (n : BitVec 6) := s.me.kreg n
    let fa := ptrFmt (k 0)
    let fb := ptrFmt (k 2)
    let aa := alignFaults (k 0) (k 1) (1 < (k 4).toNat)
    let ab := alignFaults (k 2) (k 3) (1 < (k 5).toNat)
    checked s (firstFault
      [ctlFault gb false false, kfmtFault (k 8), ptrFault (k 0), ptrFault (k 2), failIf (perStep fa = 0) cFMTFAULT (k 0),
       failIf (!pairOk fa fb) cFMTFAULT (k 2), failIf ((k 0).getLsbD 55) cACCESS (k 0), failIf ((k 2).getLsbD 55) cACCESS (k 2),
       failIf (65535 < (k 4).toNat) cACCESS (k 4), failIf (65535 < (k 5).toNat) cACCESS (k 5),
       failIf (2 ^ 32 ≤ (k 6).toNat || (k 6).toNat % kMultiple fa fb ≠ 0) cACCESS (k 6),
       accFault s (k 7) ((k 4).toNat * (k 5).toNat * (if fa = 11 then 8 else 4)), aa.1, ab.1, aa.2, ab.2])
      (s.issueJob 4 d 0 gb [] []))

/-- The bits of k.bits are well formed for a limit on J (R184, R185). -/
def bitsFault (k : Word) (jmax : Nat) : Option (BitVec 8 × Word) :=
  let J := bitsJ k
  let es := bitsEntries k
  failIf (J = 0 || jmax < J || k.extractLsb' 4 4 ≠ 0 || k.toNat / 2 ^ (8 + 6 * J) ≠ 0 || !es.Nodup || es.any (39 < ·)) cACCESS k

/-- The checks of APPLY and DIAG after gb (R184, R185). -/
def fieldOpFault (s : State) (jmax : Nat) : Option (BitVec 8 × Word) :=
  let k (n : BitVec 6) := s.me.kreg n
  let src := s.me.desc ((k 15).setWidth 4)
  let dst := s.me.desc ((k 16).setWidth 4)
  let J := bitsJ (k 10)
  let msrc := (k 8).getLsbD 2
  let mf := if msrc then ((k 8).extractLsb' 11 5).toNat else ptrFmt (k 14)
  let count := if jmax = 8 then 2 ^ J else 2 ^ J * 2 ^ J
  firstFault
    [kfmtFault (k 8), failIf (15 < (k 15).toNat) cACCESS (k 15), failIf (15 < (k 16).toNat) cACCESS (k 16), bitsFault (k 10) jmax,
     failIf ((k 11).extractLsb' 1 63 ≠ 0) cACCESS (k 11), descFault src (k 15).toNat, descFault dst (k 16).toNat,
     failIf (dFmt src ≠ dFmt dst || dFmt src < 8 || 11 < dFmt src || dN src ≠ dN dst) cFMTFAULT (dBase dst),
     failIf ((bitsEntries (k 10)).any (dN src ≤ ·)) cACCESS (k 10),
     if msrc then none else ptrFault (k 14), failIf (!msrc && mf ≠ 10 && mf ≠ 11) cFMTFAULT (k 14),
     failIf (mf = 11 && dFmt src ≠ 11) cFMTFAULT (if msrc then k 8 else k 14),
     failIf (!msrc && addr56 (k 14) % packedSize mf ≠ 0) cMISALIGN (k 14),
     if msrc then accFault s (k 14) (count * packedSize mf) else none]

/-- The descriptors that an APPLY names, each once. -/
def applyDescs (x : Slot) : List (BitVec 4) :=
  let a := (x.kreg 15).setWidth 4
  let b := (x.kreg 16).setWidth 4
  if a = b then [a] else [a, b]

/-- The remaps that an APPLY with k.remap = 1 requires (R188). -/
def applyRemaps (x : Slot) : List Remap :=
  let ents := bitsEntries (x.kreg 10)
  (applyDescs x).filterMap fun n =>
    let d := x.desc n
    if (x.kreg 11).getLsbD 0 && dShadow d ≠ 0 && ents.any (fun e => ents.length + 4 ≤ dMap d e) then
      some (newRemap n d false (remapMap d fun i => ents.contains i))
    else none

/-- APPLY (R184, R188). -/
def execApply (d b : Reg) (y : Bool) (s : State) : Out :=
  ecForm s d 0 b false y (
    let gb := s.me.readG b
    checked s (firstFault [ctlFault gb false false, fieldOpFault s 4]) (
      if (s.me.kreg 11).getLsbD 0 && (applyDescs s.me).any (fun n => dState (s.me.desc n) ≠ 0) then s.stall
      else s.issueJob 5 d 0 gb (applyRemaps s.me) []))

/-- DIAG (R185). -/
def execDiag (d b : Reg) (y : Bool) (s : State) : Out :=
  ecForm s d 0 b false y (
    let gb := s.me.readG b
    checked s (firstFault [ctlFault gb false false, fieldOpFault s 8]) (s.issueJob 6 d 0 gb [] []))

/-- A range of logical bits touches a bounded axis (R186). -/
def touchesBounded (d : BitVec 512) (A W : Nat) : Bool :=
  axes.any fun a =>
    let f := axisStart d a
    let w := dWidth d a
    0 < w && A < f + w && f < A + W && dLast d / 2 ^ f % 2 ^ w ≠ 2 ^ w - 1

/-- A range is exactly one whole axis. -/
def wholeAxis (d : BitVec 512) (A W : Nat) : Bool := axes.any fun a => 0 < W && axisStart d a = A && dWidth d a = W

/-- The checks of PERM (R186). -/
def permFault (d : BitVec 512) (n : BitVec 4) (ga : Word) : Option (BitVec 8 × Word) :=
  let mode := (ga.extractLsb' 24 2).toNat
  let B := (ga.extractLsb' 16 6).toNat
  let W := (ga.extractLsb' 8 6).toNat
  let A := (ga.extractLsb' 0 6).toNat
  let N := dN d
  firstFault
    [failIf (ga.extractLsb' 26 38 ≠ 0 || ga.extractLsb' 22 2 ≠ 0 || ga.extractLsb' 14 2 ≠ 0 || ga.extractLsb' 6 2 ≠ 0 || mode = 3 ||
        W = 0 || 40 < W || (mode = 2 && W ≤ B) || (mode = 1 && B ≠ 0)) cACCESS ga,
     descFault d n.toNat,
     failIf (N < A + W || (mode = 0 && (N < B + W || overlaps A W B W))) cACCESS ga,
     failIf ((touchesBounded d A W || (mode = 0 && touchesBounded d B W)) &&
        !(mode = 0 && wholeAxis d A W && wholeAxis d B W)) cACCESS ga]

/-- The descriptor that PERM leaves (R186). -/
def permuted (d : BitVec 512) (ga : Word) : BitVec 512 :=
  let σ := permSigma (ga.extractLsb' 24 2).toNat (ga.extractLsb' 0 6).toNat (ga.extractLsb' 16 6).toNat (ga.extractLsb' 8 6).toNat
  let last := ((List.range (dN d)).map fun i => dLast d / 2 ^ σ i % 2 * 2 ^ i).sum
  dput (dSetMap d fun i => dMap d (σ i)) 448 40 last

/-- PERM (R186). -/
def execPerm (n : BitVec 4) (a : Reg) (x : Bool) (s : State) : Out :=
  withOperands s [srcA a x] [] (
    let ga := s.me.readG a
    checked s (permFault (s.me.desc n) n ga) (s.retire fun t => t.setDesc n (permuted (t.desc n) ga)))

/-- The checks of PREMAP and MATL after gb (R190, R192). -/
def remapFault (d : BitVec 512) (n : BitVec 4) (inplace : Bool) (mask : Option Word) : Option (BitVec 8 × Word) :=
  let base := dbits d 0 55
  let len := 2 ^ dN d * dSize d base
  let size := packedSize (dFmt d)
  firstFault
    [descFault d n.toNat,
     match mask with | some ga => failIf (ga.extractLsb' 40 24 ≠ 0 || ga.toNat / 2 ^ dN d ≠ 0) cACCESS ga | none => none,
     failIf (isBlock (dFmt d)) cFMTFAULT (dBase d),
     failIf (inplace && size ≠ 4 && size ≠ 8) cFMTFAULT (dBase d),
     failIf (!inplace && (dShadow d = 0 || overlaps base len (dShadow d) len)) cACCESS (n.setWidth 64)]

/-- PREMAP and MATL once their operands are read (R188, R192). -/
def remapForm (s : State) (opc : BitVec 8) (d : Reg) (ga gb : Word) (mask : Option Word) (S : BitVec 512 → Nat → Nat) : Out :=
  let n := gb.extractLsb' 0 4
  let inplace := gb.getLsbD 42
  let desc := s.me.desc n
  checked s (firstFault [ctlFault gb true true, remapFault desc n inplace mask]) (
    if dState desc ≠ 0 then s.stall else s.issueJob opc d ga gb [newRemap n desc inplace (S desc)] [])

/-- MATL: a remap to the identity map (R187, R192). -/
def execMatl (d b : Reg) (y : Bool) (s : State) : Out :=
  ecForm s d 0 b false y (remapForm s 8 d 0 (s.me.readG b) none fun _ i => i)

/-- PREMAP: a remap to a mask (R187, R192). -/
def execPremap (d a b : Reg) (x y : Bool) (s : State) : Out :=
  ecForm s d a b x y (
    let ga := s.me.readG a
    remapForm s 0x84 d ga (s.me.readG b) (some ga) fun e => remapMap e fun i => ga.getLsbD i)

/-- The checks of the accumulator transfers (R194). -/
def accOpFault (s : State) (gb : Word) (formats : Nat → Bool) (memory store : Bool) : Option (BitVec 8 × Word) :=
  let k (n : BitVec 6) := s.me.kreg n
  let fmt := ptrFmt (k 12)
  let al := alignFaults (k 12) (k 13) (1 < (k 4).toNat)
  firstFault
    [ctlFault gb false false, if memory then ptrFault (k 12) else none, failIf (memory && !formats fmt) cFMTFAULT (k 12),
     failIf (65535 < (k 4).toNat) cACCESS (k 4), failIf (65535 < (k 5).toNat) cACCESS (k 5),
     failIf (store && isBlock fmt && (k 5).toNat % 32 ≠ 0) cACCESS (k 5),
     accFault s (k 7) ((k 4).toNat * (k 5).toNat * (if memory && fmt = 11 then 8 else 4)),
     if memory then al.1 else none, if memory then al.2 else none]

/-- ACCLD (R194). -/
def execAccld (d b : Reg) (y : Bool) (s : State) : Out :=
  ecForm s d 0 b false y (
    let gb := s.me.readG b
    checked s (accOpFault s gb (fun f => 8 ≤ f && f ≤ 11) true false) (s.issueJob 9 d 0 gb [] []))

/-- ACCST (R194). -/
def execAccst (d b : Reg) (y : Bool) (s : State) : Out :=
  ecForm s d 0 b false y (
    let gb := s.me.readG b
    checked s (accOpFault s gb (fun f => convertible f || f = 11 || (17 ≤ f && f ≤ 19)) true true) (s.issueJob 10 d 0 gb [] []))

/-- ACCZ (R194). -/
def execAccz (d b : Reg) (y : Bool) (s : State) : Out :=
  ecForm s d 0 b false y (
    let gb := s.me.readG b
    checked s (accOpFault s gb (fun _ => true) false false) (s.issueJob 11 d 0 gb [] []))

/-! ## Status and control (R196, R197) -/

/-- A job of the issuing slot by its id. -/
def State.myJob (s : State) (id : BitVec 16) : Option Job :=
  match s.job (octetOf s.cur.core) (s.ctxOf s.cur) id with
  | some j => if j.owner = s.cur then some j else none
  | none => none

/-- The entry that a PCOLL takes next: those before it are performed or on their way (R286). -/
def Job.entry (j : Job) : Nat := j.progress + j.sends.length

/-- Entry i of a PCOLL list needs its field remapped first (R286); issue marks it so in a bit that is 0 in the list itself. -/
def Job.exports (j : Job) (i : Nat) : Bool := (j.list.getD (4 * i + 2) 0).getLsbD 63

/-- A PCOLL stands at an entry whose export remap is not complete (R286). -/
def Job.atRemap (j : Job) : Bool :=
  j.exports j.entry && (((List.range (j.list.length / 4)).drop j.entry).filter j.exports).length = j.remaps.length

/-- ST of the status word (R196). -/
def Job.stCode (j : Job) : Nat :=
  match j.st with
  | .stopped => 3
  | .queued => if j.remaps ≠ [] && !j.isRemap && j.opc ≠ 0x86 then 4 else 1
  | .running => if j.remaps ≠ [] && !j.isRemap && (j.opc ≠ 0x86 || j.atRemap) then 4 else 2

/-- What ESTAT reads (R196). -/
def State.estat (s : State) (ga : Word) : Word :=
  let j? := s.myJob (ga.setWidth 16)
  match (ga.extractLsb' 16 2).toNat, j? with
  | 3, _ => BitVec.ofNat 64 ((s.ctx (s.ctxOf s.cur)).accw * 16384)
  | 0, some j =>
    BitVec.ofNat 64 (j.stCode * 2 ^ 61 + (if j.st = .stopped then j.cause.toNat else 0) * 2 ^ 48 + j.cnt.toNat * 2 ^ 44 + j.opc.toNat * 2 ^ 32)
  | 1, some j => if j.st = .stopped then j.fault else 0
  | 2, some j => BitVec.ofNat 64 j.shown
  | _, _ => 0

/-- ESTAT (R196). -/
def execEstat (d a : Reg) (x : Bool) (s : State) : Out :=
  withOperands s [srcD d, srcA a x] [.g d] (engineRead s d (s.estat (s.me.readG a)))

/-- A job leaves the queue: flags into FSTAT, the counter falls, the slot wakes (R53, R172, R197). -/
def State.finishJob (s : State) (oct : Nat) (j : Job) : State :=
  (s.dropJob oct j).modSlot j.owner fun x =>
    let c := x.counter j.cnt
    ((x.flag j.flags).setCounter j.cnt (if c = 0 then 0 else c - 1)).wake

/-- ERESUME and ABANDON (R197): ABANDON is gb[0]. A job on accumulator memory starts again as a queued one, behind the jobs that have passed
it (R171). -/
def resumeForm (d a b : Reg) (x y : Bool) (s : State) : Out :=
  ecForm s d a b x y (
    let ga := s.me.readG a
    let gb := s.me.readG b
    if gb.extractLsb' 1 63 ≠ 0 then s.trap cACCESS gb
    else match s.myJob (ga.setWidth 16) with
      | none => s.trap cACCESS ga
      | some j =>
        if j.st ≠ .stopped then s.trap cACCESS ga
        else if gb.getLsbD 0 then
          if j.inRemap then s.trap cACCESS ga
          else (s.finishJob j.oct j).retireG d (j.id.setWidth 64)
        else
          let st : JobSt := if (j.remaps ≠ [] && j.opc = 5) || j.usesAcc then .queued else .running
          (s.setJob j.oct { j with st := st, cause := 0, fault := 0, inRemap := false }).retireG d (j.id.setWidth 64))

/-- ERESUME (R197). -/
def execEresume (d a b : Reg) (x y : Bool) (s : State) : Out := resumeForm d a b x y s

/-- ABANDON: ERESUME with gb[0] = 1 (R197); the two share their words (log 13). -/
def execAbandon (d a b : Reg) (x y : Bool) (s : State) : Out := resumeForm d a b x y s

/-! ## Code tables (R61, R62, R198) -/

/-- An engine job of the context that latched the inactive bank is in the queue (R61, R62). -/
def State.tableBusy (s : State) : Bool :=
  let ctx := s.ctxOf s.cur
  let bank := (s.eng (octetOf s.cur.core) ctx).bank
  (s.jobsOf (octetOf s.cur.core)).any fun j => j.ctx = ctx && j.opc.toNat < 0x80 && j.bank ≠ bank

/-- CTLOAD (R198). -/
def execCtload (d a b : Reg) (x y : Bool) (s : State) : Out :=
  ecForm s d a b x y (
    let ga := s.me.readG a
    let gb := s.me.readG b
    checked s (firstFault [ctlFault gb false false, ptrFault ga, failIf (ptrFmt ga ≠ 0) cFMTFAULT ga, failIf (addr56 ga % 8 ≠ 0) cMISALIGN ga])
      (if s.tableBusy then s.stall else s.issueJob 13 d ga gb [] []))

/-- CTSWAP (R198). -/
def execCtswap (d : Reg) (s : State) : Out :=
  withOperands s [srcD d] [.g d] (
    let oct := octetOf s.cur.core
    let ctx := s.ctxOf s.cur
    if s.tableBusy || (s.jobsOf oct).any (fun j => j.ctx = ctx && j.opc = 13) then s.stall
    else
      let e := s.eng oct ctx
      (s.setEng oct ctx { e with bank := !e.bank }).retireG d (boolWord !e.bank))

end Sys2Proof.Machine
end

