-- ==== Sys2Proof/Machine/Pour.lean ====
section
/-!
DEFINITION. The POUR jobs: LCOPY, PCOPY, PFILL and PTAG (R165, R166), PSCRUB (R300 to R302), PCOLL (R285 to R287), their issue and
one unit of their work; and the units of remaps (R189, R190).
-/

namespace Sys2Proof.Machine

/-! ## Issue of copies (R165) -/

/-- A pointer names the package's own device (R274). -/
def ownFault (s : State) (p : Word) : Option (BitVec 8 × Word) := failIf (s.ownDevice (addr56 p)) cACCESS p

/-- Rows and elements of the control word. -/
def rowsOf (b : Word) : Nat := (b.extractLsb' 48 16).toNat
def nelemOf (b : Word) : Nat := (b.extractLsb' 0 32).toNat

/-- LCOPY and PCOPY (R165). -/
def copyForm (s : State) (opc : BitVec 8) (d a b : Reg) (x y peer : Bool) : Out :=
  ecForm s d a b x y (
    let ga := s.me.readG a
    let gb := s.me.readG b
    let dst := s.me.kreg 12
    let fs := ptrFmt ga
    let fd := ptrFmt dst
    let used := 1 < rowsOf gb
    let la := alignFaults ga (s.me.kreg 1) used
    let lc := alignFaults dst (s.me.kreg 13) used
    checked s (firstFault
      [ptrFault ga, ptrFault dst, failIf (gb.extractLsb' 32 11 ≠ 0) cACCESS gb,
       if peer then ownFault s ga else failIf (ga.getLsbD 55) cACCESS ga,
       if peer then ownFault s dst else failIf (dst.getLsbD 55) cACCESS dst,
       failIf (fs ≠ fd && (!convertible fs || !convertible fd)) cFMTFAULT dst, la.1, lc.1, la.2, lc.2])
      (s.issueJob opc d ga gb [] []))

/-- LCOPY (R165). -/
def execLcopy (d a b : Reg) (x y : Bool) (s : State) : Out := copyForm s 0x80 d a b x y false
/-- PCOPY (R165). -/
def execPcopy (d a b : Reg) (x y : Bool) (s : State) : Out := copyForm s 0x81 d a b x y true

/-- PFILL: gd's value (R165). -/
def execPfill (d a b : Reg) (x y : Bool) (s : State) : Out :=
  ecForm s d a b x y (
    let ga := s.me.readG a
    let gb := s.me.readG b
    let al := alignFaults ga (s.me.kreg 13) (1 < rowsOf gb)
    checked s (firstFault [ptrFault ga, failIf (gb.extractLsb' 32 12 ≠ 0) cACCESS gb, ownFault s ga,
        failIf (isBlock (ptrFmt ga)) cFMTFAULT ga, al.1, al.2])
      (s.issueJob 0x82 d ga gb [] []))

/-- PTAG (R165). -/
def execPtag (d a b : Reg) (x y : Bool) (s : State) : Out :=
  ecForm s d a b x y (
    let ga := s.me.readG a
    let gb := s.me.readG b
    checked s (firstFault [ptrFault ga, failIf (gb.extractLsb' 33 11 ≠ 0) cACCESS gb, ownFault s ga,
        failIf (ga.extractLsb' 0 2 ≠ 0) cMISALIGN ga,
        failIf (1 < rowsOf gb && (s.me.kreg 13).toInt % 4 ≠ 0) cMISALIGN (s.me.kreg 13)])
      (s.issueJob 0x83 d ga gb [] []))

/-- PSCRUB (R300). -/
def execPscrub (d a b : Reg) (x y : Bool) (s : State) : Out :=
  ecForm s d a b x y (
    let ga := s.me.readG a
    let gb := s.me.readG b
    let cb := s.me.kreg 12
    let n := 128 * nelemOf gb
    let lo := addr56 ga
    checked s (firstFault [ptrFault ga, ptrFault cb, failIf (gb.extractLsb' 48 16 ≠ 0 || gb.extractLsb' 32 12 ≠ 0) cACCESS gb,
        failIf (ga.getLsbD 55) cACCESS ga, failIf (cb.getLsbD 55) cACCESS cb,
        failIf (ga.extractLsb' 0 7 ≠ 0) cMISALIGN ga, failIf (cb.extractLsb' 0 2 ≠ 0) cMISALIGN cb,
        failIf (0 < n && overlaps lo n winBase (winEnd - winBase) && !(winBase ≤ lo && lo + n ≤ winEnd)) cACCESS ga])
      (s.issueJob 0x85 d ga gb [] []))

/-! ## Issue of PCOLL (R285) -/

/-- The list of PCOLL: four doublewords an entry. -/
def listWords : List Byte → List Word
  | a :: b :: c :: d :: e :: f :: g :: h :: rest => BitVec.ofNat 64 (leNat [a, b, c, d, e, f, g, h]) :: listWords rest
  | _ => []

/-- A block entry of PCOLL. -/
structure Block where
  src : Word
  dst : Word
  info : Word
  notify : Word
  deriving DecidableEq, Repr

/-- Entry i of a list. -/
def blockAt (ws : List Word) (i : Nat) : Block :=
  ⟨ws.getD (4 * i) 0, ws.getD (4 * i + 1) 0, ws.getD (4 * i + 2) 0, ws.getD (4 * i + 3) 0⟩

def Block.field (e : Block) : Bool := e.info.getLsbD 32
def Block.desc (e : Block) : BitVec 4 := e.info.extractLsb' 36 4
def Block.len (e : Block) : Nat := (e.info.extractLsb' 0 32).toNat
/-- The map of a descriptor is the identity. -/
def identityMap (d : BitVec 512) : Bool := (List.range (dN d)).all fun i => dMap d i = i

/-- The checks of an entry (R285), at the given address. DEDUCED: a NOTIFY that names a die of this package above DIEMAX traps as R9 lays down
for every instruction that names such a die, though R285's list does not repeat it (log 40). -/
def blockFault (s : State) (e : Block) (reduce : Bool) (at_ : Nat) : Option (BitVec 8 × Word) :=
  let d := s.me.desc e.desc
  let bad := e.src.getLsbD 55 || s.ownDevice (addr56 e.dst) || ptrFmt e.src ≠ ptrFmt e.dst || (reduce && ptrFmt e.src ≠ 10) ||
    isBlock (ptrFmt e.src) || e.info.extractLsb' 33 3 ≠ 0 || e.info.extractLsb' 40 24 ≠ 0 ||
    (if e.field then e.len ≠ 0 else e.len % 4 ≠ 0 || e.len < 4 || 2 ^ 20 < e.len)
  firstFault
    [ptrFault e.src, ptrFault e.dst, failIf bad cACCESS (BitVec.ofNat 64 at_),
     failIf (e.notify ≠ 0 && e.notify.extractLsb' 40 16 ≠ (if e.dst.getLsbD 55 then e.dst.extractLsb' 40 16 else 0)) cACCESS
        (BitVec.ofNat 64 at_),
     failIf (e.notify ≠ 0 && !e.notify.getLsbD 55 && (s.diemaxOf s.cur).toNat < (e.notify.extractLsb' 16 3).toNat) cACCESS
        ((e.notify.extractLsb' 16 3).setWidth 64),
     if e.field then descFault d e.desc.toNat else none,
     failIf (e.field && !identityMap d && dShadow d = 0) cACCESS (e.desc.setWidth 64)]

/-- The entries of a list and the remaps they need: the first entry of a field whose map is not the identity (R286). DESIGN CHOICE: R188 and R286
leave open whether a field with a shadow whose map is the identity already is remapped; here it is not (log 81). -/
def exportRemaps (x : Slot) : List Block → List (BitVec 4) → List Word × List Remap
  | [], _ => ([], [])
  | e :: rest, seen =>
    let d := x.desc e.desc
    let need := e.field && !seen.contains e.desc && !identityMap d
    let r := exportRemaps x rest (if e.field then e.desc :: seen else seen)
    ([e.src, e.dst, if need then e.info ||| (1#64 <<< 63) else e.info, e.notify] ++ r.1,
      if need then newRemap e.desc d false (fun i => i) :: r.2 else r.2)

/-- PCOLL (R285). -/
def execPcoll (d a b : Reg) (x y : Bool) (s : State) : Out :=
  ecForm s d a b x y (
    let ga := s.me.readG a
    let gb := s.me.readG b
    let n := (gb.extractLsb' 0 7).toNat
    match ownBytes s ga (32 * n) with
    | .error (c, t) => s.trap c t
    | .ok keys =>
      if gb.extractLsb' 48 16 ≠ 0 || gb.extractLsb' 7 35 ≠ 0 || gb.getLsbD 43 || n = 0 || 64 < n then s.trap cACCESS gb
      else if s.me.acquiring || s.me.waitsFor (addr56 ga) (32 * n) then s.stall
      else if s.isPoisoned keys then s.trap cUNCORR (s.badLine (addr56 ga) keys)
      else
        let ws := listWords (s.bytes keys)
        let es := (List.range n).map (blockAt ws)
        let fault := (es.zip (List.range n)).findSome? fun e => blockFault s e.1 (gb.getLsbD 42) (addr56 ga + 32 * e.2)
        checked s fault (
          if es.any fun e => e.field && dState (s.me.desc e.desc) ≠ 0 then s.stall
          else
            let r := exportRemaps s.me es []
            s.issueJob 0x86 d ga gb r.2 r.1))

/-! ## Units of copies -/

/-- Asks a peer on behalf of a job (R274): a device that is not reachable answers at once with code 5. Stages: 0 a read, 1 a write. -/
def State.jobAsk (s : State) (j : Job) (stage ea : Nat) (op : PeerOp) : Tried :=
  let n := s.nextReq
  let s := { s with nextReq := n + 1 }
  if s.fab.reaches (peerDev ea) then
    .did (s.sendFrame (peerDev ea) j.owner n 0 (.access op)) { j with ask := some ⟨stage, n, s.time, none⟩ }
  else .did s { j with ask := some ⟨stage, n, s.time, some (5, [])⟩ }

/-- The cause with which a job stops when its request to a peer failed (R166, R281). -/
def askCause (code : Nat) : BitVec 8 := if code = 12 then cUNCORR else cREMOTEFAIL

/-- The bytes that a source element becomes, with flags and generator (R41, R57, R165). -/
def copyBytes (fs fd rm : Nat) (xm padDst : Bool) (seed : BitVec 16) (bs : List Byte) : List Byte × Flags × BitVec 16 :=
  if fs = fd then (stored fd bs ++ (if isBlock fd && padDst then [0, 0, 0] else []), 0, seed)
  else
    let w := if convRounds fs fd then drawWord rm seed else (0, seed)
    let r := encodeVal fd xm rm w.1 (decodeVal fs xm (leNat bs))
    (toBytes (packedSize fd) r.1, r.2, w.2)

/-- The bytes of several elements, in order. -/
def copyAll (fs fd rm : Nat) (xm padDst : Bool) : BitVec 16 → List (List Byte) → List Byte × Flags × BitVec 16
  | seed, [] => ([], 0, seed)
  | seed, bs :: rest =>
    let c := copyBytes fs fd rm xm padDst seed bs
    let q := copyAll fs fd rm xm padDst c.2.2 rest
    (c.1 ++ q.1, c.2.1 ||| q.2.1, q.2.2)

/-- Address of element i of row r. -/
def gridAddr (p : Word) (stride : Word) (r i size : Nat) : Nat := laneAddr p (r * stride.toInt + (i * size : Nat))

/-- Address of element u of a copy, fill or tag job, counted row by row. -/
def Job.gridAt (j : Job) (p stride : Word) (size u : Nat) : Nat := gridAddr p stride (u / nelemOf j.b) (u % nelemOf j.b) size

/-- The destination pointer of a copy or fill. -/
def Job.dst (j : Job) : Word := if j.opc = 0x82 then j.a else j.kreg 12

/-- Size of an element where a pointer's region puts it (R57). -/
def sizeAt (p : Word) : Nat := elemSize (ptrFmt p) (inWin (addr56 p))

def Job.dstAddr (j : Job) (u : Nat) : Nat := j.gridAt j.dst (j.kreg 13) (sizeAt j.dst) u
def Job.srcAddr (j : Job) (u : Nat) : Nat := j.gridAt j.a (j.kreg 1) (sizeAt j.a) u

/-- Elements of a copy or fill. -/
def Job.elems (j : Job) : Nat := rowsOf j.b * nelemOf j.b

/-- Destination addresses of an element's bytes. -/
def Job.elemBytes (j : Job) (u : Nat) : List Nat := keysFrom (j.dstAddr u) (sizeAt j.dst)

/-- Element u goes on the words that elements before it, on words ws, have written in part; at a peer, right behind them. -/
def Job.joins (j : Job) (ws : List Nat) (u : Nat) : Bool :=
  u < j.elems && (wordsAt (j.elemBytes u)).any ws.contains &&
    (!isPeer (j.dstAddr u) || (j.dstAddr (u - 1) + sizeAt j.dst = j.dstAddr u && j.dstAddr u % 4 ≠ 0))

/-- Elements from u that one step writes: those that share words, so that no load sees a word in part new (R158). `more` bounds what follows
the first, which lies on words ws. -/
def Job.batchOn (j : Job) (ws : List Nat) : Nat → Nat → Nat
  | 0, _ => 1
  | more + 1, u => if j.joins ws (u + 1) then 1 + j.batchOn (ws ++ wordsAt (j.elemBytes (u + 1))) more (u + 1) else 1

def Job.batch (j : Job) (u : Nat) : Nat := j.batchOn (wordsAt (j.elemBytes u)) 3 u

/-- The bytes that elements become at the destination (R165). -/
def Job.convert (j : Job) (es : List (List Byte)) : List Byte × Flags × BitVec 16 :=
  if j.opc = 0x82 then (es.flatten, 0, j.seed)
  else copyAll (ptrFmt j.a) (ptrFmt j.dst) j.rm.toNat j.xm (inWin (addr56 j.dst)) j.seed es

/-- Elements have been written: the job's progress, flags and generator (R53, R65). -/
def Job.wrote (j : Job) (es : List (List Byte)) : Job :=
  let c := j.convert es
  { j with progress := j.progress + es.length, seed := c.2.2, flags := j.flags ||| c.2.1, got := [], ask := none }

/-- The words of a peer's window that a write of the job completes, and the job with the parts it has written (R147). -/
def Job.peerParts (j : Job) (ea n : Nat) : SMap Nat × List Nat :=
  let r := fillParts j.part (keysFrom ea n)
  (r.1, r.2.map fun w => peerOff (4 * w) / 4)

/-- The writes of elements from the next one on. -/
def Job.batchWrites (j : Job) (es : List (List Byte)) : List (Nat × List Byte) :=
  ((List.range es.length).map (j.dstAddr <| j.progress + ·)).zip (chunks (sizeAt j.dst) (es.length) (j.convert es).1)

/-- The first elements, as many as can be written, are written in one step, each word as one; none can, and the job stops (R158, R166). -/
def State.writeBatch (s : State) (j : Job) (es : List (List Byte)) : Tried :=
  let da := j.dstAddr j.progress
  if isPeer da then
    let bs := (j.convert es).1
    s.jobAsk j 1 da (.put (peerOff da) bs (j.peerParts da bs.length).2)
  else
    let pend (n : Nat) := holdBytes [] (writeBytes (j.batchWrites (es.take n)))
    let fault (n : Nat) := s.mergeFault j (pend n) (fun _ => false) (j.batchWrites (es.take n))
    match ((List.range es.length).map (es.length - ·)).find? fun n => (fault n).isNone with
    | none => match fault 1 with | some e => .fault e.1 e.2 | none => .wait
    | some n =>
      match s.jobWrites j ((wordsAt ((pend n).map (·.1))).map (bytesIn (pend n))) with
      | .error e => .fault e.1 e.2
      | .ok (s, j) => .did s (j.wrote (es.take n))

/-- The peer has performed the write of a batch. -/
def Job.peerWrote (j : Job) (es : List (List Byte)) : Job :=
  let j' := j.wrote es
  { j' with part := (j.peerParts (j.dstAddr j.progress) (j.convert es).1.length).1 }

/-- A source element of a copy is there; with the last of its batch, the batch is written (R158). -/
def State.gotElem (s : State) (j : Job) (bs : List Byte) : Tried :=
  let j := { j with got := j.got ++ [bs], ask := none }
  if j.batch j.progress ≤ j.got.length then s.writeBatch j j.got else .did s j

/-- A source element cannot be read: those before it are written, and the job stops at it (R166). -/
def State.noElem (s : State) (j : Job) (cause : BitVec 8) (va : Nat) : Tried :=
  if j.got = [] || cause = 0 then .fault cause va else s.writeBatch { j with ask := none } j.got

/-- LCOPY and PCOPY: the next source element, or the next write (R165). -/
def State.copyUnit (s : State) (j : Job) : Tried :=
  let n := packedSize (ptrFmt j.a)
  let sa := j.srcAddr (j.progress + j.got.length)
  match j.ask with
  | some ⟨_, _, _, none⟩ => .wait
  | some ⟨1, _, _, some (c, _)⟩ => if c = 0 then .did s (j.peerWrote j.got) else .fault (askCause c) (j.dstAddr j.progress)
  | some ⟨_, _, _, some (c, bs)⟩ =>
    if c ≠ 0 then s.noElem j (askCause c) sa
    else if bs.length = n then s.gotElem j bs else .did s { j with ask := none }
  | none =>
    if isPeer sa then s.jobAsk j 0 sa (if j.b.getLsbD 43 then .syncLoad (peerOff sa) n false else .read (peerOff sa) n)
    else match s.jobLoc j sa n permR with
      | .error e => s.noElem j e.1 e.2
      | .ok l =>
        if j.b.getLsbD 43 && !s.locFull l then s.jobWait j sa l
        else if s.isPoisoned l.keys then s.noElem j cUNCORR sa
        else (s.used (s.jobAgent j) sa n).gotElem j (s.jobBytes j l.keys)

/-- PFILL: the next write (R165). -/
def State.fillUnit (s : State) (j : Job) : Tried :=
  let fmt := ptrFmt j.a
  let es := List.replicate (j.batch j.progress) (stored fmt (toBytes (packedSize fmt) j.dval.toNat))
  match j.ask with
  | some ⟨_, _, _, none⟩ => .wait
  | some ⟨_, _, _, some (c, _)⟩ => if c = 0 then .did s (j.peerWrote es) else .fault (askCause c) (j.dstAddr j.progress)
  | none => s.writeBatch j es

/-- One word of PTAG (R165, R166). -/
def State.tagUnit (s : State) (j : Job) : Tried :=
  let da := j.gridAt j.a (j.kreg 13) 4 j.progress
  match j.ask with
  | some ⟨_, _, _, none⟩ => .wait
  | some ⟨_, _, _, some (c, _)⟩ => if c = 0 then .did s { j with progress := j.progress + 1, ask := none } else .fault (askCause c) da
  | none =>
    if isPeer da then s.jobAsk j 1 da (.tag (peerOff da) (j.b.getLsbD 32))
    else match s.jobLoc j da 4 permW with
      | .error e => .fault e.1 e.2
      | .ok l =>
        if !l.tagged then .fault cACCESS da
        else .did ((s.used (s.jobAgent j) da 4).retag (tagWords l) (j.b.getLsbD 32)) { j with progress := j.progress + 1 }

/-! ## Units of PCOLL (R286) -/

/-- Adds the FP32 words of a block to memory, each word single-copy atomic (R203, R286). -/
def reduceBytes : List Byte → List Byte → List Byte
  | a :: b :: c :: d :: old, e :: f :: g :: h :: new =>
    toBytes 4 (fAdd 0 0 (BitVec.ofNat 32 (leNat [a, b, c, d])) (BitVec.ofNat 32 (leNat [e, f, g, h]))).1.toNat ++ reduceBytes old new
  | old, _ => old

/-- Where the bytes of a block lie for an agent, in pieces that lie within one bank: whole, or not at all (R286); a bank whose near-bank unit is
at work is waited for (R218, R223). -/
def State.blockLocs (s : State) (u : BankUser) (ag : Agent) (p : Perm) : Nat → Nat → Nat → Except (BitVec 8 × Nat) (List Nat)
  | 0, _, _ => .ok []
  | fuel + 1, ea, n =>
    if n = 0 then .ok []
    else
      let c := min n (2048 - ea % 2048)
      match s.resolve ag ea c p with
      | .error e => .error (e, ea)
      | .ok l =>
        if !s.bankOpen u l then .error (0, l.bank + 1)
        else match s.blockLocs u ag p fuel (ea + c) (n - c) with | .error e => .error e | .ok ks => .ok (l.keys ++ ks)

/-- The same for a job. -/
def State.jobBlock (s : State) (j : Job) (p : Perm) (ea n : Nat) : Except (BitVec 8 × Nat) (List Nat) :=
  s.blockLocs (.job j.oct j.ctx j.id) (s.jobAgent j) p (n / 2048 + 2) ea n

/-- The block at the keys: PUT writes and sets whole words full, REDUCE adds with tags unchanged (R286). -/
def State.applyBlock (s : State) (keys : List Nat) (bs : List Byte) (reduce : Bool) : State :=
  if reduce then s.put keys (reduceBytes (s.bytes keys) bs) else s.putFull keys bs

/-- The block may be applied: no poisoned word is read or merged (R297). -/
def State.blockFits (s : State) (keys : List Nat) (reduce : Bool) : Bool := if reduce then !s.isPoisoned keys else s.canMerge keys

/-- A NOTIFY of a block that has been performed: a counter message with decrement 1 (R286). -/
def State.notify (s : State) (ctx : Nat) (w sender : Word) (xm fabric : Bool) : State :=
  if w = 0 then s
  else s.post ⟨w, sender, xm, ctx, some 1, [], [destCore w], false, fabric, none, none, []⟩

/-- The bytes of an entry's block as they are written, the unused bits of narrow elements 0 (R41, R286). -/
def State.blockBytes (s : State) (j : Job) (e : Block) : Except (BitVec 8 × Nat) (List Byte) :=
  let d := j.desc e.desc.toNat
  let ea := if e.field then dBuffer d else addr56 e.src
  let n := if e.field then 2 ^ dN d * packedSize (dFmt d) else e.len
  match s.jobBlock j permR ea n with
  | .error f => .error f
  | .ok keys => if s.isPoisoned keys then .error (cUNCORR, ea) else .ok (stored (ptrFmt e.src) (s.bytes keys))

/-- Sends a block to its device under a request number, which a resend keeps (R286, R287). -/
def State.sendBlock (s : State) (j : Job) (e : Block) (num : Nat) (bs : List Byte) : State × SendSt :=
  let dev := peerDev (addr56 e.dst)
  if s.fab.reaches dev then
    (s.sendFrame dev j.owner num 0 (.block (peerOff (addr56 e.dst)) bs (j.b.getLsbD 42) e.notify (s.slotid j.owner) j.xm), .out)
  else (s, .answered 5)

/-- Takes entry i of a PCOLL: a block for a peer goes to the send queue of its device, a local one is written (R286). -/
def State.takeEntry (s : State) (j : Job) (i : Nat) : Tried :=
  let e := blockAt j.list i
  let reduce := j.b.getLsbD 42
  let da := addr56 e.dst
  match s.blockBytes j e with
  | .error f => .fault f.1 f.2
  | .ok bs =>
    if isPeer da then
      let n := s.nextReq
      let r := { s with nextReq := n + 1 }.sendBlock j e n bs
      .did r.1 { j with sends := j.sends ++ [⟨i, n, s.time, r.2⟩] }
    else match s.jobBlock j (if reduce then permRW else permW) da bs.length with
      | .error f => .fault f.1 f.2
      | .ok ks =>
        if s.sliceOver j.home ks then .wait
        else if !s.blockFits ks reduce then .fault cUNCORR da
        else .did ((s.applyBlock ks bs reduce).notify j.ctx e.notify (s.slotid j.owner) j.xm false) { j with progress := j.progress + 1 }

/-- Sends again a block that failed (R287). -/
def State.resendBlock (s : State) (j : Job) (b : Send) : Tried :=
  match s.blockBytes j (blockAt j.list b.entry) with
  | .error f => .fault f.1 f.2
  | .ok bs =>
    let r := s.sendBlock j (blockAt j.list b.entry) b.num bs
    .did r.1 { j with sends := j.sends.map fun c => if c = b then { b with since := s.time, st := r.2 } else c }

/-- A stop waits until no block of the job is on its way, so that its progress counts what was performed (R287). -/
def Job.settledStop (j : Job) : Tried → Tried
  | .fault c va => if j.sends.any (fun b => b.st = .out) then .wait else .fault c va
  | t => t

/-- PCOLL: counts a performed block, sends one again, takes the next entry, or stops at the first that failed (R286, R287). -/
def State.pcollUnit (s : State) (j : Job) : Tried :=
  match j.sends.find? fun b => b.st = .answered 0 with
  | some b => .did s { j with sends := j.sends.erase b, progress := j.progress + 1 }
  | none =>
    match j.sends.find? (fun b => b.st = .again), j.sends.find? (fun b => b.st ≠ .out && b.st ≠ .again) with
    | some b, _ => j.settledStop (s.resendBlock j b)
    | none, some b =>
      match b.st with
      | .answered c => j.settledStop (.fault (askCause c) (addr56 (blockAt j.list b.entry).dst))
      | _ => .wait
    | none, none => if j.list.length / 4 ≤ j.entry || j.atRemap then .wait else j.settledStop (s.takeEntry j j.entry)

/-! ## Units of remaps (R189, R190) -/

/-- The keys of elements of a buffer, which must lie on TAGGED pages or in a scratchpad, up to the first that cannot be reached, and the
fault there (R192, R193). -/
def State.passFrom (s : State) (j : Job) (d : BitVec 512) (buf : Nat) : List Nat → List Nat × Option (BitVec 8 × Nat)
  | [] => ([], none)
  | P :: rest =>
    let ea := elemAddr d buf P
    match s.jobLoc j ea (packedSize (dFmt d)) permW with
    | .error e => ([], some e)
    | .ok l => if l.tagged then (l.keys ++ (s.passFrom j d buf rest).1, (s.passFrom j d buf rest).2) else ([], some (cACCESS, ea))

/-- The words that a remap's tag pass sets empty, and the fault that ends it early. -/
def State.tagPass (s : State) (j : Job) (r : Remap) : List Nat × Option (BitVec 8 × Nat) :=
  let q := s.passFrom j r.before r.target (List.range (2 ^ dN r.before))
  (wordsOf q.1, q.2)

/-- The words of some elements that the remap has now written whole: all but one that the next element shares (R189). -/
def remapFull (ws : List Nat) (next : Option Loc) : List Nat :=
  match next with
  | none => ws
  | some m => ws.filter fun w => !(tagWords m).contains w

/-- The element of a shadow remap that goes to new physical index P, from the old buffer, on a TAGGED page or in a scratchpad (R189, R192). -/
def State.shadowElem (s : State) (j : Job) (r : Remap) (P : Nat) : Except (BitVec 8 × Nat) (List Byte) :=
  let d := r.before
  let sa := elemAddr d (dbits d 0 55) (physical d (logical r.after P))
  match s.jobRead j sa (packedSize (dFmt d)), s.jobLoc j sa (packedSize (dFmt d)) permR with
  | .error e, _ => .error e
  | _, .error e => .error e
  | .ok bs, .ok l => if l.tagged then .ok (stored (dFmt d) bs) else .error (cACCESS, sa)

/-- Elements from the next one that one step of a shadow remap writes: up to a word boundary (R158). -/
def Remap.batch (r : Remap) : Nat :=
  let size := packedSize (dFmt r.before)
  let a := elemAddr r.before (dShadow r.before) r.next
  min (if size < 4 then (4 - a % 4) / size else 1) (2 ^ dN r.before - r.next)

/-- Results of a list up to the first error, and that error. -/
def untilError {α β ε : Type} (f : α → Except ε β) : List α → List β × Option ε
  | [] => ([], none)
  | a :: as =>
    match f a with
    | .error e => ([], some e)
    | .ok b => (b :: (untilError f as).1, (untilError f as).2)

/-- The next elements of a shadow remap, in the order of the new buffer (R189). -/
def State.shadowUnit (s : State) (j : Job) (r : Remap) (rest : List Remap) : Tried :=
  let d := r.before
  let size := packedSize (dFmt d)
  let q := untilError (s.shadowElem j r) ((List.range r.batch).map (r.next + ·))
  let da := elemAddr d r.target r.next
  match q with
  | ([], some e) => .fault e.1 e.2
  | (es, _) =>
    match s.jobLoc j da (es.length * size) permW with
    | .error e => .fault e.1 e.2
    | .ok l =>
      if !l.tagged then .fault cACCESS da
      else if s.sliceOver j.home l.keys then .wait
      else if !s.canMerge l.keys then .fault cUNCORR da
      else
        let P := r.next + es.length
        let next := if P < 2 ^ dN d then (s.jobLoc j (elemAddr d r.target P) size permW).toOption else none
        .did (((s.used (s.jobAgent j) da (es.length * size)).put l.keys es.flatten).retag (remapFull (tagWords l) next) true)
          { j with remaps := { r with next := P, count := r.count + es.length } :: rest }

/-- The new physical index of the element at an old one (R190). -/
def moved (r : Remap) (P : Nat) : Nat := physical r.after (logical r.before P)

/-- The cycle of a physical index, from it; `fuel` bounds its length. -/
def cycleFrom (r : Remap) (start : Nat) : Nat → Nat → List Nat
  | 0, _ => []
  | fuel + 1, P => if moved r P = start then [P] else P :: cycleFrom r start fuel (moved r P)

def Remap.size (r : Remap) : Nat := 2 ^ dN r.before

def Remap.cycle (r : Remap) (P : Nat) : List Nat := cycleFrom r P r.size P

/-- The first leader at or above P, or the number of elements where there is none (R190). -/
def Remap.leader (r : Remap) (P : Nat) : Nat :=
  (((List.range r.size).drop P).find? fun p => (r.cycle p).all (p ≤ ·)).getD r.size

/-- One cycle of an in-place remap (R190): its elements move along it, its words become full, WMARK holds the next leader. A fixed point is set
full with no move, and not read. -/
def State.cycleUnit (s : State) (j : Job) (r : Remap) (rest : List Remap) : Tried :=
  let d := r.before
  let n := packedSize (dFmt d)
  let buf := dbits d 0 55
  let ps := r.cycle (r.leader r.next)
  let moving := if ps.length = 1 then [] else ps
  match traverse (fun P => s.jobRead j (elemAddr d buf P) n) moving, traverse (fun P => s.jobLoc j (elemAddr d buf P) n permW) ps with
  | .error e, _ => .fault e.1 e.2
  | _, .error e => .fault e.1 e.2
  | .ok bs, .ok ls =>
    match (ps.zip ls).find? fun q => !q.2.tagged with
    | some q => .fault cACCESS (elemAddr d buf q.1)
    | none =>
      if s.sliceOver j.home (ls.flatMap (·.keys)) then .wait
      else
        let pairs := moving.zip bs
        let writes := (ps.zip ls).flatMap fun q =>
          match pairs.find? fun p => moved r p.1 = q.1 with | some p => q.2.keys.zip p.2 | none => []
        let r' : Remap := { r with next := r.leader (r.leader r.next + 1), count := r.count + 1 }
        let s := (s.setBytes writes).modSlot j.owner fun x => x.setDesc r.desc (dput (x.desc r.desc) 384 40 r'.next)
        .did (s.retag (ls.flatMap tagWords) true) { j with remaps := r' :: rest }

/-- The remap has moved every element. -/
def Remap.complete (r : Remap) : Bool := r.started && (if r.inplace then r.leader r.next = r.size else r.next = r.size)

end Sys2Proof.Machine
end

