-- ==== Sys2Proof/Machine/Scalar.lean ====
section
/-!
DEFINITION. The scalar families ALU (R68, R69), immediates (R70), constants (R71), branches and jumps (R79) and pointers
(R82).
-/

namespace Sys2Proof.Machine

/-! ## Division (R69) -/

/-- Quotient of DIV, rounded toward zero: all ones for a zero divisor (R69). -/
def divS (a b : Word) : Word := if b = 0 then ~~~(0#64) else BitVec.ofInt 64 (a.toInt.tdiv b.toInt)
/-- Remainder of REM, with the sign of a (R69). -/
def remS (a b : Word) : Word := if b = 0 then a else BitVec.ofInt 64 (a.toInt - a.toInt.tdiv b.toInt * b.toInt)
def divU (a b : Word) : Word := if b = 0 then ~~~(0#64) else BitVec.ofNat 64 (a.toNat / b.toNat)
def remU (a b : Word) : Word := if b = 0 then a else BitVec.ofNat 64 (a.toNat % b.toNat)

/-! ## Bit counts and bytes (R68) -/

/-- Leading zero bits of a value below 2^64. -/
def clz64 (a : Word) : Nat := if a = 0 then 64 else 63 - Nat.log2 a.toNat
/-- Trailing zero bits: the number of leading positions of the list of bits, from bit 0, that are 0. -/
def ctz64 (a : Word) : Nat := ((List.range 64).takeWhile fun i => !a.getLsbD i).length
def popc64 (a : Word) : Nat := ((List.range 64).filter fun i => a.getLsbD i).length
/-- The bytes in reverse order. -/
def bswap64 (a : Word) : Word := BitVec.ofNat 64 (leNat (toBytes 8 a.toNat).reverse)

/-- A shift amount, b[5:0]. -/
def shamt (b : Word) : Nat := (b.extractLsb' 0 6).toNat

/-! ## ALU (R68) -/

/-- ADD: gd := a + b. -/
def execAdd (d a b : Reg) (x y : Bool) (s : State) : Out := alu2 s d a b x y fun a b => a + b
/-- SUB: gd := a - b. -/
def execSub (d a b : Reg) (x y : Bool) (s : State) : Out := alu2 s d a b x y fun a b => a - b
/-- AND: gd := a &&& b. -/
def execAnd (d a b : Reg) (x y : Bool) (s : State) : Out := alu2 s d a b x y fun a b => a &&& b
/-- OR: gd := a ||| b. -/
def execOr (d a b : Reg) (x y : Bool) (s : State) : Out := alu2 s d a b x y fun a b => a ||| b
/-- XOR: gd := a ^^^ b. -/
def execXor (d a b : Reg) (x y : Bool) (s : State) : Out := alu2 s d a b x y fun a b => a ^^^ b
/-- ANDN: gd := a &&& ~~~b. -/
def execAndn (d a b : Reg) (x y : Bool) (s : State) : Out := alu2 s d a b x y fun a b => a &&& ~~~b
/-- SLL: gd := a <<< shamt b. -/
def execSll (d a b : Reg) (x y : Bool) (s : State) : Out := alu2 s d a b x y fun a b => a <<< shamt b
/-- SRL: gd := a >>> shamt b. -/
def execSrl (d a b : Reg) (x y : Bool) (s : State) : Out := alu2 s d a b x y fun a b => a >>> shamt b
/-- SRA: gd := a.sshiftRight (shamt b). -/
def execSra (d a b : Reg) (x y : Bool) (s : State) : Out := alu2 s d a b x y fun a b => a.sshiftRight (shamt b)
/-- ROL: gd := a.rotateLeft (shamt b). -/
def execRol (d a b : Reg) (x y : Bool) (s : State) : Out := alu2 s d a b x y fun a b => a.rotateLeft (shamt b)
/-- SLT: gd := boolWord (a.slt b). -/
def execSlt (d a b : Reg) (x y : Bool) (s : State) : Out := alu2 s d a b x y fun a b => boolWord (a.slt b)
/-- SLTU: gd := boolWord (a.ult b). -/
def execSltu (d a b : Reg) (x y : Bool) (s : State) : Out := alu2 s d a b x y fun a b => boolWord (a.ult b)
/-- MIN: gd := if a.sle b then a else b. -/
def execMin (d a b : Reg) (x y : Bool) (s : State) : Out := alu2 s d a b x y fun a b => if a.sle b then a else b
/-- MAX: gd := if a.sle b then b else a. -/
def execMax (d a b : Reg) (x y : Bool) (s : State) : Out := alu2 s d a b x y fun a b => if a.sle b then b else a
/-- MINU: gd := if a.ule b then a else b. -/
def execMinu (d a b : Reg) (x y : Bool) (s : State) : Out := alu2 s d a b x y fun a b => if a.ule b then a else b
/-- MAXU: gd := if a.ule b then b else a. -/
def execMaxu (d a b : Reg) (x y : Bool) (s : State) : Out := alu2 s d a b x y fun a b => if a.ule b then b else a
/-- MUL: gd := a * b. -/
def execMul (d a b : Reg) (x y : Bool) (s : State) : Out := alu2 s d a b x y fun a b => a * b
/-- MULH: gd := BitVec.ofInt 64 (a.toInt * b.toInt / 2 ^ 64). -/
def execMulh (d a b : Reg) (x y : Bool) (s : State) : Out := alu2 s d a b x y fun a b => BitVec.ofInt 64 (a.toInt * b.toInt / 2 ^ 64)
/-- MULHU: gd := BitVec.ofNat 64 (a.toNat * b.toNat / 2 ^ 64). -/
def execMulhu (d a b : Reg) (x y : Bool) (s : State) : Out := alu2 s d a b x y fun a b => BitVec.ofNat 64 (a.toNat * b.toNat / 2 ^ 64)
/-- DIV: gd := divS a b. -/
def execDiv (d a b : Reg) (x y : Bool) (s : State) : Out := alu2 s d a b x y fun a b => divS a b
/-- DIVU: gd := divU a b. -/
def execDivu (d a b : Reg) (x y : Bool) (s : State) : Out := alu2 s d a b x y fun a b => divU a b
/-- REM: gd := remS a b. -/
def execRem (d a b : Reg) (x y : Bool) (s : State) : Out := alu2 s d a b x y fun a b => remS a b
/-- REMU: gd := remU a b. -/
def execRemu (d a b : Reg) (x y : Bool) (s : State) : Out := alu2 s d a b x y fun a b => remU a b
/-- CLZ. -/
def execClz (d a : Reg) (x : Bool) (s : State) : Out := alu1 s d a x fun a => BitVec.ofNat 64 (clz64 a)
/-- CTZ. -/
def execCtz (d a : Reg) (x : Bool) (s : State) : Out := alu1 s d a x fun a => BitVec.ofNat 64 (ctz64 a)
/-- POPC. -/
def execPopc (d a : Reg) (x : Bool) (s : State) : Out := alu1 s d a x fun a => BitVec.ofNat 64 (popc64 a)
/-- SEXTB. -/
def execSextb (d a : Reg) (x : Bool) (s : State) : Out := alu1 s d a x fun a => (a.setWidth 8).signExtend 64
/-- SEXTH. -/
def execSexth (d a : Reg) (x : Bool) (s : State) : Out := alu1 s d a x fun a => (a.setWidth 16).signExtend 64
/-- SEXTW. -/
def execSextw (d a : Reg) (x : Bool) (s : State) : Out := alu1 s d a x fun a => (a.setWidth 32).signExtend 64
/-- ZEXTW. -/
def execZextw (d a : Reg) (x : Bool) (s : State) : Out := alu1 s d a x fun a => (a.setWidth 32).setWidth 64
/-- BSWAP. -/
def execBswap (d a : Reg) (x : Bool) (s : State) : Out := alu1 s d a x fun a => bswap64 a
/-- SELNZ: a if b is not 0, else 0. -/
def execSelnz (d a b : Reg) (x y : Bool) (s : State) : Out := alu2 s d a b x y fun a b => if b = 0 then 0 else a

/-! ## Immediates (R70) -/

/-- ADDI: gd := a + sext15 i. -/
def execAddi (d a : Reg) (x : Bool) (i : BitVec 15) (s : State) : Out := alu1 s d a x fun a => a + sext15 i
/-- ANDI: gd := a &&& zext15 i. -/
def execAndi (d a : Reg) (x : Bool) (i : BitVec 15) (s : State) : Out := alu1 s d a x fun a => a &&& zext15 i
/-- ORI: gd := a ||| zext15 i. -/
def execOri (d a : Reg) (x : Bool) (i : BitVec 15) (s : State) : Out := alu1 s d a x fun a => a ||| zext15 i
/-- XORI: gd := a ^^^ zext15 i. -/
def execXori (d a : Reg) (x : Bool) (i : BitVec 15) (s : State) : Out := alu1 s d a x fun a => a ^^^ zext15 i
/-- SLTI: gd := boolWord (a.slt (sext15 i)). -/
def execSlti (d a : Reg) (x : Bool) (i : BitVec 15) (s : State) : Out := alu1 s d a x fun a => boolWord (a.slt (sext15 i))
/-- SLTIU: gd := boolWord (a.ult (sext15 i)). -/
def execSltiu (d a : Reg) (x : Bool) (i : BitVec 15) (s : State) : Out := alu1 s d a x fun a => boolWord (a.ult (sext15 i))
/-- SLLI. -/
def execSlli (d a : Reg) (x : Bool) (n : BitVec 6) (s : State) : Out := alu1 s d a x fun a => a <<< n.toNat
/-- SRLI. -/
def execSrli (d a : Reg) (x : Bool) (n : BitVec 6) (s : State) : Out := alu1 s d a x fun a => a >>> n.toNat
/-- SRAI. -/
def execSrai (d a : Reg) (x : Bool) (n : BitVec 6) (s : State) : Out := alu1 s d a x fun a => a.sshiftRight n.toNat
/-- ROLI. -/
def execRoli (d a : Reg) (x : Bool) (n : BitVec 6) (s : State) : Out := alu1 s d a x fun a => a.rotateLeft n.toNat

/-! ## Constants and addresses (R71) -/

/-- LUI: gd := sext(imm21) << 15. -/
def execLui (d : Reg) (i : BitVec 21) (s : State) : Out := withOperands s [] [.g d] (s.retireG d (sext21 i <<< 15))

/-- LIH: bits [63:36] of gd from the immediate; gd is read in block mode. -/
def execLih (d : Reg) (i : BitVec 21) (s : State) : Out :=
  withOperands s [srcD d] [.g d] (s.retireG d ((s.me.readG d &&& 0xFFFFFFFFF#64) ||| (sext21 i <<< 36)))

/-- ADDPC: gd := pc + (sext(imm21) << 2). -/
def execAddpc (d : Reg) (i : BitVec 21) (s : State) : Out :=
  withOperands s [] [.g d] (s.retireG d (s.me.pc + (sext21 i <<< 2)))

/-! ## Branches and jumps (R79) -/

/-- BEQ. -/
def execBeq (a b : Reg) (x y : Bool) (o : BitVec 14) (s : State) : Out := branch s a b x y o fun a b => a == b
/-- BNE. -/
def execBne (a b : Reg) (x y : Bool) (o : BitVec 14) (s : State) : Out := branch s a b x y o fun a b => a != b
/-- BLT. -/
def execBlt (a b : Reg) (x y : Bool) (o : BitVec 14) (s : State) : Out := branch s a b x y o fun a b => a.slt b
/-- BGE. -/
def execBge (a b : Reg) (x y : Bool) (o : BitVec 14) (s : State) : Out := branch s a b x y o fun a b => !a.slt b
/-- BLTU. -/
def execBltu (a b : Reg) (x y : Bool) (o : BitVec 14) (s : State) : Out := branch s a b x y o fun a b => a.ult b
/-- BGEU. -/
def execBgeu (a b : Reg) (x y : Bool) (o : BitVec 14) (s : State) : Out := branch s a b x y o fun a b => !a.ult b

/-- JAL: gd := pc + 4; pc := pc + sext(imm21) * 4. -/
def execJal (d : Reg) (i : BitVec 21) (s : State) : Out :=
  withOperands s [] [.g d]
    (.next (s.modMe fun x => { x.writeG d (x.pc + 4) with pc := x.pc + (sext21 i <<< 2), wait := .ready }))

/-- JALR: to ga + sext(imm15), which must be word-aligned (R35); gd := pc + 4. -/
def execJalr (d a : Reg) (x : Bool) (i : BitVec 15) (s : State) : Out :=
  withOperands s [srcA a x] [.g d] (
    let t := s.me.readG a + sext15 i
    if t.extractLsb' 0 2 ≠ 0 then s.trap cMISALIGN t
    else .next (s.modMe fun y => { y.writeG d (y.pc + 4) with pc := t, wait := .ready }))

/-! ## Pointers (R82) -/

/-- ADDP: adds to the address, keeping the format. -/
def execAddp (d a b : Reg) (x y : Bool) (s : State) : Out :=
  alu2 s d a b x y fun a b => withAddr a (addr56 a + b.toNat)

/-- The pointer with format code f and the BLK that matches it. -/
def withFmt (f : Nat) (a : Word) : Word := BitVec.ofNat 64 (f * 2 ^ 59 + blkOf f * 2 ^ 56 + addr56 a)

/-- PFMT: sets FMT and BLK; a code from 21 on traps FMTFAULT with TVAL (f << 59) OR ga[55:0]. -/
def execPfmt (d a b : Reg) (x y : Bool) (s : State) : Out :=
  withOperands s [srcA a x, srcB b y] [.g d] (
    let f := (s.me.readG b).toNat % 32
    if 21 ≤ f then s.trap cFMTFAULT (BitVec.ofNat 64 (f * 2 ^ 59 + addr56 (s.me.readG a)))
    else s.retireG d (withFmt f (s.me.readG a)))

/-- PIDX: advances by gb elements or packed records. -/
def execPidx (d a b : Reg) (x y : Bool) (s : State) : Out :=
  withOperands s [srcA a x, srcB b y] [.g d] (
    let p := s.me.readG a
    if !ptrOk p then s.trap cFMTFAULT p
    else s.retireG d (withAddr p (addr56 p + (s.me.readG b).toNat * packedSize (ptrFmt p))))

/-- PDIFF: the distance in elements or packed records, rounded toward zero. -/
def execPdiff (d a b : Reg) (x y : Bool) (s : State) : Out :=
  withOperands s [srcA a x, srcB b y] [.g d] (
    let p := s.me.readG a
    let q := s.me.readG b
    if !ptrOk p then s.trap cFMTFAULT p
    else if q.extractLsb' 56 8 ≠ p.extractLsb' 56 8 then s.trap cFMTFAULT q
    else
      let t := (p.extractLsb' 0 56 - q.extractLsb' 0 56).toInt
      s.retireG d (BitVec.ofInt 64 (t.tdiv (packedSize (ptrFmt p)))))

/-- PSTRIP: the address alone. -/
def execPstrip (d a : Reg) (x : Bool) (s : State) : Out := alu1 s d a x fun a => BitVec.ofNat 64 (addr56 a)

end Sys2Proof.Machine
end

