-- ==== Sys2Proof/Machine/Carafe.lean ====
section
/-!
DEFINITION. The Carafe: shipped routines (R202 to R207), chained loads (R208 to R211), held rows (R212, R213) and near-bank
programs (R215 to R223); the MEMX family, ROUTLD, and their steps.
-/

namespace Sys2Proof.Machine

/-! ## Where a word lives (R200) -/

/-- The row unit of a physical address (R295). -/
def rowUnit (pa : Nat) : RUnit := .dramRow (pa / 2 ^ 37 % 8) (pa / 2 ^ 11 % 32) (pa / 2 ^ 16 % 32) (rowOf pa)

/-- The unit holds the row at a physical address. -/
def holdsRow : RUnit → Nat → Bool
  | .dramRow st ch b r, pa => bankOf pa = st * 1024 + ch * 32 + b && rowOf pa = r
  | .dramBank st ch b, pa => bankOf pa = st * 1024 + ch * 32 + b
  | _, _ => false

/-- A row is being retired: its words are copied to the spare until TIME passes. DESIGN CHOICE: R295 gives the copy no duration (log 58). -/
def State.rowRetiring (s : State) (pa : Nat) : Bool := s.repair.copying.any fun p => p.2 = s.time && holdsRow p.1 pa

/-! ## Built-in routines (R203) -/

/-- The routine whose effect an entry below 32 has. -/
def builtin (n : Nat) : Nat := n % 16

/-- A routine works on 8 bytes (R203). -/
def builtinWide (n : Nat) : Bool := !([0, 5, 6, 11, 12].contains (builtin n))

/-- A 16-bit lane sum in BF16 under RNE (R203, BADD4). -/
def bf16Add (a b : Nat) : Nat :=
  let r := faddV 0 (fdecode 8 false a) (fdecode 8 false b)
  (fround 8 false false 0 0 r.1).1

def add32 (a b : Nat) : Nat := (fAdd 0 0 (BitVec.ofNat 32 a) (BitVec.ofNat 32 b)).1.toNat

/-- The new value of the footprint: old, b and o as numbers (R203). -/
def builtinNew (n old b o : Nat) : Nat :=
  let lo := old % 2 ^ 32
  let hi := old / 2 ^ 32
  let b32 := b % 2 ^ 32
  match builtin n with
  | 0 => (old + b32) % 2 ^ 32
  | 1 => (old + b) % 2 ^ 64
  | 2 => old &&& b
  | 3 => old ||| b
  | 4 => old ^^^ b
  | 5 => if signed 32 old ≤ signed 32 b32 then old else b32
  | 6 => if signed 32 old ≤ signed 32 b32 then b32 else old
  | 7 => min old b
  | 8 => max old b
  | 9 => b
  | 10 => if old = o then b else old
  | 11 => add32 old b32
  | 12 => (fMinMax false (BitVec.ofNat 32 old) (BitVec.ofNat 32 b32)).1.toNat
  | 13 => ([0, 1, 2, 3].map fun l => bf16Add (old / 2 ^ (16 * l) % 65536) (b / 2 ^ (16 * l) % 65536) * 2 ^ (16 * l)).sum
  | 14 => add32 lo b32 + add32 hi (b / 2 ^ 32) * 2 ^ 32
  | _ => if hi = 0 then old else add32 lo b32 + (hi - 1) * 2 ^ 32

/-- RDCF32 sets both words full when its count reaches 0 (R203). -/
def builtinFills (n old : Nat) : Bool := builtin n = 15 && old / 2 ^ 32 = 1

/-- The reply of a routine (R203). -/
def builtinReply (n old : Nat) : Word :=
  match builtin n with
  | 0 | 5 | 6 => (BitVec.ofNat 32 old).signExtend 64
  | _ => BitVec.ofNat 64 old

/-! ## Loadable routines (R206, R207) -/

/-- A routine may hold the word at index w of n: the instruction is allowed, names g0 to g15 alone and branches forward inside (R206). -/
def routineWordOk (n w : Nat) (word : Word32) : Bool :=
  let op := (fOp word).toNat
  let d := (fD word).toNat
  let a := (fA word).toNat
  let b := (fB word).toNat
  let low := d < 16 && a < 16
  match decode word with
  | .error _ => false
  | .ok i =>
    if op = 0x01 then low && b < 16
    else if (0x02 ≤ op && op ≤ 0x07) || op = 0x08 then low
    else
      match i with
      | .lui .. | .lih .. => d < 16
      | .beq _ _ _ _ o | .bne _ _ _ _ o | .blt _ _ _ _ o | .bge _ _ _ _ o | .bltu _ _ _ _ o | .bgeu _ _ _ _ o =>
        low && 0 < o.toInt && w + o.toNat < n
      | .ld _ _ _ z _ => low && z ≠ 7
      | .st _ _ _ z _ => low && z.toNat < 4
      | .fadd .. | .fsub .. | .fmul .. | .ffma .. | .fdiv .. | .fsqrt .. | .fmin .. | .fmax .. | .fcmp .. => low && b < 16
      | .hret => true
      | _ => false

/-- A micro-operation is legal (R216). -/
def microWordOk (w : Word32) : Bool := !w.getLsbD 31 && w.extractLsb' 25 2 ≠ 3 && w.extractLsb' 0 24 = 0

/-- The effect of a register instruction of a routine, on a slot that stands for the processor's registers (R206). -/
def routineExec (i : Instr) (s : State) : Out :=
  match i with
  | .add d a b x y => execAdd d a b x y s
  | .sub d a b x y => execSub d a b x y s
  | .and d a b x y => execAnd d a b x y s
  | .or d a b x y => execOr d a b x y s
  | .xor d a b x y => execXor d a b x y s
  | .andn d a b x y => execAndn d a b x y s
  | .sll d a b x y => execSll d a b x y s
  | .srl d a b x y => execSrl d a b x y s
  | .sra d a b x y => execSra d a b x y s
  | .rol d a b x y => execRol d a b x y s
  | .slt d a b x y => execSlt d a b x y s
  | .sltu d a b x y => execSltu d a b x y s
  | .min d a b x y => execMin d a b x y s
  | .max d a b x y => execMax d a b x y s
  | .minu d a b x y => execMinu d a b x y s
  | .maxu d a b x y => execMaxu d a b x y s
  | .mul d a b x y => execMul d a b x y s
  | .mulh d a b x y => execMulh d a b x y s
  | .mulhu d a b x y => execMulhu d a b x y s
  | .div d a b x y => execDiv d a b x y s
  | .divu d a b x y => execDivu d a b x y s
  | .rem d a b x y => execRem d a b x y s
  | .remu d a b x y => execRemu d a b x y s
  | .clz d a x => execClz d a x s
  | .ctz d a x => execCtz d a x s
  | .popc d a x => execPopc d a x s
  | .sextb d a x => execSextb d a x s
  | .sexth d a x => execSexth d a x s
  | .sextw d a x => execSextw d a x s
  | .zextw d a x => execZextw d a x s
  | .bswap d a x => execBswap d a x s
  | .selnz d a b x y => execSelnz d a b x y s
  | .addi d a x i => execAddi d a x i s
  | .andi d a x i => execAndi d a x i s
  | .ori d a x i => execOri d a x i s
  | .xori d a x i => execXori d a x i s
  | .slti d a x i => execSlti d a x i s
  | .sltiu d a x i => execSltiu d a x i s
  | .slli d a x i => execSlli d a x i s
  | .srli d a x i => execSrli d a x i s
  | .srai d a x i => execSrai d a x i s
  | .roli d a x i => execRoli d a x i s
  | .lui d i => execLui d i s
  | .lih d i => execLih d i s
  | .beq a b x y o => execBeq a b x y o s
  | .bne a b x y o => execBne a b x y o s
  | .blt a b x y o => execBlt a b x y o s
  | .bge a b x y o => execBge a b x y o s
  | .bltu a b x y o => execBltu a b x y o s
  | .bgeu a b x y o => execBgeu a b x y o s
  | .fadd d a b x y => execFadd d a b x y s
  | .fsub d a b x y => execFsub d a b x y s
  | .fmul d a b x y => execFmul d a b x y s
  | .ffma d a b x y => execFfma d a b x y s
  | .fdiv d a b x y => execFdiv d a b x y s
  | .fsqrt d a x => execFsqrt d a x s
  | .fmin d a b x y => execFmin d a b x y s
  | .fmax d a b x y => execFmax d a b x y s
  | .fcmp d a b x y => execFcmp d a b x y s
  | _ => .next s

/-- The footprint as a routine sees it: first address, bytes, and the bytes it has written. -/
structure Footprint where
  base : Nat
  bytes : List Byte
  written : List Nat
  deriving DecidableEq, Repr

/-- An address range lies in the footprint, aligned. -/
def Footprint.holds (f : Footprint) (a n : Nat) : Bool := a % n = 0 && f.base ≤ a && a + n ≤ f.base + f.bytes.length

def Footprint.write (f : Footprint) (a : Nat) (bs : List Byte) : Footprint :=
  { f with bytes := (f.bytes.zip (List.range f.bytes.length)).map fun p =>
             let o := f.base + p.2
             if a ≤ o && o < a + bs.length then bs[o - a]?.getD p.1 else p.1,
           written := f.written ++ keysFrom a bs.length }

/-- Runs a loaded routine from its word at the processor's pc; none when an access leaves the footprint (R205, R206). Falling off the
end ends it as HRET does (log 22). DESIGN CHOICE: R205 and R206 name no outcome of an address register with a bad FMT or BLK; its bits
[63:56] are not looked at (log 82). -/
def runRoutine (ws : List Word32) : Nat → State → Footprint → Option (Footprint × Word)
  | 0, s, f => some (f, s.me.readG 4)
  | fuel + 1, s, f =>
    match ws[s.me.pc.toNat / 4]? with
    | none => some (f, s.me.readG 4)
    | some w =>
      match decode w with
      | .ok .hret => some (f, s.me.readG 4)
      | .ok (.ld d a _ z o) =>
        let n := szBytes z
        let ea := effAddr (s.me.readG a) o n
        if f.holds ea n then
          let v := extend z ((f.bytes.drop (ea - f.base)).take n)
          runRoutine ws fuel (s.modMe fun x => (x.writeG d v).next) f
        else none
      | .ok (.st r a _ z o) =>
        let n := szBytes z
        let ea := effAddr (s.me.readG a) o n
        if f.holds ea n then runRoutine ws fuel (s.modMe Slot.next) (f.write ea (toBytes n (s.me.readG r).toNat)) else none
      | .ok i =>
        match routineExec i s with
        | .next s' => runRoutine ws fuel s' f
        | _ => none
      | .error _ => none

/-- The processor as a routine starts on it (R206). -/
def routineStart (p b o : Word) : State :=
  { State.reset with cur := ⟨0, 0⟩ }.modSlot ⟨0, 0⟩ fun x =>
    ((x.writeG 1 (BitVec.ofNat 64 (addr56 p))).writeG 2 b).writeG 3 o

/-! ## SHIP (R202 to R205) -/

/-- Whether a routine replies and needs 8-byte alignment, as the issuing core knows it (R202). -/
def State.shipBits (s : State) (n : Nat) : Bool × Bool :=
  if n < 32 then (n < 16, builtinWide n)
  else match mfind s.carafe.routines n with
    | some (h, _) => (h.getLsbD 8, h.getLsbD 9)
    | none => (false, false)

/-- First byte and size of the footprint (R203). -/
def footprint (n : Nat) (wide : Bool) (p : Word) : Nat × Nat :=
  if n < 32 then (addr56 p, if wide then 8 else 4) else (addr56 p / 64 * 64, 64)

/-- SHIP (R202): the core's line for the address goes at issue (R144). -/
def execShip (d a b : Reg) (x y : Bool) (n : BitVec 8) (s : State) : Out :=
  withOperands s [srcD d, srcA a x, srcB b y] [.g d] (
    let p := s.me.readG a
    let e := n.toNat
    let (reply, wide) := s.shipBits e
    let size := if wide then 8 else 4
    let f := footprint e wide p
    let kind : ReqKind := .ship e d reply wide p (s.me.readG b) (s.me.readG d)
    if !ptrOk p then s.trap cFMTFAULT p
    else if addr56 p % size ≠ 0 then s.trap cMISALIGN p
    else if s.ownDevice (addr56 p) then s.trap cACCESS p
    else if touchesWin (addr56 p) size then s.trap cACCESS p
    else if s.me.acquiring || s.releasing s.cur || s.me.waitsFor f.1 f.2 || s.me.parkedOver f.1 f.2 || s.myCore.outstFull then s.stall
    else if isPeer (addr56 p) then
      .next (s.tellPeer kind (peerDev (addr56 p)) (.ship e reply wide (peerOff (addr56 p)) (s.me.readG b) (s.me.readG d))
        fun t => if reply then t.emptyG d else t)
    else .next (((s.dropLine s.cur.core f.1).addReq kind true false).modMe fun t => (if reply then t.emptyG d else t).next))

/-- A call fails at its owner (R205). -/
def State.callFails (s : State) (sl : SlotId) (req : Nat) (rd : Reg) (reply : Bool) (cause : BitVec 8) (tval : Word) (va : Word) : State :=
  (s.modSlot sl fun x => if reply then ((x.dropReq req).poisonG rd cause tval).wake else x.dropReq req).slotFault sl 5 cause tval va

/-- A routine runs on the bytes at some keys: the new bytes, the words that become full, and the reply (R203, R206). -/
def State.routine (s : State) (e : Nat) (p b o : Word) (base : Nat) (keys : List Nat) : Option (List Byte × List Nat × Word) :=
  let bs := s.bytes keys
  if e < 32 then
    let old := leNat bs
    some (toBytes bs.length (builtinNew e old b.toNat o.toNat), if builtinFills e old then wordsOf keys else [], builtinReply e old)
  else
    match mfind s.carafe.routines e with
    | none => none
    | some (h, ws) =>
      match runRoutine ws 64 (routineStart p b o) ⟨base, bs, []⟩ with
      | none => none
      | some (f, v) =>
        let k0 := keys.headD 0
        some (f.bytes, if h.getLsbD 10 then (wordsOf (f.written.map fun a => k0 + (a - base))).dedup else [], v)

/-- A shipped call of a slot runs at its owner (R203, R205), and the home bank of a page without MS has dropped its line (R202). DEDUCED: TVAL of a
call that meets uncorrectable data is the line address, as R40 and R297 have it for every UNCORR, though R205 gives ga for the faults of a
call (log 83). -/
def State.runCall (s : State) (sl : SlotId) (r : Req) (e : Nat) (rd : Reg) (reply wide : Bool) (p b o : Word) : State :=
  let f := footprint e wide p
  let fails (cause : BitVec 8) (tval va : Word) := s.callFails sl r.num rd reply cause tval va
  if 32 ≤ e && (mfind s.carafe.routines e).isNone || s.shipBits e ≠ (reply, wide) then fails cACCESS p 0
  else match s.resolve (r.agent sl) f.1 f.2 permRW with
    | .error c => fails c p (BitVec.ofNat 64 f.1)
    | .ok l =>
      if s.sliceOver sl.core l.keys || !s.bankOpen (.req sl r.num) l then s
      else if s.isPoisoned l.keys then fails cUNCORR (s.badLine f.1 l.keys) 0
      else match s.routine e p b o f.1 l.keys with
        | none => fails cACCESS p 0
        | some (bs, ws, v) =>
          let s := ((s.shipped (r.agent sl) f.1 f.2).put l.keys bs).dropLine sl.core f.1
          (s.modSlot sl fun x => if reply then ((x.dropReq r.num).writeG rd v).wake else x.dropReq r.num).retag ws true

/-- ROUTINE_CALL: a call of a slot reaches its owner in this package, once nothing of the slot is before it (R78, R203). -/
def execRoutineCall (sl : SlotId) (req : Nat) (s : State) : Out :=
  .next <|
    match (s.slot sl).req req with
    | none => s
    | some r =>
      match r.kind with
      | .ship e rd reply wide p b o =>
        let f := footprint e wide p
        if r.peer || !(s.slot sl).clear req f.1 f.2 then s else (s.runCall sl r e rd reply wide p b o).orWait sl req
      | _ => s

/-! ## CHAIN (R208 to R211) -/

/-- The step list at some bytes (R208). -/
def chainSteps (bs : List Byte) (n : Nat) : List (Word32 × Word) :=
  (List.range n).map fun i => (BitVec.ofNat 32 (leNat ((bs.drop (8 + 16 * i)).take 4)), BitVec.ofNat 64 (leNat ((bs.drop (16 + 16 * i)).take 8)))

/-- Reserved bits of the list are 0 (R208). -/
def chainListOk (bs : List Byte) (n : Nat) : Bool :=
  dword bs 0 = n && (List.range n).all fun i => leNat ((bs.drop (12 + 16 * i)).take 4) = 0

/-- A CHAIN that has passed its checks leaves: gd is empty until the reply lands. Its steps may address peers, so that inside a remote region it
counts as a remote operation (R209, R282). -/
def State.issueChain (s : State) (d : Reg) (ga : Word) (steps : List (Word32 × Word)) : State :=
  let r := { s.newReqOf s.cur (.chain d ga 0 0 steps none) true false with region := s.me.region.isSome }
  { s.modMe fun x => ((x.addReq r).emptyG d).next with nextReq := s.nextReq + 1 }

/-- The step list of n steps is judged (R208). -/
def chainList (s : State) (d : Reg) (ga gb : Word) (n : Nat) : Out :=
  match ownBytes s gb (8 + 16 * n) with
  | .error (c, t) => s.trap c t
  | .ok keys =>
    if s.me.waitsFor (addr56 gb) (8 + 16 * n) then s.stall
    else if s.isPoisoned keys then s.trap cUNCORR (s.badLine (addr56 gb) keys)
    else
      let bs := s.bytes keys
      if n = 0 || n = 7 || !chainListOk bs n then s.trap cACCESS gb
      else
        let steps := chainSteps bs n
        let a0 := stepAddr ga (steps.headD (0, 0)).1
        if s.me.waitsFor a0 8 || s.me.parkedOver a0 8 || s.myCore.outstFull then s.stall else .next (s.issueChain d ga steps)

/-- CHAIN (R208): the list is read once the slot's own stores to it are performed (R78). -/
def execChain (d a b : Reg) (x y : Bool) (s : State) : Out :=
  withOperands s [srcA a x, srcB b y] [.g d] (
    let ga := s.me.readG a
    let gb := s.me.readG b
    if !ptrOk ga then s.trap cFMTFAULT ga
    else if s.ownDevice (addr56 ga) then s.trap cACCESS ga
    else match ownBytes s gb 8 with
      | .error (c, t) => s.trap c t
      | .ok ks =>
        if s.me.acquiring || s.me.waitsFor (addr56 gb) 8 then s.stall
        else if s.isPoisoned ks then s.trap cUNCORR (s.badLine (addr56 gb) ks)
        else chainList s d ga gb (s.read (ks.headD 0) 8 % 8))

/-- The chain goes on with the value of a step, or replies with the last (R208). -/
def State.chainNext (s : State) (sl : SlotId) (req : Nat) (rd : Reg) (v : Word) (step visits : Nat) (rest : List (Word32 × Word))
    (loc : Option Nat) : State :=
  s.modSlot sl fun x =>
    if rest = [] then ((x.dropReq req).writeG rd v).wake
    else { x with reqs := x.reqs.map fun q =>
      if q.num = req then { q with kind := .chain rd v (step + 1) visits rest loc, peer := false } else q }

/-- The owner of a chain's next step reads it, or the request goes to the peer that holds it (R208, R209). -/
def State.chainStep (s : State) (sl : SlotId) (r : Req) (rd : Reg) (p : Word) (step visits : Nat) (off : Word32) (mask : Word)
    (rest : List (Word32 × Word)) (loc : Option Nat) : State :=
  let fail (why a : Nat) := s.chainFail sl r.num rd step why a
  let a := stepAddr p off
  let dest := if isPeer a then some (peerDev a) else none
  let visits := visits + 1 + (if dest = loc then 0 else 1)
  if !ptrOk p then fail 4 (addr56 p)
  else if a % 8 ≠ 0 then fail 3 a
  else if inWin a || s.ownDevice a then fail 2 a
  else if 8 < visits then fail 5 a
  else if isPeer a then
    let k : ReqKind := .chain rd p step visits ((off, mask) :: rest) dest
    (s.modSlot sl fun x => { x with reqs := x.reqs.map fun q => if q.num = r.num then { q with kind := k, peer := true } else q }).sendFrames
      sl r.num [(0, peerDev a, .chain (peerOff a))]
  else match s.resolve (r.agent sl) a 8 permR with
    | .error c => fail (if c = cPAGEFAULT then 1 else if c = cUNCORR then 7 else 2) a
    | .ok l =>
      if !(s.slot sl).clear r.num a 8 || s.sliceOver sl.core l.keys || !s.bankOpen (.req sl r.num) l then s
      else if s.isPoisoned l.keys then fail 7 a
      else (s.used (r.agent sl) a 8).chainNext sl r.num rd (BitVec.ofNat 64 (leNat (s.bytes l.keys)) &&& mask) step visits rest none

/-- CHAIN_STEP (R208). -/
def execChainStep (sl : SlotId) (req : Nat) (s : State) : Out :=
  .next <|
    match (s.slot sl).req req with
    | none => s
    | some r =>
      match r.kind with
      | .chain rd p step visits ((off, mask) :: rest) loc => if r.peer then s else (s.chainStep sl r rd p step visits off mask rest loc).orWait sl req
      | _ => s

/-! ## Held rows (R212, R213) -/

/-- The hold of some context on a subarray's buffer, with the physical row. -/
def State.bufferHeld (s : State) (pa : Nat) : Option (Nat × Nat × Nat) :=
  s.ctxs.findSome? fun c => c.2.holds.findSome? fun h =>
    match h.2.row with
    | some (_, r) => if !h.2.dropped && subarrayOf r = subarrayOf pa then some (c.1, h.1, r) else none
    | none => none

def Ctx.hold (c : Ctx) (i : Nat) : Hold := mget Hold.init c.holds i

/-- The lowest-numbered free place (R213). -/
def Ctx.freePlace (c : Ctx) : Option Nat := (List.range 4096).find? fun i => (c.hold i).row.isNone

def holdHandle (h : Hold) (i : Nat) : Nat := h.gen.toNat * 4096 + i

/-- The result word (R213). -/
def rowWord (stat va handle : Nat) : Word := BitVec.ofNat 64 (stat * 2 ^ 61 + va / 2048 % 2 ^ 44 * 2 ^ 16 + handle % 65536)

/-- The place of a live handle. -/
def Ctx.place (c : Ctx) (ga : Word) : Option Nat :=
  let i := (ga.extractLsb' 0 12).toNat
  if (c.hold i).row.isSome && (c.hold i).gen = ga.extractLsb' 12 4 then some i else none

/-- The generation after one (R213). -/
def nextGen (g : BitVec 4) : BitVec 4 := if g = 15 then 1 else g + 1

/-- Frees a place; the generation advances (R213). -/
def Ctx.freeHold (c : Ctx) (i : Nat) : Ctx := { c with holds := mput c.holds i ⟨nextGen (c.hold i).gen, none, false, false⟩ }

/-- R43 and the regions of ROWHOLD and ROWOPEN (R213). -/
def rowFault (ga : Word) : Option (BitVec 8 × Word) :=
  firstFault [ptrFault ga, failIf (ga.getLsbD 55 || inWin (addr56 ga)) cACCESS ga]

/-- ROWOPEN: a hint (R213). -/
def execRowopen (a : Reg) (x : Bool) (s : State) : Out :=
  withOperands s [srcA a x] [] (
    let ga := s.me.readG a
    if !ptrOk ga then s.trap cFMTFAULT ga
    else if (rowFault ga).isSome then s.done
    else match s.resolve (s.agent s.cur) (addr56 ga) 1 permR with
      | .error _ => s.done
      | .ok l =>
        let pa := l.keys.headD 0
        if (s.bufferHeld pa).isSome || (mfind s.carafe.openRows (subarrayOf pa)).isSome then s.done
        else { s with carafe := { s.carafe with openRows := mput s.carafe.openRows (subarrayOf pa) (rowOf pa) } }.done)

/-- ROWHOLD (R213). -/
def execRowhold (d a : Reg) (x : Bool) (s : State) : Out :=
  withOperands s [srcA a x] [.g d] (
    let ga := s.me.readG a
    checked s (rowFault ga) (
      if s.myCore.outstFull then s.stall
      else match s.resolve (s.agent s.cur) (addr56 ga) 1 permR with
        | .error c => s.trapAt c (addr56 ga)
        | .ok l =>
          let n := s.ctxOf s.cur
          let va := addr56 ga / 2048 * 2048
          let pa := l.keys.headD 0 / 2048 * 2048
          let s := s.touch (addr56 ga) 1
          match s.bufferHeld pa with
          | some (c, i, r) =>
            if c = n && r = pa then s.retireG d (rowWord 3 va (holdHandle ((s.ctx n).hold i) i))
            else s.retireG d (rowWord 1 va 0)
          | none =>
            if s.rowRetiring pa then s.retireG d (rowWord 1 va 0)
            else match (s.ctx n).freePlace with
            | none => s.retireG d (rowWord 2 va 0)
            | some i =>
              let h := (s.ctx n).hold i
              let s := s.modCtx n fun c => { c with holds := mput c.holds i { h with row := some (va, pa) } }
              ({ s with carafe := { s.carafe with openRows := mdel s.carafe.openRows (subarrayOf pa) } }.cremaDrop pa).retireG d
                (rowWord 0 va (holdHandle h i))))

/-- ROWREL (R213). -/
def execRowrel (a : Reg) (x : Bool) (s : State) : Out :=
  withOperands s [srcA a x] [] (
    let ga := s.me.readG a
    let n := s.ctxOf s.cur
    if s.myCore.outstFull then s.stall
    else match (s.ctx n).place ga with
      | none => s.trap cACCESS ga
      | some i => (s.modCtx n fun c => c.freeHold i).done)

/-- ROWQ (R213). -/
def execRowq (d a : Reg) (x : Bool) (s : State) : Out :=
  withOperands s [srcA a x] [.g d] (
    let ga := s.me.readG a
    let c := s.ctx (s.ctxOf s.cur)
    if s.myCore.outstFull then s.stall
    else match c.place ga with
      | none => s.retireG d (rowWord 0 0 0)
      | some i =>
        let h := c.hold i
        s.retireG d (rowWord (if h.dropped then 2 else 1) ((h.row.map (·.1)).getD 0) (ga.extractLsb' 0 16).toNat))

/-- HELD_ROW_REFRESH: carried out in place, with no change of visible state (R212). -/
def execHeldRowRefresh (_ _ : Nat) (s : State) : Out := .next s

/-! ## Near-bank programs (R215 to R223) -/

/-- The words of a built-in entry (R216). -/
def microBuiltin : Nat → List Word32
  | 0 => [0x12000000, 0x30000000, 0x22000000, 0]
  | 1 => [0x10000000, 0x50000000, 0x20000000, 0]
  | 2 => [0x10000000, 0x22000000, 0]
  | 3 => [0x60000000, 0x30000000, 0x72000000, 0]
  | _ => []

/-- The words of an entry, if it is loaded (R216, R217). -/
def State.microWords (s : State) (n : Nat) : Option (List Word32) :=
  if n < 4 then some (microBuiltin n) else (mfind s.carafe.micro n).map (·.2)

def microOp (w : Word32) : Nat := (w.extractLsb' 28 4).toNat
def microA (w : Word32) : Bool := w.getLsbD 27
def microR (w : Word32) : Nat := (w.extractLsb' 25 2).toNat
def microT (w : Word32) : Bool := w.getLsbD 24

/-- Virtual address of the row of operand r at iteration i on a bank (R215). -/
def NbProg.rowVa (p : NbProg) (r i : Nat) : Nat :=
  let va := laneAddr (p.bases.getD r 0) (i * p.rstride.toInt)
  va / 2 ^ 21 * 2 ^ 21 + p.bank % 32 * 65536 + va % 65536

/-- The words of an iteration: those before the first END (R216). -/
def NbProg.body (p : NbProg) : List Word32 := p.words.takeWhile fun w => microOp w ≠ 0

/-- The rows that a run reads, and those that it writes, as (operand, iteration) in order (R216, R217). -/
def NbProg.reads (p : NbProg) : List (Nat × Nat) :=
  (List.range p.iters).flatMap fun i => p.body.filterMap fun w => if microOp w = 1 || microOp w = 3 then some (microR w, i) else none

def NbProg.writes (p : NbProg) : List (Nat × Nat) :=
  (List.range p.iters).flatMap fun i => p.body.filterMap fun w =>
    if microOp w = 2 then some (microR w, i)
    else if microOp w = 7 && i = p.iters - 1 then some (microR w, 0)
    else none

/-- What a row needs: R where the run reads it, W where the run writes it (R254). -/
def NbProg.rowPerm (p : NbProg) (va : Nat) : Perm :=
  ⟨p.reads.any fun r => p.rowVa r.1 r.2 = va, p.writes.any fun r => p.rowVa r.1 r.2 = va, false⟩

/-- A row that a step uses: on an MS page of at least 2 MiB, in the unit's own channel and bank (R217). -/
def State.nbRow (s : State) (p : NbProg) (va : Nat) : Except (BitVec 8) (Nat × Bool) :=
  if winBase ≤ va then .error cACCESS
  else match s.xlat p.ctx va with
    | .error c => .error c
    | .ok x =>
      let pa := x.pa + (va - x.va)
      if !x.permits (p.rowPerm va) || !x.entry.getLsbD 5 || x.size < 2 ^ 21 || bankOf pa ≠ p.bank then .error cACCESS
      else .ok (pa / 2048 * 2048, x.entry.getLsbD 6)

/-- The banks of a set. -/
def banksOf (w : Word32) : List Nat := (List.range 32).filter fun b => w.getLsbD b

def State.nbQueue (s : State) (bank : Nat) : List NbProg := mget [] s.carafe.nb bank

def State.setNbQueue (s : State) (bank : Nat) (q : List NbProg) : State :=
  { s with carafe := { s.carafe with nb := mput s.carafe.nb bank q } }

/-- Puts a program into the queues of its banks. -/
def State.nbEnqueue (s : State) (p : NbProg) (first : Nat) : List Nat → State
  | [] => s
  | b :: rest =>
    let bank := first + b
    (s.setNbQueue bank (s.nbQueue bank ++ [{ p with bank := bank }])).nbEnqueue p first rest

/-- NBPROG (R215, R217). -/
def execNbprog (d a : Reg) (x : Bool) (s : State) : Out :=
  withOperands s [srcA a x] [.g d] (
    let ga := s.me.readG a
    match ownBytes s ga 64 with
    | .error (c, t) => s.trap c t
    | .ok keys =>
      if s.me.acquiring || s.me.waitsFor (addr56 ga) 64 then s.stall
      else if s.isPoisoned keys then s.trap cUNCORR (s.badLine (addr56 ga) keys)
      else
        let bs := s.bytes keys
        let w0 := dword bs 0
        let bases := [1, 2, 3].map fun i => BitVec.ofNat 64 (dword bs i)
        let rstride := BitVec.ofNat 64 (dword bs 4)
        let banks := BitVec.ofNat 32 (dword bs 6)
        let entry := w0 % 64
        let iters := w0 / 2 ^ 16 % 65536
        let reserved := w0 / 2 ^ 6 % 2 ^ 10 ≠ 0 || w0 / 2 ^ 32 % 2 ^ 16 ≠ 0 || w0 / 2 ^ 54 ≠ 0 || dword bs 6 / 2 ^ 32 ≠ 0 || dword bs 7 ≠ 0
        let baseFault (b : Word) := firstFault
          [failIf (!ptrOk b || (ptrFmt b ≠ 10 && ptrFmt b ≠ 0)) cFMTFAULT b,
           failIf (b.getLsbD 55 || inWin (addr56 b) || addr56 b % 2048 ≠ 0) cACCESS b]
        checked s (firstFault
          [failIf (reserved || iters = 0 || banks = 0 || (4 ≤ entry && entry < 8)) cACCESS ga,
           bases.findSome? baseFault, failIf (rstride.toInt % 2 ^ 21 ≠ 0) cACCESS rstride,
           failIf ((s.microWords entry).isNone) cACCESS ga]) (
          let set := banksOf banks
          let b0 := addr56 (bases.headD 0)
          let va := b0 / 2 ^ 21 * 2 ^ 21 + set.headD 0 * 65536 + b0 % 65536
          if s.myCore.outstFull then s.stall
          else match s.resolve (s.agent s.cur) va 1 permR, s.xlat (s.ctxOf s.cur) va with
            | .error c, _ => s.trapAt c va
            | .ok _, .error c => s.trapAt c va
            | .ok _, .ok x =>
              if !x.entry.getLsbD 5 || x.size < 2 ^ 21 then s.trap cACCESS (BitVec.ofNat 64 va)
              else
                let s := s.touch va 1
                let n := s.ctxOf s.cur
                let first := (x.pa + (va - x.va)) / 2 ^ 37 % 8 * 1024 + va / 2 ^ 11 % 32 * 32
                if set.any fun b => 3 < (s.nbQueue (first + b)).length then s.retireG d (1#64 <<< 61)
                else
                  let id := (s.ctx n).nbNext
                  let p : NbProg :=
                    { id := id, ctx := n, slot := s.cur, sender := s.slotid s.cur, xm := s.me.xm, entry := BitVec.ofNat 6 entry,
                      words := [], iters := iters, ch := BitVec.ofNat 5 (w0 / 2 ^ 48), notify := bit w0 53, bases := bases,
                      rstride := rstride, s0 := BitVec.ofNat 32 (dword bs 5), s1 := BitVec.ofNat 32 (dword bs 5 / 2 ^ 32), banks := banks,
                      bank := 0, i := 0, mpc := 0, ba0 := [], ba1 := [], tagged := false, st := .queued, cause := 0 }
                  let s := { s with carafe := { s.carafe with reports := s.carafe.reports.filter fun q => !(q.ctx = n && q.id = id) } }
                  let s := s.modCtx n fun c => { c with nbNext := id + 1 }
                  (s.nbEnqueue p first set).retireG d (id.setWidth 64)))

/-- The program of an id on a bank of its set, queued or reported (R221). -/
def State.nbFind (s : State) (ctx : Nat) (id : BitVec 16) (bank : Nat) : Option NbProg :=
  let is (p : NbProg) : Bool := p.ctx = ctx && p.id = id && p.bank % 32 = bank
  match s.carafe.nb.findSome? fun q => q.2.find? is with
  | some p => some p
  | none => s.carafe.reports.find? is

def NbSt.code : NbSt → Nat
  | .queued => 1
  | .running => 2
  | .yielding => 3
  | .stopped => 4
  | .ended => 5

/-- NBSTAT (R221). -/
def execNbstat (d a : Reg) (x : Bool) (s : State) : Out :=
  withOperands s [srcA a x] [.g d] (
    let ga := s.me.readG a
    if s.myCore.outstFull then s.stall
    else match s.nbFind (s.ctxOf s.cur) (ga.setWidth 16) (ga.extractLsb' 16 5).toNat with
      | none => s.retireG d 0
      | some p => s.retireG d (BitVec.ofNat 64 (p.st.code * 2 ^ 60 + (if p.st = .stopped then p.cause.toNat else 0) * 2 ^ 48
          + p.i % 65536 * 2 ^ 32 + p.mpc % 16 * 2 ^ 16 + p.entry.toNat)))

/-- A program leaves the head of its bank's queue and stays reportable. -/
def State.nbLeave (s : State) (p : NbProg) : State :=
  let s := s.setNbQueue p.bank (s.nbQueue p.bank).tail
  { s with carafe := { s.carafe with reports := s.carafe.reports ++ [p] } }

/-- A fault stops the program on its bank (R219). -/
def State.nbFault (s : State) (p : NbProg) (cause : BitVec 8) (tval va : Nat) : State :=
  let p := { p with st := .stopped, cause := cause }
  (s.nbLeave p).queueFault p.ctx
    { cause := cause, source := 6, tval := BitVec.ofNat 64 tval, slotid := p.sender, launchid := s.launchidOf p.slot,
      extra := BitVec.ofNat 64 (p.id.toNat + p.bank % 32 * 2 ^ 16 + p.bank / 32 % 32 * 2 ^ 21 + p.bank / 1024 * 2 ^ 26 + p.i % 65536 * 2 ^ 32
        + p.mpc % 16 * 2 ^ 48), va := BitVec.ofNat 64 va }

/-- The tag pass over the rows: words of TAGGED pages become empty; the first row that breaks a rule stops it (R217). -/
def State.tagRows (s : State) (p : NbProg) : List (Nat × Nat) → State × Option (BitVec 8 × Nat)
  | [] => (s, none)
  | r :: rest =>
    let va := p.rowVa r.1 r.2
    match s.nbRow p va with
    | .error c => (s, some (c, va))
    | .ok (pa, tagged) => (if tagged then s.setTags ((List.range 512).map (pa / 4 + ·)) false else s).tagRows p rest

/-- The program runs for a context that is running. -/
def State.nbLive (s : State) (p : NbProg) : Bool := (s.ctx p.ctx).st = .running

/-- 512 free values, for accumulators that a program has not written (log 5). -/
def State.freeRow (s : State) : List Word32 × State :=
  ((List.range 512).map fun e => (Config.freeValue (s.fresh + e)).setWidth 32, { s with fresh := s.fresh + 512 })

/-- TAG_PASS: the bank starts its next program, and serves what came in the meantime before its first micro-operation (R217, R223). -/
def execTagPass (bank : Nat) (s : State) : Out :=
  .next <|
    match s.nbQueue bank with
    | p :: rest =>
      if p.st ≠ .queued || !s.nbLive p then s
      else match s.microWords p.entry.toNat with
        | none => s
        | some ws =>
          let (b0, s) := s.freeRow
          let (b1, s) := s.freeRow
          let p := { p with words := ws, ba0 := b0, ba1 := b1, tagged := true, st := .yielding }
          match s.tagRows p p.writes with
          | (s, none) => (s.setNbQueue bank (p :: rest)).served
          | (s, some (c, va)) => (s.nbFault p c va va).served
    | [] => s

/-- A micro-operation over the 512 elements of the accumulators (R216). -/
def microMap (f : Word32 → Word32 → Word32) (a b : List Word32) : List Word32 := (a.zip b).map fun p => f p.1 p.2

/-- The step is done; the unit stands at the row boundary. -/
def State.nbStepDone (s : State) (p : NbProg) : State :=
  s.setNbQueue p.bank ({ p with mpc := p.mpc + 1, st := .yielding } :: (s.nbQueue p.bank).tail)

def NbProg.ba (p : NbProg) (a : Bool) : List Word32 := if a then p.ba1 else p.ba0
def NbProg.setBa (p : NbProg) (a : Bool) (v : List Word32) : NbProg := if a then { p with ba1 := v } else { p with ba0 := v }

/-- A step that reads a row (R216). -/
def State.nbRead (s : State) (p : NbProg) (va : Nat) (k : List Word32 → State) : State :=
  match s.nbRow p va with
  | .error c => s.nbFault p c va va
  | .ok (pa, _) =>
    match (keysFrom pa 2048).find? fun k => mget false s.poison (k / 4) with
    | some b => s.nbFault p cUNCORR ((va + (b - pa)) / 64 * 64) (va + (b - pa))
    | none => k (words32 (s.bytes (keysFrom pa 2048)))

/-- A step that writes a row: whole, its words full on a TAGGED page (R217). -/
def State.nbWrite (s : State) (p : NbProg) (va : Nat) (ws : List Word32) : State :=
  match s.nbRow p va with
  | .error c => s.nbFault p c va va
  | .ok (pa, tagged) =>
    let s := (s.put (keysFrom pa 2048) (ws.flatMap fun w => toBytes 4 w.toNat)).nbStepDone p
    if tagged then s.retag ((List.range 512).map (pa / 4 + ·)) true else s

/-- ROW_STEP: one micro-operation (R216). -/
def execRowStep (bank : Nat) (s : State) : Out :=
  .next <|
    match s.nbQueue bank with
    | p :: _ =>
      if p.st ≠ .running || !s.nbLive p then s
      else
        match p.words[p.mpc]? with
        | none => s.setNbQueue bank ({ p with st := .yielding } :: (s.nbQueue bank).tail)
        | some w =>
          let a := microA w
          let sc := if microT w then p.s1 else p.s0
          match microOp w with
          | 0 => s.setNbQueue bank ({ p with st := .yielding } :: (s.nbQueue bank).tail)
          | 1 => s.nbRead p (p.rowVa (microR w) p.i) fun xs => s.nbStepDone (p.setBa a xs)
          | 2 => s.nbWrite p (p.rowVa (microR w) p.i) (p.ba a)
          | 3 => s.nbRead p (p.rowVa (microR w) p.i) fun xs =>
              s.nbStepDone (p.setBa a (microMap (fun acc v => (fFma 0 0 sc v acc).1) (p.ba a) xs))
          | 4 => s.nbStepDone (p.setBa a (microMap (fun u v => (fAdd 0 0 u v).1) (p.ba a) (p.ba !a)))
          | 5 => s.nbStepDone (p.setBa a ((p.ba a).map fun u => (fMul 0 0 sc u).1))
          | 6 => s.nbStepDone (if p.i = 0 then p.setBa a (List.replicate 512 0) else p)
          | _ => if p.i + 1 = p.iters then s.nbWrite p (p.rowVa (microR w) 0) (p.ba a) else s.nbStepDone p
    | [] => s

/-- The notification of a program that every bank of its set has ended (R217). -/
def State.nbNotify (s : State) (p : NbProg) : State :=
  let first := p.bank / 32 * 32
  let done := (banksOf p.banks).all fun b =>
    s.carafe.reports.any fun q => q.ctx = p.ctx && q.id = p.id && q.bank = first + b && q.st = .ended
  if p.notify && done then
    let w := BitVec.ofNat 64 (coordOf p.slot.core + p.ch.toNat * 2 ^ 19)
    s.post ⟨w, p.sender, p.xm, p.ctx, some 1, [], [p.slot.core], false, false, none, none, []⟩
  else s

/-- The entries that wait no more leave. -/
def State.purgeWaits (s : State) : State :=
  if s.carafe.waiting = [] then s else { s with carafe := { s.carafe with waiting := s.carafe.waiting.filter s.stillWaits } }

/-- ROW_BOUNDARY_YIELD: the unit goes on from a row boundary, once what waited for the bank has been served by its own steps; then END takes
effect (R216, R218, R223). A microprogram without END ends its iteration after its last word (log 22). -/
def execRowBoundaryYield (bank : Nat) (s : State) : Out :=
  .next <|
    match s.nbQueue bank with
    | p :: rest =>
      if p.st ≠ .yielding || !s.nbLive p then s
      else
        let s := s.purgeWaits
        if (s.bankHead bank).isSome then s else
        let atEnd := match p.words[p.mpc]? with | none => true | some w => microOp w = 0
        if !atEnd then s.setNbQueue bank ({ p with st := .running } :: rest)
        else if p.i + 1 < p.iters then s.setNbQueue bank ({ p with st := .running, i := p.i + 1, mpc := 0 } :: rest)
        else
          let p := { p with st := .ended, i := p.i + 1, mpc := 0 }
          ((s.setNbQueue bank (p :: rest)).nbLeave p).nbNotify p
    | [] => s

/-! ## ROUTLD (R207) -/

/-- The result code of a header alone, 0 where it is good (R207). -/
def routldHead (idx h : Nat) : Nat :=
  let micro := bit h 11
  let n := h % 128
  if h / 2 ^ 12 ≠ 0 || bit h 7 || n = 0 || (if micro then 16 < n else 64 < n) then 1
  else if (if micro then idx < 8 || 63 < idx else idx < 32 || 255 < idx) then 2
  else 0

/-- The result code of an image with a good header (R207). -/
def routldCode (h : Nat) (ws : List Word32) : Nat :=
  let micro := bit h 11
  let n := h % 128
  match (List.range n).find? fun i => !(if micro then microWordOk (ws.getD i 0) else routineWordOk n i (ws.getD i 0)) with
  | some i => 3 + i * 256
  | none => 0

/-- Installs an entry in every Carafe, and its header in every core's copy (R207). -/
def State.install (s : State) (idx h : Nat) (ws : List Word32) : State :=
  let e := (BitVec.ofNat 64 h, ws)
  let c := s.carafe
  { s with carafe := if bit h 11 then { c with micro := mput c.micro idx e } else { c with routines := mput c.routines idx e } }

/-- ROUTLD (R91, R207): the header is judged before the words are read. -/
def execRoutld (d a : Reg) (idx : BitVec 8) (s : State) : Out :=
  withOperands s [srcA a false] [.g d] (
    let ga := s.me.readG a
    let ea := addr56 ga
    if !isControl s.cur.core then s.trap cACCESS ((encode (.routld d a idx)).getD 0 |>.setWidth 64) else
    checked s (firstFault [ptrFault ga, failIf (ptrFmt ga ≠ 0) cFMTFAULT ga, failIf (ea % 8 ≠ 0) cMISALIGN (withAddr ga ea),
        ownFault s ga]) (
      if s.me.acquiring || s.me.waitsFor ea 264 then s.stall
      else match s.resolve (s.agent s.cur) ea 8 permR with
        | .error c => s.trapAt c ea
        | .ok l =>
          if s.isPoisoned l.keys then s.trap cUNCORR (lineAddr ea)
          else
            let h := leNat (s.bytes l.keys)
            let head := routldHead idx.toNat h
            if head ≠ 0 then (s.touch ea 8).retireG d (BitVec.ofNat 64 head)
            else match s.resolve (s.agent s.cur) (ea + 8) (4 * (h % 128)) permR with
              | .error c => s.trapAt c (ea + 8)
              | .ok l =>
                if s.isPoisoned l.keys then s.trap cUNCORR (s.badLine (ea + 8) l.keys)
                else
                  let ws := words32 (s.bytes l.keys)
                  let code := routldCode h ws
                  let s := (s.touch ea 8).touch (ea + 8) (4 * (h % 128))
                  if code ≠ 0 then s.retireG d (BitVec.ofNat 64 code) else (s.install idx.toNat h ws).retireG d 0))

end Sys2Proof.Machine
end

