-- ==== Sys2Proof/Machine/Kdp.lean ====
section
/-!
DEFINITION. KDP, the protocol of the die links (R268, R305, R316, R317): buffer slots, the pool and the credits of each end of a hub or ring
link, forwarding at the hub and at a neighbour, sequence numbers, payloads, NACKs, trimmed headers and pulls, time exchanges and identify
requests, and the route round a failed link. What a write, atomic, call or chain step does to memory is the step of that access itself
(log 48).
-/

namespace Sys2Proof.Machine

/-! ## Header fields (R316) -/

def hdrVc (h : Word) : Nat := (h.extractLsb' 62 2).toNat
def hdrType (h : Word) : Nat := (h.extractLsb' 56 6).toNat
def hdrSeq (h : Word) : BitVec 12 := h.extractLsb' 44 12
def hdrSrc (h : Word) : Nat := (h.extractLsb' 33 8).toNat
def hdrDst (h : Word) : Nat := (h.extractLsb' 25 8).toNat

/-- The virtual channel of a packet type. -/
def kdpVc (type : Nat) : Option Nat :=
  if 1 ≤ type && type ≤ 4 then some 0
  else if type = 5 || type = 6 then some 1
  else if type = 7 || type = 8 then some 2
  else if 9 ≤ type && type ≤ 15 then some 3
  else none

/-- A packet that its receiver drops (R316). -/
def kdpBad (h : Word) : Bool := kdpVc (hdrType h) ≠ some (hdrVc h) || 4 < (h.extractLsb' 41 3).toNat

/-- The header without the credits that it carries, which its next hop may change. -/
def hdrCore (h : Word) : Word := h &&& ~~~(0x7F000#64)

/-- Data flits of a packet with n payload bytes, of which the header flit holds 48. -/
def flitsFor (n : Nat) : Nat := (n - 48 + 63) / 64

/-- Header bytes 0 to 7 of a packet that carries no credits. -/
def kdpHeader (type : Nat) (seq : BitVec 12) (src dst ctx flits : Nat) : Word :=
  BitVec.ofNat 64 ((kdpVc type).getD 0 * 2 ^ 62 + type % 64 * 2 ^ 56 + seq.toNat * 2 ^ 44 + flits % 8 * 2 ^ 41 + src % 256 * 2 ^ 33 +
    dst % 256 * 2 ^ 25 + ctx % 64 * 2 ^ 19)

/-- The header with n credits of a channel. -/
def withCredits (h : Word) (vc n : Nat) : Word := hdrCore h ||| BitVec.ofNat 64 (vc % 4 * 2 ^ 17 + n % 32 * 2 ^ 12)

/-! ## Ends and ports -/

def State.kdpEnd (s : State) (e : Nat) : KdpEnd := mget KdpEnd.init s.kdp.ends e
def State.modEnd (s : State) (e : Nat) (f : KdpEnd → KdpEnd) : State :=
  { s with kdp := { s.kdp with ends := mput s.kdp.ends e (f (s.kdpEnd e)) } }
def State.kdpPort (s : State) (p : Nat) : KdpPort := mget KdpPort.init s.kdp.ports p
def State.modPort (s : State) (p : Nat) (f : KdpPort → KdpPort) : State :=
  { s with kdp := { s.kdp with ports := mput s.kdp.ports p (f (s.kdpPort p)) } }

/-- The other end of a link. -/
def farEnd (e : Nat) : Nat := if e % 2 = 0 then e + 1 else e - 1

/-- The port at an end of a link (log 23). -/
def portAt (e : Nat) : Nat :=
  if e / 2 ≤ 20 then (if e % 2 = 0 then e / 2 else 0) else if e % 2 = 0 then e / 2 - 20 else (e / 2 - 20) % 8 + 1

/-- The end at one die of its ring link to a neighbour, by their ports. -/
def ringEnd (p q : Nat) : Nat := if q = p % 8 + 1 then 2 * (20 + p) else 2 * (20 + q) + 1

/-- The hub link that reaches a port: its own, or the one its traffic takes after a failure (R305). -/
def Repair.route (r : Repair) (port : Nat) : Nat :=
  match r.rerouted.find? fun p => p.1 = port with | some p => p.2 | none => port

/-- The end at which a packet for a port leaves another: the hub's end of a hub link; of a die, its ring link to a neighbour for which it
carries traffic or which carries its own, else its hub link (R305). -/
def Repair.endFrom (r : Repair) (at_ dst : Nat) : Nat :=
  if at_ = 0 then 2 * r.route dst + 1
  else if r.rerouted.contains (dst, at_) then ringEnd at_ dst
  else if r.route at_ = at_ then 2 * at_ else ringEnd at_ (r.route at_)

/-- The end at which a packet on a link arrives, by its header: at the die if the packet is for it or for a neighbour for which it carries
traffic, else at the hub; on a ring link, at the die that is its target, or that is not its source (R305). -/
def Repair.endFor (r : Repair) (link : Nat) (h : Word) : Nat :=
  if link ≤ 20 then
    if hdrDst h = link || (r.rerouted.contains (hdrDst h, link) && hdrSrc h ≠ link) then 2 * link else 2 * link + 1
  else if hdrDst h = link - 20 || (hdrDst h ≠ portAt (2 * link + 1) && hdrSrc h = portAt (2 * link + 1)) then 2 * link
  else 2 * link + 1

/-! ## Slots and credits (R268) -/

/-- Applies f to one channel's count. -/
def atVc (v : Vector Nat 4) (vc : Nat) (f : Nat → Nat) : Vector Nat 4 := if h : vc < 4 then v.set vc (f v[vc]) h else v

/-- A received packet takes a slot: one of the 16 of its channel, or one of the pool. DESIGN CHOICE: one slot for a packet (log 48). -/
def KdpEnd.take (e : KdpEnd) (vc : Nat) : KdpEnd := { e with used := atVc e.used vc (· + 1) }
/-- The slot is free again, and its credit goes back (R268). -/
def KdpEnd.free (e : KdpEnd) (vc : Nat) : KdpEnd := { e with used := atVc e.used vc (· - 1), owed := atVc e.owed vc (· + 1) }

/-- The slot that a packet holds is freed. -/
def State.freeSlot (s : State) (p : KdpPacket) : State :=
  match p.slot with | some e => s.modEnd e fun d => d.free (hdrVc p.h0) | none => s

/-- Slots of the pool that are in use: those of each channel beyond its 16. -/
def poolUsed (spent : Vector Nat 4) : Nat := (spent.toList.map (· - 16)).sum

/-- A packet of a channel has a slot at the other end (R268). -/
def hasSlot (spent : Vector Nat 4) (vc : Fin 4) : Bool := spent[vc] < 16 || poolUsed spent < Config.poolSlots

/-- The packets that cross now, in order, those that wait on, and the slots spent after it. -/
def crossing : List KdpPacket → Vector Nat 4 → List KdpPacket × List KdpPacket × Vector Nat 4
  | [], spent => ([], [], spent)
  | p :: rest, spent =>
    let vc := (p.h0.extractLsb' 62 2).toFin
    if hasSlot spent vc then let r := crossing rest (spent.set vc (spent[vc] + 1)); (p :: r.1, r.2)
    else let r := crossing rest spent; (r.1, p :: r.2.1, r.2.2)

/-- The lowest channel that owes credits. -/
def owing (owed : Vector Nat 4) : Nat := ((List.range 4).find? fun v => 0 < owed.toList.getD v 0).getD 0

/-- Each packet that crosses takes up to 31 credits of one channel along (R316). DESIGN CHOICE: the lowest channel that owes some (log 48). -/
def payBack : List KdpPacket → Vector Nat 4 → List KdpPacket × Vector Nat 4
  | [], owed => ([], owed)
  | p :: rest, owed =>
    let vc := owing owed
    let r := payBack rest (atVc owed vc (· - 31))
    ({ p with h0 := withCredits p.h0 vc (min 31 (owed.toList.getD vc 0)) } :: r.1, r.2)

/-- Packets are on their way to the other end of a link. -/
def State.fly (s : State) (e : Nat) (ps : List KdpPacket) : State :=
  { s with kdp := { s.kdp with flight := s.kdp.flight ++ ps.map fun p => (farEnd e, { p with slot := none }) } }

/-- Packets of credits only that pay what an end owes, at most 31 each (R316). They take no slot and no turn (log 48). -/
def creditPackets (e : Nat) (owed : Vector Nat 4) : List KdpPacket :=
  (List.range 4).flatMap fun vc =>
    let n := owed.toList.getD vc 0
    (List.range ((n + 30) / 31)).map fun i =>
      ⟨withCredits (kdpHeader 12 0 (portAt e) (portAt (farEnd e)) 0 0) vc (min 31 (n - 31 * i)), 0, [], none⟩

/-- Every end of a live link returns the credits that no packet took along. -/
def State.payAll (s : State) : State :=
  s.kdp.ends.foldl (fun s x =>
    if s.repair.links.contains (x.1 / 2) || (s.kdpEnd x.1).owed.toList.all (· = 0) then s
    else (s.modEnd x.1 fun d => { d with owed := Vector.replicate 4 0 }).fly x.1 (creditPackets x.1 (s.kdpEnd x.1).owed)) s

/-! ## Crossing a link -/

/-- A message that has crossed to its target is delivered, and a reply or acknowledgement too: its source keeps no copy (R305). -/
def State.dropCopy (s : State) (p : KdpPacket) : State :=
  if hdrVc p.h0 = 0 then s
  else s.modPort (hdrSrc p.h0) fun q => { q with asked := q.asked.eraseP fun a => hdrCore a.h0 = hdrCore p.h0 && a.h1 = p.h1 }

/-- What can cross a link from one end does. -/
def State.cross (s : State) (e : Nat) : State :=
  if s.repair.links.contains (e / 2) then s
  else
    let d := s.kdpEnd e
    let (out, left, spent) := crossing d.queue d.spent
    let (out, owed) := payBack out d.owed
    let s := (s.modEnd e fun d => { d with queue := left, spent := spent, owed := owed }).fly e out
    out.foldl (fun s p => if hdrDst p.h0 = portAt (farEnd e) then (s.freeSlot p).dropCopy p else s.freeSlot p) s

/-- A packet waits to cross. -/
def State.pushKdp (s : State) (e : Nat) (p : KdpPacket) : State := (s.modEnd e fun d => { d with queue := d.queue ++ [p] }).cross e

/-- A packet of a source port, with the next sequence number of its target and channel (R316). -/
def State.makeKdp (s : State) (type src dst ctx : Nat) (h1 : Word) (data : List Byte) : KdpPacket × State :=
  let key := dst * 4 + (kdpVc type).getD 0
  let seq := mget 0 (s.kdpPort src).sent key
  (⟨kdpHeader type seq src dst ctx (flitsFor data.length), h1, data, none⟩,
    s.modPort src fun q => { q with sent := mset 0 q.sent key (seq + 1) })

/-- A port sends a packet of its own. -/
def State.sendKdp (s : State) (type src dst ctx : Nat) (h1 : Word) (data : List Byte) : State :=
  let (p, s) := s.makeKdp type src dst ctx h1 data
  s.pushKdp (s.repair.endFrom src dst) p

/-! ## Receiving -/

/-- n payload bytes that nothing gives: free values. -/
def State.freePayload (s : State) (n : Nat) : List Byte × State :=
  ((List.range n).map fun i => (Config.freeValue (s.fresh + i)).setWidth 8, { s with fresh := s.fresh + n })

/-- The message that a packet of type 7 or 8 carries: its destination word in header bytes 8 to 15, its body or decrement at the start of the
payload, and as free values what the spec gives no place: the sender and its XM bit (log 48). -/
def State.kdpMessage (s : State) (p : KdpPacket) : Msg × State :=
  let (v, s) := s.draw
  let (x, s) := s.draw
  ({ dest := p.h1, sender := v, xm := x.getLsbD 0, ctx := (p.h0.extractLsb' 19 6).toNat,
     dec := if hdrType p.h0 = 8 then some (BitVec.ofNat 16 (leNat (p.data.take 2))) else none,
     body := if hdrType p.h0 = 8 then [] else (words32 p.data).take (p.h1.extractLsb' 24 8).toNat,
     targets := [destCore p.h1], refused := false, fabric := false, launch := none, region := none, after := [] }, s)

/-- The copy that a NACK, a trimmed header's pull or a loss names: the one whose header the payload repeats, else the first with its target and
header bytes 8 to 15 (log 48). -/
def KdpPort.copyOf (q : KdpPort) (src : Nat) (p : KdpPacket) : Option KdpPacket :=
  (q.asked.find? fun a => a.h1 = p.h1 && toBytes 8 (hdrCore a.h0).toNat = p.data) <|>
    q.asked.find? fun a => hdrDst a.h0 = src && a.h1 = p.h1

/-- A source sends the packet that a NACK or a pull names again (R305, R317). -/
def State.sendAgain (s : State) (port : Nat) (p : KdpPacket) : State :=
  match (s.kdpPort port).copyOf (hdrSrc p.h0) p with
  | some a => s.pushKdp (s.repair.endFrom port (hdrDst a.h0)) { a with slot := none }
  | none => s

/-- What a port does with a packet in its turn (R308, R316, R317): a request is answered, a read with the bytes at its address; an answer ends
its request; a message goes on to its core; a NACK or a pull has the source send the packet again, with no limit; a trimmed header is pulled; a
time exchange and an identify request are answered, and their answers kept. DESIGN CHOICE: the size of a read and the payloads of answers to
atomics, calls and chain steps, whose places the spec does not give, are free values (log 48). -/
def State.applyKdp (s : State) (port : Nat) (p : KdpPacket) : State :=
  let src := hdrSrc p.h0
  let ctx := (p.h0.extractLsb' 19 6).toNat
  let s := s.freeSlot p
  match hdrType p.h0 with
  | 1 =>
    let (n, s) := s.draw
    s.sendKdp 5 port src ctx p.h1 (s.bytes (keysFrom (p.h1.toNat % 2 ^ 40) (48 + 64 * (n.toNat % 5))))
  | 3 | 4 => let (bs, s) := s.freePayload 48; s.sendKdp 5 port src ctx p.h1 bs
  | 2 => s.sendKdp 6 port src ctx p.h1 []
  | 5 | 6 => s.modPort port fun q => { q with asked := q.asked.eraseP fun a => hdrVc a.h0 = 0 && hdrDst a.h0 = src && a.h1 = p.h1 }
  | 7 | 8 => if p.h1.getLsbD 55 then s else let (m, s) := s.kdpMessage p; { s with net := s.net ++ [m] }
  | 9 | 11 => s.sendAgain port p
  | 10 => s.sendKdp 11 port src ctx p.h1 p.data
  | 13 =>
    if port = 0 then s.sendKdp 13 0 src 0 p.h1 []
    else { s with kdp := { s.kdp with aligned := mset 0 s.kdp.aligned port s.time } }
  | 14 => s.sendKdp 15 port src 0 0 (toBytes 8 (Config.vendor port).toNat ++ toBytes 8 (Config.identity port).toNat)
  | 15 =>
    if port = 0 then
      { s with kdp := { s.kdp with idents := mput s.kdp.idents src (BitVec.ofNat 64 (leNat (p.data.take 8)), BitVec.ofNat 64 (leNat ((p.data.drop 8).take 8))) } }
    else s
  | _ => s

/-- Key of a source port and channel. -/
def seqKey (h : Word) : Nat := hdrSrc h * 4 + hdrVc h

/-- Applies a packet and then those held behind it that are next in turn (R317). -/
def State.inTurn (s : State) (port : Nat) (p : KdpPacket) : Nat → State
  | 0 => s
  | fuel + 1 =>
    let k := seqKey p.h0
    let s := (s.modPort port fun q => { q with next := mset 0 q.next k (hdrSeq p.h0 + 1) }).applyKdp port p
    match (s.kdpPort port).held.find? fun q => seqKey q.h0 = k && hdrSeq q.h0 = hdrSeq p.h0 + 1 with
    | none => s
    | some q => (s.modPort port fun d => { d with held := d.held.erase q }).inTurn port q fuel

/-- A packet reaches its port: it is applied in its turn, held behind a gap, or dropped if it has been applied before (R305, R317). -/
def State.arriveAt (s : State) (port : Nat) (p : KdpPacket) : State :=
  let q := s.kdpPort port
  let ahead := hdrSeq p.h0 - mget 0 q.next (seqKey p.h0)
  if ahead = 0 then s.inTurn port p (q.held.length + 1)
  else if ahead.getLsbD 11 then s.freeSlot p
  else s.modPort port fun q => { q with held := q.held ++ [p] }

/-- The source keeps a copy of a packet until it is answered or delivered. -/
def State.keepCopy (s : State) (p : KdpPacket) : State :=
  let t := hdrType p.h0
  if t = 0 || 8 < t || hdrSrc p.h0 = 0 then s
  else s.modPort (hdrSrc p.h0) fun q =>
    if q.asked.any fun a => hdrCore a.h0 = hdrCore p.h0 && a.h1 = p.h1 then q else { q with asked := q.asked ++ [p] }

/-- A good packet that has taken a slot: applied at its own port, or forwarded. -/
def State.receiveKdp (s : State) (port : Nat) (p : KdpPacket) : State :=
  let dst := hdrDst p.h0
  let s := if port = 0 && (dst ≠ 0 || hdrVc p.h0 = 0) then s.keepCopy p else s
  if dst = port then s.arriveAt port p
  else if 20 < dst then s.freeSlot p
  else s.pushKdp (s.repair.endFrom port dst) p

/-- KDP_PACKET: a die or the hub receives a packet. A malformed one is dropped, with its credit returned and a record of EVENT 2 that names
the link; a good one returns credits, takes a slot, and is applied or forwarded to its target (R268, R316). Its payload is that of the packet
on its way with these headers; of one that no port of the package sent, free values. -/
def execKdpPacket (link : Nat) (h0 h1 : Word) (s : State) : Out :=
  .next (
    if link = 0 || 28 < link then s
    else
    let sent := s.kdp.flight.find? fun q => q.1 / 2 = link && q.2.h0 = h0 && q.2.h1 = h1
    let e := (sent.map (·.1)).getD (s.repair.endFor link h0)
    let vc := hdrVc h0
    let s := match sent with | some q => { s with kdp := { s.kdp with flight := s.kdp.flight.erase q } } | none => s
    if kdpBad h0 then
      ((s.modEnd e fun d => { d with owed := atVc d.owed vc (· + 1) }).payAll).logRecord 2 12 0 none (link % 256) 0 0 (s.eventsIn (.link link))
    else
      let s := (s.modEnd e fun d => { d with spent := atVc d.spent (h0.extractLsb' 17 2).toNat (· - (h0.extractLsb' 12 5).toNat) }).cross e
      if hdrType h0 = 12 then s
      else
        let (data, s) := match sent with
          | some q => (q.2.data, s)
          | none => s.freePayload (48 + 64 * (h0.extractLsb' 41 3).toNat)
        ((s.modEnd e fun d => d.take vc).receiveKdp (portAt e) ⟨h0, h1, data, some e⟩).payAll)

/-- Every die exchanges time with the Crema, the master of its package, over its link once the links are trained (R308, R310). -/
def State.exchangeDies (s : State) : State :=
  if s.host.phase.toNat < 3 then s
  else (List.range 20).foldl (fun s i => if Config.present (i + 1) then s.sendKdp 13 (i + 1) 0 0 (BitVec.ofNat 64 s.time) [] else s) s

/-! ## Rerouting round a failed link (R305) -/

/-- The physical dies beside one in the ring, each with the number of the ring link to it (log 23). -/
def ringSides (phys : Nat) : List (Nat × Nat) := [((phys + 1) % 8, 21 + phys), ((phys + 7) % 8, 21 + (phys + 7) % 8)]

/-- Packets that wait at an end to cross free their slots and go back to their sources as NACKs on VC 3, each with the packet's header; those
that the port at the end sent itself it sends again, by its route (R305). -/
def State.returnQueue (s : State) (e : Nat) : State :=
  let ps := (s.kdpEnd e).queue
  ps.foldl (fun s p =>
    let t := s.freeSlot p
    if hdrSrc p.h0 = portAt e then t.pushKdp (t.repair.endFrom (portAt e) (hdrDst p.h0)) { p with slot := none }
    else t.sendKdp 9 (portAt e) (hdrSrc p.h0) (p.h0.extractLsb' 19 6).toNat p.h1 (toBytes 8 (hdrCore p.h0).toNat))
    (s.modEnd e fun d => { d with queue := [] })

/-- What waits at both ends of a link goes back (R305). -/
def State.returnWaiting (s : State) (link : Nat) : State := ((s.returnQueue (2 * link + 1)).returnQueue (2 * link)).payAll

/-- A physical die is live: the die map names it, and it is not retired. -/
def State.dieLive (s : State) (phys : Nat) : Bool :=
  (List.range 8).any fun v =>
    (match s.repair.diemap.toList[v]? with | some d => d.1 && d.2.toNat = phys | none => false) && !s.repair.fenced.contains (.die v)

/-- The hub link that takes the traffic of a failed one: that of a neighbour whose die is live and whose ring and hub links have not failed. -/
def State.wayRound (s : State) (link : Nat) : Option Nat :=
  ((ringSides (link - 1)).find? fun n =>
    s.dieLive n.1 && !s.repair.links.contains n.2 && !s.repair.links.contains (n.1 + 1)).map fun n => n.1 + 1

/-- The traffic of a failed hub link goes round, if a neighbour can take it, and what waits at the link is returned (R305). -/
def State.goRound (s : State) (link : Nat) : State :=
  match s.wayRound link with
  | none => { s with repair := { s.repair with rerouted := s.repair.rerouted.filter fun (p : Nat × Nat) => p.1 ≠ link } }
  | some via =>
    { s with repair := { s.repair with rerouted := (s.repair.rerouted.filter fun (p : Nat × Nat) => p.1 ≠ link) ++ [(link, via)] } }.returnWaiting link

/-- The failed hub links whose traffic goes over a ring link. -/
def Repair.over (r : Repair) (ring : Nat) : List Nat := (r.rerouted.filter fun p => ringEnd p.1 p.2 / 2 = ring).map (·.1)

end Sys2Proof.Machine
end

