-- ==== Sys2Proof/Machine/Repair.lean ====
section
/-!
DEFINITION. Errors and repair (R292 to R299, R305 to R309): corrected and uncorrectable errors, retirement and its records, the
topology table (R311), rerouting and time alignment. Spares and renumbering stand with the contexts.
-/

namespace Sys2Proof.Machine

/-! ## The topology table (R311) -/

/-- KIND of a position, by its port. -/
def kindOf (port : Nat) : Nat := if port = 0 then 1 else if port ≤ 8 then 2 else if port ≤ 16 then 3 else 4

/-- The virtual die at a physical position, if it is live (R9). -/
def State.virtualAt (s : State) (phys : Nat) : Option Nat :=
  (List.range 8).find? fun v => match s.repair.diemap.toList[v]? with | some (live, p) => live && p.toNat = phys | none => false

/-- Entry `port` of the topology table, with what its die last answered to an identify request; a position whose die the package lacks has
KIND 0xFF (R311, R316). -/
def State.topologyEntry (s : State) (port : Nat) : List Nat :=
  if !Config.present port then [0xFF + port * 2 ^ 8, 0]
  else
  let v := if kindOf port = 2 then s.virtualAt (port - 1) else none
  let live := match kindOf port with
    | 2 => v.isSome
    | 3 => !s.repair.retired.contains (.dramStack (port - 9))
    | 4 => s.fab.portLive (port - 17)
    | _ => true
  let mods := if s.repair.links.contains port then 0
    else match kindOf port with | 2 => 1 | 3 => 16 | 4 => 3 | _ => (Config.modules port).toNat
  let (vendor, identity) := (mfind s.kdp.idents port).getD ((Config.vendor port).setWidth 64, Config.identity port)
  [kindOf port + port * 2 ^ 8 + v.getD 0 * 2 ^ 16 + b2n live * 2 ^ 19 + mods * 2 ^ 24 + vendor.toNat % 2 ^ 16 * 2 ^ 32, identity.toNat]

/-- Firmware writes the entry of a position at 0x1000 + 16 * port (R311). -/
def State.writeEntry (s : State) (port : Nat) : State :=
  s.put (keysFrom (0x1000 + 16 * port) 16) ((s.topologyEntry port).flatMap (toBytes 8))

/-- Firmware writes the table (R311). -/
def State.writeTopology (s : State) : State := (List.range 21).foldl State.writeEntry s

/-- The port of a physical compute die. -/
def State.portOf (s : State) (virtual : Nat) : Nat :=
  match s.repair.diemap.toList[virtual]? with | some (_, p) => p.toNat + 1 | none => 1

/-! ## Units (R295) -/

/-- The smallest unit of the table that contains a resource (R295). -/
def unitOf : RUnit → RUnit
  | .channel st _ | .dramDie st _ | .carafe st => .dramStack st
  | .router d c | .matrixEngine d c | .copyUnit d c | .sramTier d c => .cluster d c
  | u => u

/-- UNIT code, of the unit that contains a resource (R299). -/
def unitCode : RUnit → Nat
  | .dramRow .. => 1
  | .dramBank .. => 2
  | .dramStack .. | .channel .. | .dramDie .. | .carafe .. => 3
  | .cremaFrame .. => 4
  | .cremaBank .. => 5
  | .slice .. => 6
  | .pour .. => 7
  | .core .. => 8
  | .cluster .. | .router .. | .matrixEngine .. | .copyUnit .. | .sramTier .. => 9
  | .die .. => 10
  | .lane .. => 11
  | .link .. => 12
  | .wavelength .. => 13
  | .controlCore .. => 14

/-- First physical address of a row (R143, R200). -/
def rowAddr (stack ch bank row : Nat) : Nat := stack * 2 ^ 37 + row * 2 ^ 21 + bank * 2 ^ 16 + ch * 2 ^ 11

/-- A coordinate with the physical die in [63:61] (R299). -/
def State.physCoord (s : State) (core : Nat) : Nat :=
  coordOf core + (match s.repair.diemap.toList[dieOf core]? with | some (_, p) => p.toNat | none => 0) * 2 ^ 61

/-- LOCATION and EXTENT of a unit; a Crema unit, slice or pour engine has no location that the spec gives, so a free value (R299). -/
def State.unitPlace (s : State) (u : RUnit) : Nat × Nat × State :=
  match u with
  | .dramRow st ch b r => (rowAddr st ch b r, 2048, s)
  | .dramBank st ch b => (rowAddr st ch b 0, 2 ^ 27, s)
  | .dramStack st | .channel st _ | .dramDie st _ | .carafe st => (st * 2 ^ 37, 2 ^ 37, s)
  | .cremaFrame .. | .cremaBank .. => let (a, s) := s.draw; let (b, s) := s.draw; (a.toNat, b.toNat, s)
  | .slice _ | .pour _ => let (a, s) := s.draw; (a.toNat, 0, s)
  | .core c => (s.physCoord c, 0, s)
  | .cluster d c | .router d c | .matrixEngine d c | .copyUnit d c | .sramTier d c => (s.physCoord (coreAt d c 0), 0, s)
  | .die d => (s.physCoord (coreAt d 0 0), 0, s)
  | .lane l n => (l % 256 + n % 256 * 256, 0, s)
  | .link l => (l % 256, 0, s)
  | .wavelength _ f w => (f % 64 + w % 16 * 256, 0, s)
  | .controlCore n => (coordOf (computeCores + n), 0, s)

/-- An error-log record about a unit (R299). -/
def State.unitRecord (s : State) (event : Nat) (u : RUnit) (cause repl count : Nat) : State :=
  let (loc, ext, s) := s.unitPlace u
  s.logRecord event (unitCode u) cause none loc ext repl count

/-- Retired units that satisfy p. -/
def State.countRetired (s : State) (p : RUnit → Bool) : Nat := (s.repair.retired.filter p).length

def rowsIn (st ch b : Nat) : RUnit → Bool
  | .dramRow st' ch' b' _ => st' = st && ch' = ch && b' = b
  | _ => false

def banksIn (st ch : Nat) : RUnit → Bool
  | .dramBank st' ch' _ => st' = st && ch' = ch
  | _ => false

def coresIn (d cl : Nat) : RUnit → Bool
  | .core c => dieOf c = d && clusterOf c = cl
  | _ => false

def clustersIn (d : Nat) : RUnit → Bool
  | .cluster d' _ => d' = d
  | _ => false

def lanesIn (l : Nat) : RUnit → Bool
  | .lane l' _ => l' = l
  | _ => false

def inStack (st : Nat) : RUnit → Bool
  | .dramRow st' _ _ _ => st' = st
  | .dramBank st' _ _ => st' = st
  | _ => false

def framesIn (b : Nat) : RUnit → Bool
  | .cremaFrame b' _ => b' = b
  | _ => false

/-- The units that share a unit's spares, before it. -/
def spareGroup : RUnit → RUnit → Bool
  | .dramRow st ch b _ => rowsIn st ch b
  | .dramBank st ch _ => banksIn st ch
  | .core c => coresIn (dieOf c) (clusterOf c)
  | .cluster d _ => clustersIn d
  | .lane l _ => lanesIn l
  | _ => fun _ => false

/-- The number of spares a unit's kind has (R7, R295). -/
def sparesOf : RUnit → Nat
  | .dramRow .. => 64
  | .dramBank .. => 2
  | .core _ => 4
  | .cluster .. => 4
  | .lane l _ => Config.spareLanes l
  | _ => 1

/-- The next larger unit, retired when no spare is left (R295). -/
def larger : RUnit → RUnit
  | .dramRow st ch b _ => .dramBank st ch b
  | .dramBank st _ _ => .dramStack st
  | .core c => .cluster (dieOf c) (clusterOf c)
  | .cluster d _ => .die d
  | .lane l _ => .link l
  | u => u

/-- The unit that is retired for a lasting one (R295). -/
def State.toRetire (s : State) : Nat → RUnit → RUnit
  | 0, u => u
  | fuel + 1, u => if sparesOf u ≤ s.countRetired (spareGroup u) then s.toRetire fuel (larger u) else u

/-- A unit of a virtual die. -/
def unitOnDie (d : Nat) : RUnit → Bool
  | .core c => dieOf c = d
  | .cluster e _ | .router e _ | .matrixEngine e _ | .copyUnit e _ | .sramTier e _ => e = d
  | .die e => e = d
  | _ => false

/-- Units inside a retired one that no longer count by themselves (log 60). -/
def inside : RUnit → RUnit → Bool
  | .dramBank st ch b => rowsIn st ch b
  | .dramStack st => inStack st
  | .cremaBank b => framesIn b
  | .link l => lanesIn l
  | .cluster d c => coresIn d c
  | .die d => fun w => unitOnDie d w && w ≠ .die d
  | _ => fun _ => false

/-! ## Retirement -/

/-- The contexts that hold a core of a unit. -/
def State.holders (s : State) (u : RUnit) : List Nat :=
  (s.cores.filterMap fun p => if unitCovers u p.1 then p.2.ctx else none).dedup

/-- TVAL of the record of a fenced unit: its coordinate in the SLOTID layout (R296). -/
def unitCoord : RUnit → Word
  | .core c => BitVec.ofNat 64 (coordOf c)
  | .cluster d c => BitVec.ofNat 64 (coordOf (coreAt d c 0))
  | .die d => BitVec.ofNat 64 (coordOf (coreAt d 0 0))
  | _ => 0

/-- Contexts receive a record with source 7 and are descheduled (R296). -/
def State.reportUnit (s : State) (u : RUnit) : List Nat → State
  | [] => s
  | n :: rest =>
    (s.queueFault n { cause := cUNCORR, source := 7, tval := unitCoord u, slotid := 0, launchid := 0, extra := 0, va := 0 }).reportUnit u rest

/-- A row of the place is held and lies in the unit: it is dropped at the next resume of its context (R214, R295). -/
def Hold.loseRow (h : Hold) (u : RUnit) : Hold :=
  match h.row with | some (_, pa) => if holdsRow u pa then { h with retired := true } else h | none => h

def Ctx.loseRows (c : Ctx) (u : RUnit) : Ctx :=
  { c with holds := c.holds.map fun p => (p.1, p.2.loseRow u), savedRows := c.savedRows.map fun p => (p.1, p.2.loseRow u) }

/-- The traffic of a failed hub link goes round by a live neighbour, with a record of EVENT 6 (R299, R305). -/
def State.reroute (s : State) (link : Nat) : State :=
  let t := s.goRound link
  if t.repair.rerouted.any fun p => p.1 = link then t.unitRecord 6 (.link link) 0 0 (t.eventsIn (.link link)) else t

/-- The failed hub links whose traffic a link carries. -/
def Repair.carriedBy (r : Repair) (link : Nat) : List Nat := (r.rerouted.filter fun p => p.2 = link).map (·.1)

/-- The unit is fenced, and with it every unit inside it (R296). -/
def State.fence (s : State) (u : RUnit) : State :=
  { s with repair := { s.repair with fenced := (s.repair.fenced.filter fun w => !inside u w) ++ [u] } }

/-- A die link has failed. The traffic of a compute die's hub link goes round by a neighbour, and traffic that it carried by another; so does
traffic that went over a ring link; what waits at it goes back (R305). -/
def State.linkFails (s : State) (l : Nat) : State :=
  let s := { s with repair := { s.repair with links := s.repair.links ++ [l] } }
  let moved := if l ≤ 8 then s.repair.carriedBy l else s.repair.over l
  let s := moved.foldl State.reroute s
  let s := if 1 ≤ l && l ≤ 8 then s.reroute l else s
  if moved = [] then s else s.returnWaiting l

/-- What retiring a unit does beside its record (R295, R296, R298, R305, R306). -/
def State.retireEffect (s : State) (u : RUnit) (count : Nat) : State :=
  match u with
  | .core _ | .cluster .. => (s.fence u).reportUnit u (s.holders u)
  | .die d =>
    let s := (s.fence u).reportUnit u (s.holders u)
    (s.repair.carriedBy (s.portOf d)).foldl State.reroute s
  | .controlCore _ => s.fence u
  | .dramStack _ =>
    let s := { s with repair := { s.repair with lostMaps := (s.repair.lostMaps ++ s.allLost).dedup } }
    s.unitRecord 5 u 0 0 count
  | .dramRow .. | .dramBank .. =>
    { s with ctxs := s.ctxs.map fun p => (p.1, p.2.loseRows u),
             repair := { s.repair with copying := (s.repair.copying.filter fun p => p.2 = s.time) ++ [(u, s.time)] } }
  | .link l => s.linkFails l
  | .wavelength p _ _ => { s with fab := { s.fab with waves := if h : p < 4 then s.fab.waves.set p (s.fab.waves[p] - 1) h else s.fab.waves } }
  | _ => s

/-- Firmware rewrites the entry of a die that it retires (R311). -/
def State.retireEntry (s : State) (u : RUnit) : State :=
  match u with
  | .die d => s.writeEntry (s.portOf d)
  | .dramStack st => s.writeEntry (9 + st)
  | _ => s

/-- SERVICE becomes 1, with its MSI-X vector the first time (R298, R313). -/
def State.setService (s : State) : State :=
  if s.repair.service then s
  else { s with repair := { s.repair with service := true }, host := { s.host with msi := s.host.msi ++ [1] } }

/-- A spare stands in at once for a row, a bank or a lane (R295). -/
def sparedAtOnce : RUnit → Bool
  | .dramRow .. | .dramBank .. | .lane .. => true
  | _ => false

/-- Nothing replaces a retired unit of the kind (R295). -/
def neverReplaced (u : RUnit) : Bool := !sparedAtOnce u && !spareGroup u u

/-- The unit, or one that it is part of, is retired already and nothing replaces it. -/
def State.gone (s : State) (u : RUnit) : Bool :=
  (s.repair.fenced.any fun w => w = u || inside w u) || s.repair.retired.any fun w => neverReplaced w && (w = u || inside w u)

/-- A lasting unit is retired: the smallest unit that still has a spare, or has none in the table (R295). -/
def State.retireUnit (s : State) (u : RUnit) (count : Nat) : State :=
  let v := s.toRetire 3 u
  if s.gone v then s
  else
  let spare := s.countRetired (spareGroup v)
  let s := s.setService
  let s := { s with repair := { s.repair with retired := (s.repair.retired.filter fun w => !inside v w) ++ [v] } }
  let s := (s.unitRecord 3 v 0 (if sparedAtOnce v then spare else 0) count).retireEffect v count
  let s := if sparedAtOnce v then s.unitRecord 4 v 0 spare count else s
  s.retireEntry v

/-! ## Error events (R293, R297) -/

/-- A resource becomes lasting, by count (event 1) or by an uncorrectable event (2), and the smallest unit that contains it is retired (R293,
R295); what stands in for it starts with no events. -/
def State.lasting (s : State) (event : Nat) (u : RUnit) (cause n : Nat) : State :=
  if s.gone (unitOf u) then s
  else
    let s := (s.unitRecord event u cause 0 n).retireUnit (unitOf u) n
    if s.gone (unitOf u) then s else { s with repair := s.repair.setTimes u [] }

/-- A corrected event: kept with the last 16, and lasting if the oldest lies within W of it (R293). -/
def State.countError (s : State) (u : RUnit) : State :=
  let ts := s.repair.timesOf u ++ [s.time]
  let ts := ts.drop (ts.length - 16)
  let s := { s with repair := s.repair.setTimes u ts }
  if ts.length = 16 && s.time - ts.headD 0 < s.repair.window then
    let n := (ts.filter fun t => s.time - t < s.repair.window).length
    s.lasting 1 u 0 n
  else s

/-- CORRECTED_ERROR (R293). -/
def execCorrectedError (u : RUnit) (s : State) : Out := .next (s.countError u)

/-- An uncorrectable event: a word of memory is poisoned, its tag kept, and the resource is lasting at once (R293, R297). -/
def State.uncorrectable (s : State) (u : RUnit) (word : Option Nat) : State :=
  let s := match word with | some w => { s with poison := mset false s.poison w true } | none => s
  s.lasting 2 u cUNCORR.toNat (s.eventsIn u)

/-- UNCORRECTABLE_ERROR (R293, R297). -/
def execUncorrectableError (u : RUnit) (word : Option Nat) (s : State) : Out := .next (s.uncorrectable u word)

/-! ## Rerouting (R305) -/

/-- LINK_REROUTE: traffic of a die whose hub link has failed goes round as soon as a neighbour can take it (R305); the hub link has the number
of the die's port. -/
def execLinkReroute (die : Nat) (s : State) : Out :=
  .next (
    let link := s.portOf die
    if die < 8 && s.repair.links.contains link && !(s.repair.rerouted.any fun p => p.1 = link) then s.reroute link else s)

end Sys2Proof.Machine
end

