-- ==== Sys2Proof/Machine/Jobs.lean ====
section
/-!
DEFINITION. The steps of jobs (R169 to R173, R189 to R195, R301): start, one unit of progress, completion, a stop at a fault and its
report, the start and end of remaps.
-/

namespace Sys2Proof.Machine

/-! ## PSCRUB (R301) -/

/-- The core whose scratchpad holds a byte. -/
def padCore (key : Nat) : Nat := (key - 2 ^ 40) / 65536

/-- The resource of a byte: its DRAM row, or the SRAM tier of the cluster whose scratchpad holds it (R293, R295). -/
def resourceOf (key : Nat) : RUnit :=
  if key < 2 ^ 40 then rowUnit key else .sramTier (dieOf (padCore key)) (clusterOf (padCore key))

/-- n corrected events of a resource. -/
def State.countErrors (s : State) (u : RUnit) : Nat → State
  | 0 => s
  | n + 1 => (s.countError u).countErrors u n

/-- What the check of one copy of a line finds: each corrected error counts for the copy's resource, each uncorrectable one is recorded and
leaves its word of the line poisoned. How many there are, and in which words, is a free value (R301; log 49). -/
def State.scrubCopy (s : State) (u : RUnit) (keys : List Nat) : Bool × State :=
  let (v, s) := s.draw
  let n := (v.extractLsb' 0 5).toNat
  let bad := ((wordsOf keys).zip (List.range 32)).filter fun p => v.getLsbD (32 + p.2)
  (n ≠ 0 || bad ≠ [], bad.foldl (fun s p => s.uncorrectable u (some p.1)) (s.countErrors u n))

/-- The frame of the Crema that holds a copy of the line: its number in the bank is a free value (log 49). -/
def State.cremaFrame (s : State) (key : Nat) : Option Nat :=
  let line := key % 2 ^ 40 / 128
  let b := (Config.homeBank line).toNat
  let ways := mget [] (mget ⟨[], 0⟩ s.crema.banks b).sets (Config.cremaSet line).toNat
  if key < 2 ^ 40 && ways.contains line then some b else none

/-- The bank of a row. -/
def bankUnit : RUnit → RUnit
  | .dramRow st ch b _ => .dramBank st ch b
  | u => u

/-- The copies of a line beside that of its own resource: the buffer of a held row, which belongs to its bank, or the Crema's frame (R212,
R301; log 49). -/
def State.otherCopy (s : State) (key : Nat) : Option RUnit × State :=
  if key < 2 ^ 40 && s.rowHeld key then (some (bankUnit (rowUnit key)), s)
  else match s.cremaFrame key with
    | none => (none, s)
    | some b => let (v, s) := s.draw; (some (.cremaFrame b (v.toNat % 16384)), s)

/-- Scrubs one line, every copy of it: its bit of the bitmap (R301). -/
def State.scrubLine (s : State) (keys : List Nat) : Bool × State :=
  let bad := s.isPoisoned keys
  let (a, s) := s.scrubCopy (resourceOf (keys.headD 0)) keys
  match s.otherCopy (keys.headD 0) with
  | (none, s) => (bad || a, s)
  | (some u, s) =>
    let (c, s) := s.scrubCopy u keys
    (bad || a || c, s)

/-- Scrubs lines in order: the word of their bits from bit i. -/
def State.scrubLines (s : State) (i : Nat) : List (List Nat) → Nat × State
  | [] => (0, s)
  | l :: rest =>
    let (b, s) := s.scrubLine l
    let (w, s) := s.scrubLines (i + 1) rest
    (b2n b * 2 ^ i + w, s)

/-- Lines of a PSCRUB job. -/
def Job.lines (j : Job) : Nat := nelemOf j.b

/-- A group of 32 lines and its word of the bitmap (R301, R302). -/
def State.scrubUnit (s : State) (j : Job) : Tried :=
  let i0 := 32 * j.progress
  let n := min 32 (j.lines - i0)
  match traverse (fun i =>
      let ea := (addr56 j.a + 128 * i) % 2 ^ 56
      match s.jobLoc j ea 128 permR with
      | .error e => .error e
      | .ok l => .ok l.keys) ((List.range n).map (i0 + ·)) with
  | .error e => .fault e.1 e.2
  | .ok ks =>
    let da := laneAddr (j.kreg 12) (4 * j.progress : Nat)
    match s.jobWritable j da 4 with
    | some e => .fault e.1 e.2
    | none =>
      let (w, s) := s.scrubLines 0 ks
      match s.jobWrite j da (toBytes 4 w) with
      | .error e => .fault e.1 e.2
      | .ok (s, j) => .did s { j with progress := j.progress + 1 }

/-! ## Units -/

/-- The units of a job's own work (R183 to R185, R194, R198, R165, R301, R286). -/
def Job.total (j : Job) : Nat :=
  match j.opc.toNat with
  | 4 => ((j.kreg 6).toNat + perStep (ptrFmt (j.kreg 0)) - 1) / perStep (ptrFmt (j.kreg 0))
  | 5 | 6 | 10 => j.writeUnits
  | 9 | 11 => (j.kreg 4).toNat
  | 13 => 256
  | 0x80 | 0x81 | 0x82 | 0x83 => rowsOf j.b * nelemOf j.b
  | 0x85 => (j.lines + 31) / 32
  | 0x86 => j.list.length / 4
  | _ => 0

/-- One unit of a job's own work. -/
def State.jobUnit (s : State) (j : Job) : Tried :=
  if j.st ≠ .running || j.total ≤ j.progress then .wait
  else match j.opc.toNat with
    | 4 => s.mmaUnit j
    | 5 => s.applyUnit j
    | 6 => s.diagUnit j
    | 9 => s.accldUnit j
    | 10 => s.accstUnit j
    | 11 => s.acczUnit j
    | 13 => s.ctloadUnit j
    | 0x80 | 0x81 => s.copyUnit j
    | 0x82 => s.fillUnit j
    | 0x83 => s.tagUnit j
    | 0x85 => s.scrubUnit j
    | 0x86 => s.pcollUnit j
    | _ => .wait

/-- A job runs on a pour engine: POUR jobs but LCOPY, and remaps (R169). -/
def Job.pours (j : Job) : Bool := (0x81 ≤ j.opc.toNat && j.opc.toNat ≤ 0x86) || j.remaps ≠ []

/-- The pour engines that have not been retired (R3, R295). -/
def State.livePours (s : State) : List Nat := (List.range 32).filter fun n => !s.repair.retired.contains (.pour n)

/-- The pour engine that a job runs on has been retired (R295). -/
def State.pourLost (s : State) (j : Job) : Bool :=
  match j.pour with | some n => s.repair.retired.contains (.pour n) | none => false

/-- A job that pours takes a live pour engine; which one is a free value (R169, R295; log 50). None lives, and it waits. -/
def State.onPour (s : State) (j : Job) : Option (State × Job) :=
  if !j.pours || j.pour.isSome then some (s, j)
  else
    let (v, t) := s.draw
    (s.livePours[v.toNat % s.livePours.length]?).map fun n => (t, { j with pour := some n })

/-- An earlier job of the slot that a job waits behind: one of the matrix engine, and for a matrix-engine job any that is stopped (R171, R189,
R195). -/
def State.behindMatrix (s : State) (oct : Nat) (j : Job) : Bool :=
  (s.before oct j).any fun i => i.owner = j.owner && (i.matrix || (j.matrix && i.st = .stopped))

/-- A job that is stopped, or waits behind a stopped job of its slot (R171, R195). -/
def State.held (s : State) (oct : Nat) (i : Job) : Bool :=
  i.st = .stopped || (s.before oct i).any fun h => h.owner = i.owner && h.st = .stopped

/-- A job of another slot has still to take effect on accumulator memory first: an earlier one, or one that passed this job while it was
stopped and runs (R171). -/
def State.behindAcc (s : State) (oct : Nat) (j : Job) : Bool :=
  j.usesAcc && (((s.before oct j).any fun i => i.usesAcc && i.owner ≠ j.owner && !s.held oct i) ||
    (s.behind oct j).any fun i => i.usesAcc && i.owner ≠ j.owner && i.st = .running)

/-- The remap at the head of a job's list may start (R189, R190): a PCOLL's when its entry is reached. -/
def State.remapMayStart (s : State) (oct : Nat) (j : Job) : Bool :=
  j.st ≠ .stopped && s.jobLive j && !s.behindMatrix oct j && (j.opc ≠ 0x86 || (j.st = .running && j.atRemap))

/-- Starts a remap: every word of its target is set empty (R189, R190). -/
def State.beginRemap (s : State) (j : Job) (r : Remap) (rest : List Remap) : Tried :=
  match s.tagPass j r with
  | (_, some e) => .fault e.1 e.2
  | (ws, none) => .did (s.retag ws false) { j with remaps := { r with started := true } :: rest, st := if j.isRemap then .running else j.st }

/-- The next unit of a job, its remaps first. -/
def State.attempt (s : State) (oct : Nat) (j : Job) : Tried :=
  if !s.jobLive j || j.st = .stopped then .wait
  else if s.pourLost j then j.settledStop (.fault cUNCORR 0)
  else match j.remaps with
    | r :: rest =>
      if r.started then (if r.complete then .wait else if r.inplace then s.cycleUnit j r rest else s.shadowUnit j r rest)
      else if s.remapMayStart oct j then s.beginRemap j r rest
      else s.jobUnit j
    | [] => s.jobUnit j

/-- The step of a job's attempt would start a remap. -/
def State.startsRemap (s : State) (oct : Nat) (j : Job) : Bool :=
  match j.remaps with
  | r :: _ => !r.started && s.remapMayStart oct j
  | [] => false

/-- A step of a job, if it is in the queue. -/
def State.onJob (s : State) (oct ctx : Nat) (id : BitVec 16) (f : Job → State) : Out :=
  .next (match s.job oct ctx id with | some j => f j | none => s)

/-! ## The steps -/

/-- A queued job may start (R171). -/
def State.jobMayStart (s : State) (oct : Nat) (j : Job) : Bool :=
  j.st = .queued && (j.remaps = [] || j.opc = 0x86) && s.jobLive j && !(j.matrix && s.behindMatrix oct j) && !s.behindAcc oct j

/-- JOB_START (R171). -/
def execJobStart (oct ctx : Nat) (id : BitVec 16) (s : State) : Out :=
  s.onJob oct ctx id fun j =>
    if s.jobMayStart oct j then
      match s.onPour j with
      | some (t, j) => t.setJob oct { j with st := .running }
      | none => s
    else s

/-- A write of the job is in the slices of its die (R154). -/
def SliceStore.ofJob (j : Job) (e : SliceStore) : Bool := e.job = some (j.ctx, j.id) && octetOf e.sl.core = j.oct

/-- The job has been served where it waited at a bank (R218, R223). -/
def State.leaveBanks (s : State) (u : BankUser) : State :=
  if s.carafe.waiting = [] then s
  else { s with carafe := { s.carafe with waiting := s.carafe.waiting.filter fun w => w.user ≠ u } }

/-- The next unit of a job. One that meets a near-bank unit at work joins what waits at the bank (R218, R223); at one that meets a fault, what the
job holds of words written in part is written, and it stops next (R195). -/
def State.jobTurn (s : State) (oct : Nat) (j : Job) : State :=
  let u : BankUser := .job oct j.ctx j.id
  match s.onPour j with
  | none => s
  | some (t, j) =>
    match t.attempt oct j with
    | .did s' j' => (s'.setJob oct j').leaveBanks u
    | .wait => s
    | .fault c n =>
      if c = 0 then (if n = 0 then s else s.joinBank u (n - 1))
      else match s.flush j with | some (s', j') => s'.setJob oct j' | none => s

/-- JOB_PROGRESS: a write of the job that the slices of its die hold reaches its point of coherence (R154), or its next unit is done; one that
meets a fault has no effect, and stops the job (R183, R195). -/
def execJobProgress (oct ctx : Nat) (id : BitVec 16) (s : State) : Out :=
  s.onJob oct ctx id fun j =>
    match nextDrain (SliceStore.ofJob j) [] s.slices with
    | some e => s.drain e
    | none => if s.startsRemap oct j || j.st ≠ .running && j.remaps = [] then s else s.jobTurn oct j

/-- C of an MMA with k = 0: the zeroed accumulator without ACCUM (R183). -/
def State.zeroTile (s : State) (j : Job) : State :=
  if j.opc = 4 && j.total = 0 && !(j.kreg 8).getLsbD 1 then
    let n := (j.kreg 4).toNat * (j.kreg 5).toNat * (if ptrFmt (j.kreg 0) = 11 then 2 else 1)
    s.setAcc j ((List.range n).map fun i => ((j.kreg 7).toNat / 4 + i, 0))
  else s

/-- JOB_COMPLETE: every write has reached its point of coherence (R172). -/
def execJobComplete (oct ctx : Nat) (id : BitVec 16) (s : State) : Out :=
  s.onJob oct ctx id fun j =>
    if j.st = .running && s.jobLive j && j.remaps = [] && j.ask.isNone && j.total ≤ j.progress && !s.slices.any (SliceStore.ofJob j) then
      (s.zeroTile j).finishJob oct j
    else s

/-- TVAL of ENGFAULT (R195). -/
def engTval (cause : BitVec 8) (id : BitVec 16) : Word := BitVec.ofNat 64 (cause.toNat * 65536 + id.toNat)

/-- A block that failed is sent again once the job resumes (R287). -/
def Send.afterStop (b : Send) : Send := match b.st with | .answered c => if c = 0 then b else { b with st := .again } | _ => b

/-- The wait is that of a job. -/
def WaitKind.ofJob : WaitKind → Bool
  | .job .. => true
  | _ => false

/-- The wait of a job on a tag of this package ends. -/
def State.withdrawJob (s : State) (j : Job) : State :=
  match j.ask with
  | some a => { s with waiters := s.waiters.filter fun w => !(w.kind.ofJob && w.req = a.num) }
  | none => s

/-- A job stops at its boundary: its slot learns of it (R195, R197). -/
def State.stopJob (s : State) (oct : Nat) (j : Job) (cause : BitVec 8) (va : Nat) (inRemap : Bool) : State :=
  let j' := { j with st := .stopped, cause := cause, fault := BitVec.ofNat 64 va, ask := none, got := [], pour := none, inRemap := inRemap,
                     sends := j.sends.map Send.afterStop }
  let s := (s.withdrawJob j).setJob oct j'
  { s.modSlot j.owner fun x =>
      { x.setK 9 (BitVec.ofNat 64 j'.shown) with events := x.events ++ [(s.nextReq, engTval cause j.id)] }.wake with nextReq := s.nextReq + 1 }

/-- The tag pass of a remap that a fault ends has set empty the words before it (R193). -/
def State.endTagPass (s : State) (oct : Nat) (j : Job) : State :=
  match j.remaps with
  | r :: _ => if s.startsRemap oct j && !s.pourLost j then s.retag (s.tagPass j r).1 false else s
  | [] => s

/-- A stop of the job lies in a remap (R197). -/
def State.stopsInRemap (s : State) (oct : Nat) (j : Job) : Bool :=
  match j.remaps with | r :: _ => r.started || s.startsRemap oct j | [] => false

/-- What the job has written is where its writes go: nothing of it stands in the slices, and nothing that it holds can be written (R195). -/
def State.allOut (s : State) (j : Job) : Bool := !s.slices.any (SliceStore.ofJob j) && (s.flush j).isNone

/-- JOB_STOP (R195): at the fault that its next unit meets, or when the pour engine it runs on has been retired (R295), once what it did before
is written. -/
def execJobStop (oct ctx : Nat) (id : BitVec 16) (cause : BitVec 8) (s : State) : Out :=
  s.onJob oct ctx id fun j =>
    match s.attempt oct j with
    | .fault c va =>
      if c = cause && c ≠ 0 && s.allOut j then (s.endTagPass oct j).stopJob oct j c va (s.stopsInRemap oct j) else s
    | _ => s

/-- REMAP_START (R189, R190). -/
def execRemapStart (oct ctx : Nat) (id : BitVec 16) (s : State) : Out :=
  s.onJob oct ctx id fun j => if s.startsRemap oct j then s.jobTurn oct j else s

/-- The live descriptor after its remap (R189, R190). -/
def remapDone (d : BitVec 512) (inplace : Bool) : BitVec 512 :=
  if inplace then dput (dput d 126 2 0) 384 40 0
  else dput (dput (dput d 0 55 (dShadow d)) 64 55 (dbits d 0 55)) 126 2 0

/-- REMAP_COMPLETE (R189, R190). -/
def execRemapComplete (oct ctx : Nat) (id : BitVec 16) (s : State) : Out :=
  s.onJob oct ctx id fun j =>
    match j.remaps with
    | r :: rest =>
      if r.complete && j.st ≠ .stopped && s.jobLive j then
        let j' := { j with remaps := rest }
        (s.setJob oct { j' with pour := if j'.pours then j.pour else none }).modSlot j.owner fun x => x.setDesc r.desc (remapDone (x.desc r.desc) r.inplace)
      else s
    | [] => s

/-- ENGFAULT (R195): the oldest report of a slot, at its next boundary and in its turn; a fault record while the slot can take no upcall. -/
def execEngfault (sl : SlotId) (s : State) : Out :=
  .next (
    let x := s.slot sl
    match x.events with
    | [] => s
    | (_, t) :: rest =>
      if !x.atBoundary || x.trap.isSome then s
      else
        let u := s.modSlot sl fun y => { y with events := rest }
        if isControl sl.core then u.kernelTrap sl ⟨cENGFAULT, t, x.pc, 0⟩
        else if x.act.isNone || !x.upvec.getLsbD 0 then
          let va := match s.job (octetOf sl.core) (s.ctxOf sl) (t.setWidth 16) with | some j => j.fault | none => 0
          u.queueFault (s.ctxOf sl)
            { cause := cENGFAULT, source := 4, tval := t, slotid := s.slotid sl, launchid := s.launchidOf sl,
              extra := BitVec.ofNat 64 (t.toNat % 65536), va := va }
        else if x.engFirst then u.takeTrap sl cENGFAULT t
        else s)

end Sys2Proof.Machine
end

