-- ==== Sys2Proof/Machine/Brew.lean ====
section
/-!
DEFINITION. Launch descriptors (R225, R227), the brew table (R235 to R237) with the BREW family (R238 to R243), the slot table as
PSLOT loads and stores it (R270, R273, R288) and PQ (R289); BREW_EVALUATE.
-/

namespace Sys2Proof.Machine

/-! ## Descriptors (R225, R227) -/

/-- A field of a doubleword. -/
def fieldOf (v lo w : Nat) : Nat := v / 2 ^ lo % 2 ^ w

/-- The 16 doublewords of a descriptor break R227, the HBOUND check apart. -/
def descBad (ws : List Word) : Bool :=
  let w (i : Nat) : Nat := (ws.getD i 0).toNat
  fieldOf (w 0) 48 16 ≠ 0 || fieldOf (w 0) 12 1 ≠ 0 || fieldOf (w 0) 2 6 ≠ 0 || fieldOf (w 0) 32 16 = 0
    || fieldOf (w 0) 24 8 = 0 || 128 < fieldOf (w 0) 24 8 || 12 < fieldOf (w 0) 8 4
    || w 1 % 4 ≠ 0 || w 2 % 8 ≠ 0 || fieldOf (w 3) 57 7 ≠ 0 || fieldOf (w 3) 41 7 ≠ 0 || fieldOf (w 4) 32 32 ≠ 0
    || w 5 ≠ 0 || w 6 ≠ 0 || w 7 ≠ 0 || w 14 ≠ 0 || w 15 ≠ 0

/-- The fields of a descriptor. -/
def descOf (ws : List Word) : Desc :=
  let w (i : Nat) : Nat := (ws.getD i 0).toNat
  { ngrp := fieldOf (w 0) 32 16, gsize := fieldOf (w 0) 24 8, stage := BitVec.ofNat 8 (fieldOf (w 0) 16 8), staged := bit (w 0) 15,
    octalign := bit (w 0) 14, xm := bit (w 0) 13, argw := fieldOf (w 0) 8 4, prio := BitVec.ofNat 2 (w 0), entry := ws.getD 1 0,
    pmap := ws.getD 2 0, deps := ws.getD 3 0, launchid := BitVec.ofNat 64 (w 4 % 2 ^ 32),
    args := ((List.range 6).flatMap fun i => [BitVec.ofNat 32 (w (8 + i)), BitVec.ofNat 32 (w (8 + i) / 2 ^ 32)]) }

/-- A launch starts its life (R229). -/
def State.addLaunch (s : State) (ctx : Nat) (queue : Option Nat) (d : Desc) (brew : Option (Nat × BitVec 2 × BitVec 12 × Word)) : State :=
  let l : Launch :=
    { num := s.sched.nextLaunch, ctx := ctx, queue := queue, desc := d, st := if d.d0n = 0 && d.d1n = 0 then .ready else .waitdep,
      since := s.time, order := s.nextReq, placed := 0, brew := brew }
  { s with sched := { s.sched with launches := s.sched.launches ++ [l], nextLaunch := l.num + 1 }, nextReq := s.nextReq + 1 }

/-! ## The brew table (R235) -/

/-- The owner of the table (R235, R245). -/
def State.brewOwner (s : State) : Option Nat := (s.ctxs.find? fun c => c.2.brewown && c.2.st ≠ .free).map (·.1)

def Brew.entry (b : Brew) (i : Nat) : Nat := (mget 0 b.entries i).toNat
def Brew.chan (b : Brew) (c : Nat) : Nat := (mget 0 b.chans c).toNat
def Brew.stashAt (b : Brew) (i : Nat) : Stash := mget Stash.init b.stash i
def Brew.stateOf (b : Brew) (i : Nat) : BitVec 2 := mget 0 b.states i

def eKind (e : Nat) : Nat := e % 4
def eStage (e : Nat) : Nat := fieldOf e 8 8
def eMb (e : Nat) : Nat := fieldOf e 16 12
def eTmpl (e : Nat) : Nat := fieldOf e 28 4
def eStash (e : Nat) : Nat := fieldOf e 32 6
def eStashV (e : Nat) : Bool := bit e 38
def eUpch (e : Nat) : Nat := fieldOf e 40 6
def eUpv (e : Nat) : Bool := bit e 46
def eDnch (e : Nat) : Nat := fieldOf e 48 6
def eDnv (e : Nat) : Bool := bit e 54
def eThresh (e : Nat) : Nat := fieldOf e 56 8

/-- The entries of the window. -/
def Brew.window (b : Brew) : List Nat := (List.range 256).filter fun i => b.first ≤ i && i ≤ b.last

/-- The window is armed and not done. -/
def Brew.live (b : Brew) : Bool := b.armed && !b.done

/-- The owner is out (R236). -/
def State.brewFrozen (s : State) : Bool := match s.brewOwner with | some n => (s.ctx n).st ≠ .running | none => true

/-- The launches started from the window and not retired. -/
def State.brewLaunches (s : State) : List Launch :=
  s.sched.launches.filter fun l => match l.brew with | some (e, _) => s.brew.first ≤ e && e ≤ s.brew.last | none => false

/-- Some group of the window is placed and has not exited (R236). -/
def State.brewBusy (s : State) : Bool :=
  s.sched.groups.any fun g => !g.exited && s.brewLaunches.any fun l => l.num = g.launch

/-- SERIAL holds the head back (R236). -/
def Brew.serialHeld (b : Brew) : Bool := b.serial && b.window.any fun i => b.stateOf i = 1

def Brew.upOk (b : Brew) (e : Nat) : Bool := !eUpv e || 1 ≤ b.chan (eUpch e)
def Brew.downOk (b : Brew) (e : Nat) : Bool := !eDnv e || eThresh e ≤ b.chan (eDnch e)
def Brew.stashOk (b : Brew) (e : Nat) : Bool := eKind e ≠ 0 || !eStashV e || (b.stashAt (eStash e)).held.isNone

/-- The cause under which this cy counts a bubble: 0 none, 1 upstream, 2 downstream, 3 resources (R237). -/
def State.bubbleCause (s : State) : Nat :=
  let b := s.brew
  let e := b.entry b.head
  if !b.live || s.brewFrozen || s.brewBusy then 0
  else if s.brewLaunches.any fun l => l.placed < l.desc.ngrp then 3
  else if b.last < b.head then 0
  else if !b.upOk e then 1
  else if !b.downOk e then 2
  else if !b.stashOk e || b.serialHeld then 3 else 0

/-- Counts a bubble cycle (R237). -/
def Brew.count (b : Brew) (cause : Nat) : Brew :=
  { b with cause := BitVec.ofNat 2 cause, up := if cause = 1 then b.up + 1 else b.up, down := if cause = 2 then b.down + 1 else b.down,
           res := if cause = 3 then b.res + 1 else b.res }

def Brew.lower (b : Brew) (ch : Nat) : Brew := { b with chans := mset 0 b.chans ch (mget 0 b.chans ch - 1) }

/-- The head launches (R236). -/
def State.brewLaunch (s : State) (ctx : Nat) : State :=
  let b := s.brew
  let e := b.entry b.head
  let d := descOf (mget [] b.templates (eTmpl e))
  let d := { d with staged := true, stage := BitVec.ofNat 8 (eStage e) }
  let addr : Word := if eStashV e then (b.stashAt (eStash e)).addr else 0
  let mb := BitVec.ofNat 12 (eMb e)
  let b := if eUpv e then b.lower (eUpch e) else b
  let b := if eDnv e then b.lower (eDnch e) else b
  let b := if eKind e = 0 && eStashV e then
      { b with stash := mset Stash.init b.stash (eStash e) { b.stashAt (eStash e) with held := some mb } } else b
  let b := { b with states := mset 0 b.states b.head 1, head := b.head + 1 }
  { s with brew := b }.addLaunch ctx none d (some (s.brew.head, BitVec.ofNat 2 (eKind e), mb, addr))

/-- One cy of the scheduler's evaluation (R236, R237). -/
def State.brewCycle (s : State) : State :=
  let b := s.brew
  let e := b.entry b.head
  let t := { s with brew := b.count s.bubbleCause }
  match s.brewOwner with
  | some n =>
    if b.live && !s.brewFrozen && b.head ≤ b.last && !b.serialHeld && b.upOk e && b.downOk e && b.stashOk e then t.brewLaunch n
    else t
  | none => t

/-- BREW_EVALUATE (R236, R237). -/
def execBrewEvaluate (s : State) : Out := .next s.brewCycle

/-- n more bubble cycles under a cause. -/
def Brew.countMore (b : Brew) (cause n : Nat) : Brew :=
  { b with up := if cause = 1 then b.up + BitVec.ofNat 64 n else b.up, down := if cause = 2 then b.down + BitVec.ofNat 64 n else b.down,
           res := if cause = 3 then b.res + BitVec.ofNat 64 n else b.res }

/-- n cy of evaluation in which nothing else happens: once no entry launches, all that follow count alike. `fuel` bounds the launches. -/
def State.brewCycles (s : State) : Nat → Nat → State
  | 0, _ | _, 0 => s
  | fuel + 1, n + 1 =>
    let t := s.brewCycle
    if t.brew.head = s.brew.head then { t with brew := t.brew.countMore t.bubbleCause n } else t.brewCycles fuel n

/-! ## The BREW family (R238) -/

/-- The word of an instruction that the decoder gave. -/
def wordOf (i : Instr) : Word := ((encode i).getD 0).setWidth 64

/-- A BREW instruction of the table's owner (R238): its checks, then a wait for room in OUTST, then k. -/
def brewForm (s : State) (i : Instr) (d a b : Reg) (x y : Bool) (fault : Option (BitVec 8 × Word)) (wait : Bool) (k : Out) : Out :=
  ecForm s d a b x y (
    if !s.ownsBrew (s.ctxOf s.cur) then s.trap cACCESS (wordOf i)
    else checked s fault (if wait || s.myCore.outstFull then s.stall else k))

/-- The image pointer of BRWLD and PSLOT (R239). -/
def imageFault (s : State) (ga : Word) : Option (BitVec 8 × Word) :=
  firstFault [ptrFault ga, failIf (ptrFmt ga ≠ 0) cFMTFAULT ga, failIf (addr56 ga % 8 ≠ 0) cMISALIGN ga, ownFault s ga]

/-- An entry is invalid (R239). -/
def entryBad (e : Nat) : Bool :=
  eKind e = 3 || bit e 55 || bit e 47 || bit e 39 || fieldOf e 2 6 ≠ 0 || (eDnv e && eThresh e = 0) || (!eDnv e && eThresh e ≠ 0)

/-- The items of an image: its doublewords, n to an item. -/
def itemsOf (n count : Nat) (ws : List Word) : List (List Word) := (List.range count).map fun i => (ws.drop (n * i)).take n

/-- A load meets an armed window, an item that it uses, or a HELD stash slot (R239). -/
def Brew.meets (b : Brew) (what first count : Nat) : Bool :=
  let inRange (i : Nat) : Bool := first ≤ i && i < first + count
  let used := b.window.map b.entry
  (b.live && (match what with
    | 0 => b.window.any inRange
    | 1 => used.any fun e => inRange (eTmpl e)
    | _ => used.any fun e => eStashV e && inRange (eStash e))) ||
  (what = 2 && (List.range count).any fun i => (b.stashAt (first + i)).held.isSome)

def itemBad (lo hi : Word) (what : Nat) (ws : List Word) : Bool :=
  match what with
  | 0 => entryBad (ws.headD 0).toNat
  | 1 =>
    let d := descOf ws
    descBad ws || d.d0n ≠ 0 || d.d1n ≠ 0 || d.entry.toNat < lo.toNat || hi.toNat < d.entry.toNat
  | _ => (ws.headD 0).toNat % 8 ≠ 0

/-- Loads items from a first number on. -/
def Brew.load (b : Brew) (what : Nat) : Nat → List (List Word) → Brew
  | _, [] => b
  | i, ws :: rest =>
    (match what with
      | 0 => { b with entries := mset 0 b.entries i (ws.headD 0) }
      | 1 => { b with templates := mput b.templates i ws }
      | _ => { b with stash := mput b.stash i { b.stashAt i with addr := ws.headD 0, loaded := true } }).load what (i + 1) rest

/-- WHAT, FIRST and COUNT of BRWLD's gb, and the doublewords of an item (R239). -/
def brwWhat (gb : Word) : Nat := (gb.extractLsb' 0 2).toNat
def brwFirst (gb : Word) : Nat := (gb.extractLsb' 8 8).toNat
def brwCount (gb : Word) : Nat := (gb.extractLsb' 16 9).toNat
def brwWords (gb : Word) : Nat := if brwWhat gb = 1 then 16 else 1

/-- BRWLD with its image at hand: the table after it, and gd (R239). -/
def State.loadBrew (s : State) (ctx : Nat) (gb : Word) (bs : List Byte) : State × Word :=
  let items := itemsOf (brwWords gb) (brwCount gb) (listWords bs)
  let c := s.ctx ctx
  if s.brew.meets (brwWhat gb) (brwFirst gb) (brwCount gb) then (s, 1)
  else match items.findIdx? (itemBad c.tbndlo c.tbndhi (brwWhat gb)) with
    | some i => (s, BitVec.ofNat 64 (2 + i * 256))
    | none => ({ s with brew := s.brew.load (brwWhat gb) (brwFirst gb) items }, 0)

/-- The first entry of a window that cannot run (R240). -/
def Brew.cannotRun (b : Brew) (first last stage : Nat) : Option Nat :=
  ((List.range 256).filter fun i => first ≤ i && i ≤ last).find? fun i =>
    let e := b.entry i
    eStage e ≠ stage || (mfind b.templates (eTmpl e)).isNone || (eStashV e && !(b.stashAt (eStash e)).loaded)

/-- Arms a window (R240): its entries are pending, every stash slot is FREE and no bubble is counted yet. -/
def Brew.arm (b : Brew) (first last : Nat) (stage : BitVec 8) (serial : Bool) : Brew :=
  { b with armed := true, done := false, serial := serial, stage := stage, first := first, last := last, head := first, up := 0,
           down := 0, res := 0, cause := 0, states := mclear b.states first (last + 1),
           stash := b.stash.map fun p => (p.1, { p.2 with held := none }) }

/-- Launches of an earlier window no longer count for the entries of a new one; they keep their argument block. -/
def State.detach (s : State) (first last : Nat) : State :=
  { s with sched := { s.sched with launches := s.sched.launches.map fun l =>
      match l.brew with
      | some (e, r) => if first ≤ e && e ≤ last then { l with brew := some (e + 256, r) } else l
      | none => l } }

/-- BRWARM and DISARM (R240): DISARM is gb[1]. -/
def armForm (i : Instr) (d a b : Reg) (x y : Bool) (s : State) : Out :=
  let ga := s.me.readG a
  let gb := s.me.readG b
  let first := (ga.extractLsb' 0 8).toNat
  let last := (ga.extractLsb' 8 8).toNat
  let stage := ga.extractLsb' 16 8
  brewForm s i d a b x y
    (firstFault [failIf (ga.extractLsb' 24 40 ≠ 0 || last < first) cACCESS ga, failIf (gb.extractLsb' 2 62 ≠ 0) cACCESS gb]) false
    (if gb.getLsbD 1 then { s with brew := { s.brew with armed := false } }.retireG d 0
     else if s.brew.live then s.retireG d 1
     else match s.brew.cannotRun first last stage.toNat with
      | some i => s.retireG d (BitVec.ofNat 64 (2 + i * 256))
      | none => { s.detach first last with brew := s.brew.arm first last stage (gb.getLsbD 0) }.retireG d 0)

/-- BRWARM (R240). -/
def execBrwarm (d a b : Reg) (x y : Bool) (s : State) : Out := armForm (.brwarm d a b x y) d a b x y s

/-- DISARM: BRWARM with gb[1] = 1 (R240); the two share their words (log 13). -/
def execDisarm (d a b : Reg) (x y : Bool) (s : State) : Out := armForm (.disarm d a b x y) d a b x y s

/-- The checks of BRWPOST (R241). -/
def postFault (s : State) (ga gb : Word) : Option (BitVec 8 × Word) :=
  let peer := ga.getLsbD 55
  let dep := ga.getLsbD 8
  firstFault
    [failIf (ga.extractLsb' 56 8 ≠ 0 || ga.extractLsb' 9 31 ≠ 0 || ga.extractLsb' 0 8 ≠ 0 || (!peer && ga.extractLsb' 40 15 ≠ 0)) cACCESS ga,
     failIf (gb.extractLsb' 32 32 ≠ 0 || gb.extractLsb' 8 8 ≠ 0) cACCESS gb,
     failIf (!dep && 63 < (gb.extractLsb' 0 8).toNat) cACCESS gb, failIf (dep && peer) cACCESS ga,
     failIf (!dep && !peer && !s.ownsBrew (s.ctxOf s.cur)) cACCESS ga,
     failIf (peer && ga.extractLsb' 40 15 = s.fab.devno) cACCESS ga]

/-- BRWPOST (R238, R241): gd := 0 at issue; the post counts in OUTST until its target has accepted it. -/
def execBrwpost (d a b : Reg) (x y : Bool) (s : State) : Out :=
  ecForm s d a b x y (
    let ga := s.me.readG a
    let gb := s.me.readG b
    let ch := gb.extractLsb' 0 8
    let count := gb.extractLsb' 16 16
    checked s (postFault s ga gb) (
      if !s.ordered 4 || s.myCore.outstFull then s.stall
      else if ga.getLsbD 55 then
        let n := s.nextReq
        let dev := (ga.extractLsb' 40 15).toNat
        let t := (s.addReq .post true true).modMe fun q => (q.writeG d 0).next
        .next (if t.fab.reaches dev then t.sendFrame dev t.cur n 0 (.post false ch count) else t.remoteFail t.cur n 0 5 dev)
      else
        let p : Post := ⟨s.cur, s.nextReq, s.ctxOf s.cur, ga.getLsbD 8, ch, count⟩
        let t := (s.addReq .post true false).modMe fun q => (q.writeG d 0).next
        .next { t with posts := t.posts ++ [p] }))

/-- BRWFREE (R242). -/
def execBrwfree (d a : Reg) (x : Bool) (s : State) : Out :=
  let ga := s.me.readG a
  let i := (ga.extractLsb' 0 6).toNat
  brewForm s (.brwfree d a x) d a 0 x false (failIf (ga.extractLsb' 6 58 ≠ 0) cACCESS ga) (!s.ordered 4)
    (if (s.brew.stashAt i).held.isSome then
      { s with brew := { s.brew with stash := mput s.brew.stash i { s.brew.stashAt i with held := none } } }.retireG d 0
    else s.retireG d 1)

/-- The status word of BRWQ (R243). -/
def State.brewStatus (s : State) : Word :=
  let b := s.brew
  let wst := if b.done then 2 else if !b.armed then 0 else if s.brewFrozen then 3 else 1
  BitVec.ofNat 64 (wst * 2 ^ 62 + b2n b.serial * 2 ^ 61 + b.cause.toNat * 2 ^ 56 + b.stage.toNat * 2 ^ 48 + b.first * 2 ^ 40
    + b.last * 2 ^ 32 + b.head % 256 * 2 ^ 24)

/-- BRWQ (R243). -/
def execBrwq (d a : Reg) (x : Bool) (s : State) : Out :=
  let ga := s.me.readG a
  let sel := (ga.extractLsb' 0 8).toNat
  let i := (ga.extractLsb' 8 8).toNat
  let b := s.brew
  brewForm s (.brwq d a x) d a 0 x false (failIf (6 < sel || ((sel = 4 || sel = 6) && 63 < i)) cACCESS ga) false
    (s.retireG d (match sel with
      | 0 => s.brewStatus
      | 1 => b.up
      | 2 => b.down
      | 3 => b.res
      | 4 => BitVec.ofNat 64 (b.chan i)
      | 5 => (b.stateOf i).setWidth 64
      | _ => match (b.stashAt i).held with | some m => BitVec.ofNat 64 (2 ^ 63 + m.toNat) | none => 0))

/-! ## PSLOT and PQ (R270, R273, R288, R289) -/

/-- A slot-table entry is invalid (R270). -/
def State.slotBad (s : State) (ws : List Word) : Bool :=
  let e : Word × Word := (ws.getD 0 0, ws.getD 1 0)
  let len := slotLen e
  len < 2000 || 100000 < len || slotGuard e < 500 || len < slotGuard e + 1000 ||
    [0, 1, 2, 3].any fun p => slotDest e p = some s.fab.devno.toNat

/-- A control pair is invalid, or would enable the table of a package without a number (R270, R310). -/
def State.ctrlBad (s : State) (c : Word) : Bool :=
  c.extractLsb' 9 55 ≠ 0 || c.getLsbD 7 || (c.extractLsb' 0 7).toNat = 0 || 64 < (c.extractLsb' 0 7).toNat ||
    (c.getLsbD 8 && s.fab.devno = 0x7FFF)

/-- Puts entries into the table. -/
def putSlots (t : Vector (Word × Word) 64) : List (Nat × Word × Word) → Vector (Word × Word) 64
  | [] => t
  | (i, a, b) :: rest => putSlots (if h : i < 64 then t.set i (a, b) h else t) rest

/-- Loads wait for a rotation boundary (R273). -/
def Fabric.pending (f : Fabric) : Bool := f.pendSlots ≠ [] || f.pendCtrl.isSome

/-- Loads entries or a control pair: at once, or pending while a rotation of the table in force runs (R273). -/
def State.loadSlots (s : State) (es : List (Nat × Word × Word)) (c : Option (Word × Word)) : State :=
  let f := s.fab
  if f.running s.time then
    { s with fab := { f with pendSlots := f.pendSlots ++ es, pendCtrl := c <|> f.pendCtrl, pendAt := if f.pending then f.pendAt else s.time } }
  else
    let (ctrl, base) := c.getD (f.ctrl, f.rotbase)
    { s with fab := { f with slots := putSlots f.slots es, ctrl := ctrl, rotbase := base } }

/-- FIRST and COUNT of PSLOT's gb (R288). -/
def slotFirst (gb : Word) : Nat := (gb.extractLsb' 8 6).toNat
def slotCount (gb : Word) : Nat := (gb.extractLsb' 16 7).toNat

/-- PSLOT OPN 0 with its image at hand, and gd (R288). -/
def State.loadEntries (s : State) (gb : Word) (bs : List Byte) : State × Word :=
  let items := itemsOf 2 (slotCount gb) (listWords bs)
  match items.findIdx? s.slotBad with
  | some i => (s, BitVec.ofNat 64 (2 + i * 256))
  | none => (s.loadSlots ((items.zip (List.range (slotCount gb))).map fun p => (slotFirst gb + p.2, p.1.getD 0 0, p.1.getD 1 0)) none, 0)

/-- PSLOT OPN 2 with its image at hand, and gd (R288). -/
def State.loadControl (s : State) (bs : List Byte) : State × Word :=
  let ws := listWords bs
  if s.ctrlBad (ws.getD 0 0) then (s, 2) else (s.loadSlots [] (some (ws.getD 0 0, ws.getD 1 0)), 0)

/-- What an instruction with an image does once the image has been read, or written, and gd; `op` as in ReqKind.image. -/
def State.imageDone (s : State) (ctx : Nat) (op : BitVec 2) (gb : Word) (bs : List Byte) : State × Word :=
  match op.toNat with
  | 0 => s.loadBrew ctx gb bs
  | 1 => s.loadEntries gb bs
  | 2 => s.loadControl bs
  | _ => (s, 0)

/-- The issuing slot as it waits at a bank. -/
def State.bankUser (s : State) : BankUser := .slot s.cur s.me.pc

/-- An access to an image that cannot be made now: it waits at a bank, or traps (R218, R223). -/
def State.imageStops (s : State) (e : BitVec 8 × Nat) : Out :=
  if e.1 = 0 then .next ((s.joinBank s.bankUser (e.2 - 1)).block s.cur) else s.trapAt e.1 e.2

/-- Reads an image of n bytes as LD does, from a peer's window too, and does what it is for (R74, R239, R274, R288). -/
def readImage (s : State) (op : BitVec 2) (d : Reg) (ga gb : Word) (n : Nat) : Out :=
  let ea := addr56 ga
  if isPeer ea then .next (s.askPeer (.image op d ga gb) (peerDev ea) (.read (peerOff ea) n))
  else match s.blockLocs s.bankUser (s.agent s.cur) permR (n / 2048 + 2) ea n with
    | .error e => s.imageStops e
    | .ok keys =>
      if s.isPoisoned keys then s.trap cUNCORR (s.badLine ea keys)
      else
        let (t, v) := ((s.leaveBanks s.bankUser).touch ea n).imageDone (s.ctxOf s.cur) op gb (s.seen s.cur.core keys)
        t.retireG d v

/-- The bytes of slot-table entries. -/
def Fabric.image (f : Fabric) (gb : Word) : List Byte :=
  ((f.slots.toList.drop (slotFirst gb)).take (slotCount gb)).flatMap fun e => toBytes 8 e.1.toNat ++ toBytes 8 e.2.toNat

/-- PSLOT OPN 1: stores entries to the image (R288). -/
def storeImage (s : State) (d : Reg) (ga gb : Word) : Out :=
  let ea := addr56 ga
  let bs := s.fab.image gb
  if isPeer ea then .next (s.askPeer (.image 3 d ga gb) (peerDev ea) (.write (peerOff ea) bs))
  else match s.blockLocs s.bankUser (s.agent s.cur) permW (bs.length / 2048 + 2) ea bs.length with
    | .error e => s.imageStops e
    | .ok keys =>
      if s.sliceOver s.cur.core keys then s.stall
      else (((s.leaveBanks s.bankUser).touch ea bs.length).put keys bs).retireG d 0

/-- BRWLD (R239). -/
def execBrwld (d a b : Reg) (x y : Bool) (s : State) : Out :=
  let ga := s.me.readG a
  let gb := s.me.readG b
  let limit := match brwWhat gb with | 0 => 256 | 1 => 16 | _ => 64
  brewForm s (.brwld d a b x y) d a b x y
    (firstFault [imageFault s ga,
      failIf (brwWhat gb = 3 || gb.extractLsb' 2 6 ≠ 0 || gb.extractLsb' 25 39 ≠ 0 || brwCount gb = 0 || limit < brwFirst gb + brwCount gb)
        cACCESS gb])
    (s.me.acquiring || !s.released s.cur) (readImage s 0 d ga gb (8 * brwWords gb * brwCount gb))

/-- PSLOT OPN 3 (R288): with no current slot, its number and time are free values (log 24). -/
def State.pslotStatus (s : State) : Word × State :=
  let f := s.fab
  let top := b2n f.enabled * 2 ^ 63 + b2n f.pending * 2 ^ 62
  match f.current s.time with
  | some (n, o) => (BitVec.ofNat 64 (top + n % 64 * 2 ^ 56 + o % 2 ^ 32), s)
  | none =>
    let (v, s) := s.draw
    (BitVec.ofNat 64 (top + (v.extractLsb' 56 6).toNat * 2 ^ 56 + (v.extractLsb' 0 32).toNat), s)

/-- PSLOT (R288): the four forms share their words and are told apart by gb[1:0] (log 13). -/
def pslotForm (i : Instr) (d a b : Reg) (x y : Bool) (s : State) : Out :=
  ecForm s d a b x y (
    let ga := s.me.readG a
    let gb := s.me.readG b
    let opn := (gb.extractLsb' 0 2).toNat
    checked s (firstFault
      [failIf ((opn = 0 || opn = 2) && !isControl s.cur.core) cACCESS (wordOf i),
       failIf (gb.extractLsb' 2 6 ≠ 0 || gb.extractLsb' 14 2 ≠ 0 || gb.extractLsb' 23 41 ≠ 0) cACCESS gb,
       failIf (opn < 2 && (slotCount gb = 0 || 64 < slotFirst gb + slotCount gb)) cACCESS gb, if opn = 3 then none else imageFault s ga]) (
      if s.myCore.outstFull || (opn ≠ 3 && (s.me.acquiring || !s.released s.cur)) then s.stall
      else match opn with
        | 0 => readImage s 1 d ga gb (16 * slotCount gb)
        | 1 => storeImage s d ga gb
        | 2 => readImage s 2 d ga gb 16
        | _ => let (v, s) := s.pslotStatus; s.retireG d v))

/-- PSLOT_LOAD_ENTRIES (R288). -/
def execPslotLoadEntries (d a b : Reg) (x y : Bool) (s : State) : Out := pslotForm (.pslotLoadEntries d a b x y) d a b x y s
/-- PSLOT_STORE_ENTRIES (R288). -/
def execPslotStoreEntries (d a b : Reg) (x y : Bool) (s : State) : Out := pslotForm (.pslotStoreEntries d a b x y) d a b x y s
/-- PSLOT_LOAD_CONTROL (R288). -/
def execPslotLoadControl (d a b : Reg) (x y : Bool) (s : State) : Out := pslotForm (.pslotLoadControl d a b x y) d a b x y s
/-- PSLOT_STATUS (R288). -/
def execPslotStatus (d a b : Reg) (x y : Bool) (s : State) : Out := pslotForm (.pslotStatus d a b x y) d a b x y s

/-- Offsets at which the windows of a device open (R271). -/
def Fabric.opens (f : Fabric) (dev : Nat) : List (Nat × Nat) :=
  (f.table.zip (List.range f.table.length)).filterMap fun p =>
    if [0, 1, 2, 3].any fun q => slotDest p.1 q = some dev then
      some (((f.table.take p.2).map slotLen).sum, slotLen p.1 - slotGuard p.1)
    else none

/-- ns until the next window of a device opens, by the table and TIME (R289, R291). -/
def Fabric.nextWindow (f : Fabric) (time dev : Nat) : Nat :=
  let ws := f.opens dev
  let P := f.period
  if !f.enabled || ws = [] || P = 0 then 0xFFFFFFFF
  else if time < f.rotbase.toNat then min 0xFFFFFFFE (f.rotbase.toNat - time + (ws.map (·.1)).min?.getD 0)
  else
    let o := (time - f.rotbase.toNat) % P
    if ws.any fun w => w.1 ≤ o && o < w.1 + w.2 then 0
    else min 0xFFFFFFFE ((ws.map fun w => if o < w.1 then w.1 - o else w.1 + P - o).min?.getD 0)

/-- PQ (R289). -/
def execPq (d a : Reg) (x : Bool) (s : State) : Out :=
  ecForm s d a 0 x false (
    let ga := s.me.readG a
    let dev := (ga.extractLsb' 0 15).toNat
    checked s (failIf (ga.extractLsb' 15 49 ≠ 0) cACCESS ga) (
      if s.myCore.outstFull then s.stall
      else
        let f := s.fab
        let reach := f.reaches dev
        let items := min 65535 ((f.queue.filter fun q => q.dst = dev).length + (f.leaving.filter fun p => p.1 = dev && s.time < p.2).length)
        s.retireG d (BitVec.ofNat 64 (b2n reach * 2 ^ 63 + items * 2 ^ 32 + (if reach then f.nextWindow s.time dev else 0xFFFFFFFF)))))

end Sys2Proof.Machine
end

