-- ==== Sys2Proof/Machine/Sched.lean ====
section
/-!
DEFINITION. The scheduler's steps on launches: taking descriptors (R226, R227), dependences (R228), choosing and placing groups
(R230 to R233), exit (R234).
-/

namespace Sys2Proof.Machine

/-! ## Taking descriptors -/

/-- Slot n of a queue whose header is at `h` (R224). -/
def slotAddr (h n log : Nat) : Nat := h + 128 + 128 * (n % 2 ^ log)

/-- DESCRIPTOR_TAKE (R226, R227): a slot whose descriptor cannot be read is taken as not filled. -/
def execDescriptorTake (ctx q : Nat) (s : State) : Out :=
  .next (
    let c := s.ctx ctx
    let (hdr, log) := (c.queues.toList[q]?).getD (0, 0)
    let h := addr56 hdr
    if c.st ≠ .running || hdr = 0 ||
        (s.sched.launches.any fun l => l.ctx = ctx && l.queue = some q && l.st = .waitdep) then s
    else match s.queueLoc ctx h 64 with
      | none => s
      | some hk =>
        let n := leNat (s.bytes (hk.take 8))
        match s.queueLoc ctx (slotAddr h n log) 128 with
        | none => s
        | some k =>
          if !((wordsOf (k.take 8)).all s.tagFull) || s.isPoisoned k then s
          else
            let ws := listWords (s.bytes k)
            let d := descOf ws
            let s := (s.used (s.kernelAgent ctx) h 64).used (s.kernelAgent ctx) (slotAddr h n log) 128
            let s := (s.put (hk.take 8) (toBytes 8 (n + 1))).retag (wordsOf (k.take 8)) false
            let r : FaultRec :=
              { cause := cACCESS, source := 7, tval := BitVec.ofNat 64 n, slotid := 0, launchid := d.launchid, extra := 0, va := 0 }
            if descBad ws then s.queueFault ctx r
            else if d.entry.toNat < c.tbndlo.toNat || c.tbndhi.toNat < d.entry.toNat then
              s.queueFault ctx { r with cause := cHBOUND, tval := d.entry }
            else s.addLaunch ctx (some q) d none)

/-! ## Dependences (R228) -/

/-- The need of a launch is met. -/
def State.depMet (s : State) (l : Launch) : Bool :=
  let cnt (c : Nat) : Nat := (mget 0 (s.ctx l.ctx).dep c).toNat
  let d := l.desc
  if d.d0ch = d.d1ch && d.d0n ≠ 0 && d.d1n ≠ 0 then d.d0n + d.d1n ≤ cnt d.d0ch
  else d.d0n ≤ cnt d.d0ch && d.d1n ≤ cnt d.d1ch

/-- Takes a count from a dependence channel. -/
def State.takeDep (s : State) (ctx ch n : Nat) : State :=
  s.modCtx ctx fun c => { c with dep := mset 0 c.dep ch (mget 0 c.dep ch - BitVec.ofNat 16 n) }

/-- DEPENDENCE_MET: the earliest taken launch of its context whose need is met takes its counts (R228). -/
def execDependenceMet (launch : Nat) (s : State) : Out :=
  .next (
    match s.sched.launches.find? fun l => l.num = launch with
    | none => s
    | some l =>
      let earlier := s.sched.launches.takeWhile fun k => k.num ≠ launch
      if l.st ≠ .waitdep || (s.ctx l.ctx).st ≠ .running || !s.depMet l ||
          earlier.any (fun k => k.ctx = l.ctx && k.st = .waitdep && s.depMet k) then s
      else
        let s := (s.takeDep l.ctx l.desc.d0ch l.desc.d0n).takeDep l.ctx l.desc.d1ch l.desc.d1n
        { s with sched := { s.sched with launches := s.sched.launches.map fun k =>
            if k.num = launch then { k with st := .ready, since := s.time, order := s.nextReq } else k }, nextReq := s.nextReq + 1 })

/-! ## The order of launches (R230) -/

/-- Effective priority; a wait is counted in cy, 7 to 4 ns (R3, R230). -/
def State.eff (s : State) (l : Launch) : Nat := l.desc.prio.toNat - (s.time - l.since) * 7 / 4 / 65536

/-- The place of a launch in the order: effective priority, the PLACING launches that keep their turn before others, the last of them first,
contexts round-robin, then the order in which they became READY. -/
def State.rank (s : State) (l : Launch) : List Nat :=
  [s.eff l, s.sched.holders.idxOf l.num, (l.ctx + 63 - s.sched.turn) % 64, l.order]

def lexLt : List Nat → List Nat → Bool
  | a :: as, b :: bs => a < b || (a = b && lexLt as bs)
  | [], _ :: _ => true
  | _, [] => false

/-- The launches that may be served, in a context that runs. -/
def State.waiting (s : State) : List Launch :=
  s.sched.launches.filter fun l => (l.st = .ready || l.st = .placing) && (s.ctx l.ctx).st = .running

/-! ## Where a group goes (R231, R232) -/

/-- Bytes per stack of a range of a context, page by page; unmapped pages count nothing (R231). -/
def State.stackBytes (s : State) (ctx stack : Nat) : Nat → Nat → Nat → Nat
  | 0, _, _ => 0
  | fuel + 1, va, n =>
    if n = 0 || winBase ≤ va then 0
    else
      let c := min n (65536 - va % 65536)
      let here := match s.xlat ctx va with
        | .ok x => if (x.pa + (va - x.va)) / 2 ^ 37 % 8 = stack then c else 0
        | .error _ => 0
      here + s.stackBytes ctx stack fuel (va + c) (n - c)

/-- The entries of a placement map: group range, address, length; a map that breaks its format has none (R231). -/
def State.placement (s : State) (ctx : Nat) (pmap : Word) : List (Nat × Nat × Nat × Nat) :=
  if pmap = 0 then []
  else match s.resolve (s.kernelAgent ctx) (addr56 pmap) 8 permR with
    | .error _ => []
    | .ok l =>
      let n := leNat (s.bytes l.keys)
      if n = 0 || 64 < n || s.isPoisoned l.keys then []
      else match s.resolve (s.kernelAgent ctx) (addr56 pmap + 8) (24 * n) permR with
        | .error _ => []
        | .ok l =>
          if s.isPoisoned l.keys then []
          else
            let ws := listWords (s.bytes l.keys)
            (List.range n).map fun i =>
              let w (j : Nat) : Nat := (ws.getD (3 * i + j) 0).toNat
              (w 0 % 2 ^ 32, w 0 / 2 ^ 32, w 1, w 2)

/-- Bytes that group g has in a stack (R231). -/
def State.groupBytes (s : State) (ctx g stack : Nat) (m : List (Nat × Nat × Nat × Nat)) : Nat :=
  (m.map fun e => if e.1 ≤ g && g ≤ e.2.1 then s.stackBytes ctx stack (e.2.2.2 / 65536 + 2) e.2.2.1 e.2.2.2 else 0).sum

/-- Cores of a die that unexited groups hold (R232). -/
def State.dieLoad (s : State) (die : Nat) : Nat :=
  ((s.sched.groups.filter fun g =>
    g.die = die && !g.exited && ((s.ctx g.ctx).st = .running || (s.ctx g.ctx).st = .saving)).map (·.size)).sum

/-- The live virtual dies. -/
def State.liveDies (s : State) : List Nat :=
  (List.range 8).filter fun v => match s.repair.diemap.toList[v]? with | some (live, _) => live | none => false

def State.homeStack (s : State) (v : Nat) : Nat := match s.repair.diemap.toList[v]? with | some (_, p) => p.toNat | none => 0

/-- Inserts a die into the order of R232 by its rank. -/
def insertBy {α : Type} (key : α → List Nat) (a : α) : List α → List α
  | [] => [a]
  | b :: rest => if lexLt (key a) (key b) then a :: b :: rest else b :: insertBy key a rest

def sortBy {α : Type} (key : α → List Nat) (l : List α) : List α := l.foldl (fun acc a => insertBy key a acc) []

/-- The dies in the order of R232: most bytes first, then least load, then lowest number. -/
def State.dieOrder (s : State) (l : Launch) (g : Nat) : List Nat :=
  let m := s.placement l.ctx l.desc.pmap
  let w := s.liveDies.map fun v => (v, s.groupBytes l.ctx g (s.homeStack v) m)
  let most := (w.map (·.2)).max?.getD 0
  (sortBy (fun (p : Nat × Nat) => [most - p.2, s.dieLoad p.1, p.1]) w).map (·.1)

/-- A core is free to a context (R232). -/
def State.coreFree (s : State) (ctx core : Nat) : Bool :=
  match (s.core core).ctx with
  | none => true
  | some n => n = ctx && (s.groupOf core).isNone

/-- Cores that a context holds. -/
def State.coresHeld (s : State) (ctx : Nat) : Nat := (s.cores.filter fun p => p.2.ctx = some ctx).length

/-- The contexts that hold cores of an octet, which has a window for `ctx` (R179, R245). -/
def State.windowFree (s : State) (ctx octet : Nat) : Bool :=
  let others := (s.cores.filterMap fun p => if octetOf p.1 = octet && p.2.ctx ≠ some ctx then p.2.ctx else none).dedup
  (others.map fun n => (s.ctx n).accw).sum + (s.ctx ctx).accw ≤ 16

/-- The run of a group from core `at_` of a cluster fits (R232, R245). -/
def State.runFits (s : State) (l : Launch) (base at_ : Nat) : Bool :=
  let run := keysFrom (base + at_) l.desc.gsize
  let fresh := (run.filter fun c => (s.core c).ctx ≠ some l.ctx).length
  run.all (s.coreFree l.ctx) && s.coresHeld l.ctx + fresh ≤ (s.ctx l.ctx).corelim &&
    ((run.map octetOf).dedup.all (s.windowFree l.ctx))

/-- The lowest run of a cluster that fits. -/
def State.runIn (s : State) (l : Launch) (die cluster : Nat) : Option Nat :=
  let base := coreAt die cluster 0
  if s.repair.fenced.any fun u => (List.range 128).any fun c => unitCovers u (base + c) then none
  else (List.range (129 - l.desc.gsize)).find? fun a => (!l.desc.octalign || a % 8 = 0) && s.runFits l base a

/-- Cluster and first core for a group on a die: fewest free cores, then lowest number (R232). -/
def State.clusterFor (s : State) (l : Launch) (die : Nat) : Option (Nat × Nat) :=
  let fits := (List.range 100).filterMap fun c => (s.runIn l die c).map fun a => (c, a)
  let free (c : Nat) : Nat := ((List.range 128).filter fun k => s.coreFree l.ctx (coreAt die c k)).length
  (sortBy (fun (p : Nat × Nat) => [free p.1, p.1]) fits).head?

/-- Die, cluster and first core for the next group of a launch. -/
def State.placeFor (s : State) (l : Launch) : Option (Nat × Nat × Nat) :=
  (s.dieOrder l l.placed).findSome? fun d => (s.clusterFor l d).map fun p => (d, p.1, p.2)

/-! ## Placing (R233) -/

/-- Channel 0 of a core of a group (R233). -/
def channelZero (d : Desc) (area : BitVec 4) : Channel :=
  { Channel.init with haddr := d.entry, xm := d.xm, mask := false, prio := d.prio, rlen := 16,
                      rbase := BitVec.ofNat 16 ((area.toNat + 1) % 16 * 4096) }

/-- The argument block (R233). -/
def argBlock (l : Launch) (idx rank : Nat) : List Word32 :=
  let (w1, addr) : Nat × Word := match l.brew with
    | some (_, kind, mb, a) => (2 ^ 16 + kind.toNat * 2 ^ 17 + mb.toNat * 2 ^ 20, a)
    | none => (0, 0)
  [BitVec.ofNat 32 idx, BitVec.ofNat 32 (rank + (l.desc.gsize - 1) * 256 + w1), addr.extractLsb' 0 32, addr.extractLsb' 32 32]
    ++ l.desc.args.take l.desc.argw

/-- The launch message of a core (R129, R233). -/
def launchMsg (l : Launch) (idx rank core : Nat) : Msg :=
  { dest := BitVec.ofNat 64 (coordOf core + (6 + l.desc.argw) * 2 ^ 24), sender := 0, xm := l.desc.xm, ctx := l.ctx, dec := none,
    body := [l.desc.entry.extractLsb' 0 32, l.desc.entry.extractLsb' 32 32] ++ argBlock l idx rank, targets := [core],
    refused := false, fabric := false, launch := some (l.num, idx, if l.desc.staged then l.desc.stage else 0), region := none, after := [] }

/-- Prepares a core for its group and sends it the launch message (R233). -/
def State.bindCore (s : State) (l : Launch) (idx rank core : Nat) : State :=
  let keep := (s.core core).ctx = some l.ctx
  let s := if keep then s
    else (s.setCore core { Core.init with ctx := some l.ctx, area := (s.ctx l.ctx).area }).storeTable core
  let s := s.modCore core fun c => { c with svc := rank = 0 }
  let s := s.setChan core 0 (channelZero l.desc (s.core core).area)
  s.post (launchMsg l idx rank core)

def State.bindCores (s : State) (l : Launch) (idx first : Nat) : List Nat → State
  | [] => s
  | r :: rest => (s.bindCore l idx r (first + r)).bindCores l idx first rest

/-- The next group of a launch cannot be placed: it loses its turn (R230). -/
def State.losesTurn (s : State) (launch : Nat) : Bool :=
  match s.waiting.find? fun l => l.num = launch with
  | some l => l.placed = l.desc.ngrp || (s.placeFor l).isNone
  | none => true

/-- The launches that keep their turn: those whose groups are not all placed and whose next group can be placed (R230). -/
def State.keepTurns (s : State) : State :=
  { s with sched := { s.sched with holders := s.sched.holders.filter fun n => !s.losesTurn n } }

/-- Places the next group of a launch, which has the turn now; one that it overtook keeps its own (R230). -/
def State.placeGroup (s : State) (l : Launch) (die cluster first : Nat) : State :=
  let idx := l.placed
  let s := s.bindCores l idx (coreAt die cluster first) (List.range l.desc.gsize)
  let g : Group := ⟨l.num, idx, l.ctx, die, cluster, first, l.desc.gsize, false, false⟩
  { s with sched := { s.sched with
      groups := s.sched.groups ++ [g], turn := l.ctx, holders := l.num :: s.sched.holders.filter (· ≠ l.num),
      launches := s.sched.launches.map fun (k : Launch) => if k.num = l.num then { k with placed := idx + 1, st := .placing } else k } }.keepTurns.settle l.num

/-- GROUP_PLACE: one group of the first launch in the order of R230 that can be placed; a launch whose next group cannot be placed loses its
turn. -/
def execGroupPlace (launch : Nat) (s : State) : Out :=
  .next (
    match s.waiting.find? fun l => l.num = launch with
    | none => s
    | some l =>
      match s.placeFor l with
      | none => if s.sched.holders.contains launch then s.keepTurns else s
      | some (d, c, f) =>
        if (s.waiting.filter fun k => lexLt (s.rank k) (s.rank l)).any fun k => (s.placeFor k).isSome then s
        else s.placeGroup l d c f)

/-! ## Exit (R234) -/

/-- A core is quiescent. -/
def State.quiescent (s : State) (core : Nat) : Bool :=
  let c := s.core core
  c.slots.toList.all (fun x => x.act.isNone && x.settled && !(x.reqs.any fun r => r.kind = .post)) &&
    ((List.range 32).all fun i =>
      let ch := BitVec.ofNat 5 i
      !c.selectable ch && !((c.chan ch).armed && !(c.chan ch).mask)) &&
    c.tasks = 0 && c.outq.isEmpty

/-- GROUP_EXIT (R234): its launch messages have arrived and all its cores are quiescent at once; the posts that follow are releases, so it
waits for the stores of its cores (R229). -/
def execGroupExit (launch group : Nat) (s : State) : Out :=
  .next (
    match s.sched.groups.find? fun g => g.launch = launch && g.idx = group && !g.exited with
    | none => s
    | some g =>
      let arrived := !s.net.any fun m => match m.launch with | some (l, i, _) => l = launch && i = group | none => false
      if arrived && g.cores.all (fun c => (s.core c).ctx = some g.ctx && s.quiescent c) && s.coresOrdered g.cores then
        { s with sched := { s.sched with
            groups := s.sched.groups.map fun (h : Group) => if h.launch = launch && h.idx = group then { h with exited := true } else h } }.settle launch
      else s)

end Sys2Proof.Machine
end

