-- ==== Sys2Proof/Machine/Contexts.lean ====
section
/-!
DEFINITION. Contexts (R244, R245, R250): the scheduler's commands, pre-emption, the save area and resume (R260 to R265), fault records
(R258), interrupts (R249), grant commands (R276), spares (R296) and the renumbering of dies (R303, R304).
-/

namespace Sys2Proof.Machine

/-! ## Entries of the context table (R245) -/

/-- The doubleword of an entry at an offset. -/
def State.entryWord (s : State) (n o : Nat) : Nat := s.read (s.sched.ctxtab.toNat + 256 * n + o) 8

/-- Header address and log2 SIZE of queue q. -/
def State.entryQueue (s : State) (n q : Nat) : Nat × Nat := (s.entryWord n (0x80 + 16 * q), s.entryWord n (0x88 + 16 * q))

def logOk (l : Nat) : Bool := 4 ≤ l && l ≤ 12

/-- A local virtual address with an alignment. -/
def localAddr (a n : Nat) : Bool := a < 2 ^ 55 && a % n = 0

/-- The entry breaks a range or holds a non-zero reserved bit (R245). -/
def State.entryBroken (s : State) (n : Nat) : Bool :=
  let w := s.entryWord n
  let c := w 0x20
  let k := w 0x40
  8 ≤ w 0 || 2 ^ 40 ≤ w 8 || w 8 % 1024 ≠ 0 || 102400 < fieldOf c 0 17 || fieldOf c 17 3 ≠ 0 || fieldOf c 20 5 = 0 || 16 < fieldOf c 20 5
    || fieldOf c 25 3 ≠ 0 || fieldOf c 29 3 ≠ 0 || fieldOf c 36 28 ≠ 0 || 2 ^ 40 ≤ w 0x28 || w 0x28 % 65536 ≠ 0
    || !localAddr (w 0x30) 64 || !localAddr (w 0x38) 64 || !logOk (fieldOf k 0 4) || !logOk (fieldOf k 8 4) || fieldOf k 4 4 ≠ 0
    || fieldOf k 12 52 ≠ 0 || ((List.range 7).any fun i => w (0x48 + 8 * i) ≠ 0)
    || (List.range 8).any fun q =>
        let (h, l) := s.entryQueue n q
        !localAddr h 128 || 16 ≤ l || (h ≠ 0 && !logOk l)

/-- Another context that is not FREE owns the brew table (R245). -/
def State.otherOwner (s : State) (n : Nat) : Bool := s.ctxs.any fun p => p.1 ≠ n && p.2.brewown && p.2.st ≠ .free

/-- The result of the checks of CREATE and RESUME (R245, R250). -/
def State.entryResult (s : State) (n : Nat) : Nat :=
  if s.entryBroken n then 2 else if bit (s.entryWord n 0x20) 28 && s.otherOwner n then 3 else 0

/-- A context takes what its entry says; a queue whose registration changes has rung no doorbell (R314). -/
def State.loadEntry (s : State) (n : Nat) (c : Ctx) : Ctx :=
  let w := s.entryWord n
  let qs : Vector (Word × Nat) 8 := Vector.ofFn fun q => (BitVec.ofNat 64 (s.entryQueue n q.val).1, (s.entryQueue n q.val).2)
  { c with ptroot := BitVec.ofNat 64 (w 8), tbndlo := BitVec.ofNat 64 (w 0x10), tbndhi := BitVec.ofNat 64 (w 0x18),
           corelim := fieldOf (w 0x20) 0 17, accw := fieldOf (w 0x20) 20 5, brewown := bit (w 0x20) 28,
           area := BitVec.ofNat 4 (w 0x20 / 2 ^ 32), save := BitVec.ofNat 64 (w 0x28), fqbase := BitVec.ofNat 64 (w 0x30),
           sqbase := BitVec.ofNat 64 (w 0x38), fqlog := fieldOf (w 0x40) 0 4, sqlog := fieldOf (w 0x40) 8 4, queues := qs,
           rung := Vector.ofFn fun q => if c.queues[q] = qs[q] then c.rung[q] else 0, diemax := s.diemaxNow }

/-! ## Commands (R250) -/

/-- The scheduler runs this command. -/
def State.commanded (s : State) (op ctx : Nat) : Bool := s.sched.busy && s.sched.cmd.toNat = op && s.sched.cmdCtx.toNat = ctx

/-- What the device keeps of a context outside its record is gone. -/
def State.forget (s : State) (n : Nat) : State :=
  { s with
      engs := s.engs.filter (fun p => p.1 % 64 ≠ n), crema := { s.crema with psel := mdel s.crema.psel n },
      repair := { s.repair with lostMaps := s.repair.lostMaps.filter fun p => p.1 ≠ n },
      carafe := { s.carafe with reports := s.carafe.reports.filter fun q => q.ctx ≠ n },
      sched := { s.sched with launches := s.sched.launches.filter (fun l => l.ctx ≠ n), groups := s.sched.groups.filter (fun g => g.ctx ≠ n) } }

/-- CREATE (R250). -/
def execCreate (ctx : Nat) (s : State) : Out :=
  .next (
    if !s.commanded 1 ctx then s
    else if (s.ctx ctx).st ≠ .free then s.finishCmd 1
    else if s.entryResult ctx ≠ 0 then s.finishCmd (BitVec.ofNat 8 (s.entryResult ctx))
    else (((s.forget ctx).setCtx ctx (s.loadEntry ctx Ctx.init)).setCtxSt ctx .running).finishCmd 0)

/-- PREEMPT: the context is saved; the command finishes with the save, and its slots halt within 875 cy of the request (R4, R250, R260). -/
def execPreempt (ctx : Nat) (s : State) : Out :=
  .next (
    if !s.commanded 3 ctx || (s.ctx ctx).st = .saving && (s.ctx ctx).after = .saved then s
    else if (s.ctx ctx).st ≠ .running then s.finishCmd 1
    else (s.setCtxSt ctx .saving).modCtx ctx fun c => { c with after := .saved })

/-- The grant entries of a context. -/
def State.grantsOf (s : State) (ctx : Nat) : List Nat := (s.fab.grants.filter fun p => p.2.ctx.toNat = ctx).map (·.1)

/-- DESTROY (R250, R276). -/
def execDestroy (ctx : Nat) (s : State) : Out :=
  .next (
    if !s.commanded 4 ctx then s
    else if (s.ctx ctx).st ≠ .saved && (s.ctx ctx).st ≠ .stopped then s.finishCmd 1
    else if (s.grantsOf ctx).any s.grantBusy then (s.grantsOf ctx).foldl State.recallGrant s
    else
      let owned := s.ownsBrew ctx
      let s := ((s.forget ctx).setCtx ctx Ctx.init).setCtxSt ctx .free
      let s := { s with fab := { s.fab with grants := s.fab.grants.filter fun p => p.2.ctx.toNat ≠ ctx },
                        brew := if owned then Brew.init else s.brew }
      s.finishCmd 0)

/-! ## Halting (R261) -/

/-- Active lanes of a register take values that the spec leaves undefined (R262). -/
def State.undefLanes (s : State) (core v : Nat) (mask : BitVec 16) : State :=
  let old := (s.core core).readV v
  let new := Vector.ofFn fun i => if mask.getLsbD i.val then (Config.freeValue (s.fresh + i.val)).setWidth 32 else old[i]
  { s.modCore core fun c => (c.writeV v new).setTagV v .empty with fresh := s.fresh + 16 }

/-- A VLDF is withdrawn whole: its waits end, its register is saved empty and a kind-3 entry has it issued again at resume (R111, R161, R262). -/
def State.withdrawVldf (s : State) (sl : SlotId) (r : Req) : State :=
  match r.kind with
  | .vldf v p mask .. =>
    let ws := s.waiters.filter fun (w : Waiter) => !(w.sl = sl && w.req = r.num)
    let t := State.undefLanes { s with waiters := ws } sl.core v mask
    { t.modSlot sl fun x =>
        { x.dropReq r.num with parked := x.parked ++ [⟨3, p, 0, 0, BitVec.ofNat 7 v, mask, 0, 0, r.num, s.nextReq⟩] } with nextReq := s.nextReq + 1 }
  | _ => s

/-- The elements of a request that may wait on a tag at a peer: it has left, and its answer has not come (R161). -/
def State.waitsAt (s : State) (sl : SlotId) (req : Nat) : List Frame :=
  (s.fab.queue ++ s.fab.sent).filter fun f => f.slot = sl && f.req = req &&
    match f.body with | .access (.syncLoad ..) | .access (.syncStore _ _ true) => true | _ => false

/-- Withdraws the VLDFs of a slot with a lane that waits on a tag in this package (R111, R261); one that may wait at a peer too is withdrawn whole
once the peer says so (R161). -/
def State.withdrawVldfs (s : State) (sl : SlotId) : List Req → State
  | [] => s
  | r :: rest =>
    (if (s.waiters.any fun w => w.sl = sl && w.req = r.num) && s.waitsAt sl r.num = [] then s.withdrawVldf sl r else s).withdrawVldfs sl rest

/-- A blocking access is withdrawn: the slot halts before it (R161). -/
def State.withdrawAccess (s : State) (sl : SlotId) (req : Nat) : State :=
  { s with waiters := s.waiters.filter fun w => !(w.sl = sl && w.req = req) }.modSlot sl fun x => { x.dropReq req with wait := .halted }

/-- A request whose access a peer has withdrawn, or that has not left this package, is to be issued again (R161, R262). -/
def State.withdrawn (s : State) (sl : SlotId) (req : Nat) : State :=
  match (s.slot sl).req req with
  | none => s
  | some r => match r.kind with | .vldf .. => s.withdrawVldf sl r | _ => s.withdrawAccess sl req

/-- Withdraws what a request may have waiting on tags at peers: a frame that has not left goes from the send queue, and the peer that has
one is asked to withdraw it, once (R161). -/
def State.askWithdraw (s : State) (sl : SlotId) (req : Nat) : State :=
  (s.waitsAt sl req).foldl (fun t f =>
    if f.seq = 0 then { t with fab := { t.fab with queue := t.fab.queue.erase f } }.withdrawn sl req
    else if (t.fab.queue ++ t.fab.sent).any fun g => g.slot = sl && g.req = req && g.elem = f.elem && g.body = .withdraw then t
    else { t with fab := { t.fab with queue := t.fab.queue ++ [{ f with trims := 0, body := .withdraw }] } }) s

/-- SLOT_HALT: a slot of a context that is being saved halts at its boundary, with a trap that it has not taken (R260, R261; log 43). An access
that waits on a tag is withdrawn, at a peer once the peer says so. -/
def execSlotHalt (sl : SlotId) (s : State) : Out :=
  .next (
    let ctx := ((s.core sl.core).ctx).getD 64
    if isControl sl.core || (s.ctx ctx).st ≠ .saving then s
    else
      let s := s.served
      let reqs := (s.slot sl).reqs
      let s := reqs.foldl (fun t r => t.askWithdraw sl r.num) (s.withdrawVldfs sl reqs)
      match (s.slot sl).wait with
      | .ready | .retry => s.modSlot sl fun x => { x with wait := .halted }
      | .wfe _ => s.modSlot sl fun x => { (x.writeG x.wfeReg 0).next with wait := .halted }
      | .sent n => if s.waiters.any fun w => w.sl = sl && w.req = n then s.withdrawAccess sl n else s
      | _ => s)

/-! ## The save area (R262) -/

/-- Free bytes at a key, where the spec gives an item of the save area no layout or calls it undefined (log 14). -/
def State.freeBytes (s : State) (k n : Nat) : State :=
  { s.putFull (keysFrom k n) ((List.range n).map fun i => (Config.freeValue (s.fresh + i)).setWidth 8) with fresh := s.fresh + n }

/-- Writes doublewords as a pour engine does. -/
def State.putWords (s : State) (k : Nat) (ws : List Nat) : State := s.putFull (keysFrom k (8 * ws.length)) (ws.flatMap (toBytes 8))

/-- Bits of a list, the first the lowest. -/
def packBits (n : Nat) : List Nat → Nat
  | [] => 0
  | v :: rest => v + 2 ^ n * packBits n rest

/-- The tail of a slot image, from 0x780 (R262). -/
def Slot.imageTail (x : Slot) : List Byte :=
  let chan : Nat := match x.act with
    | some ⟨.channel c, _, _⟩ => 3 + c.toNat * 4
    | some _ => 1
    | none => 0
  [x.tpc.toNat, x.upvec.toNat, x.upsave.toNat,
    x.stage.toNat + x.valloc.toNat * 2 ^ 8 + x.rngseed.toNat * 2 ^ 32 + x.joinch.toNat * 2 ^ 48].flatMap (toBytes 8)
    ++ (((x.m.toList.drop 1).flatMap fun m => toBytes 2 m.toNat) ++ [0, 0])
    ++ (x.c.toList.flatMap fun c => toBytes 2 c.toNat)
    ++ [chan + x.events.length * 2 ^ 32, 0, 0, 0, 0, 0].flatMap (toBytes 8)

/-- A slot image: the fibre record, then the tail (R86, R262). -/
def Slot.image (x : Slot) : List Byte := x.record x.pc x.tcause x.tval x.parked ++ x.imageTail

/-- A remote-region image (R284). -/
def Slot.regionImage (x : Slot) : List Byte :=
  match x.region with
  | none => List.replicate 512 0
  | some g =>
    let back := match g.failed with | some c => 2 + c.1.toNat * 2 ^ 16 | none => 0
    let ts := g.tags.toList
    let vals := (g.regs.toList.zip ts).map fun p => match p.2 with | .poisoned _ t => t.toNat | _ => p.1.toNat
    let causes : List Byte := ts.map fun t => match t with | .poisoned c _ => c | _ => 0
    [1 + back, g.rpc.toNat, packBits 2 (ts.map tagCode), 0, 0, 0, 0, 0].flatMap (toBytes 8) ++ vals.flatMap (toBytes 8) ++ causes
      ++ List.replicate 160 0

/-- The parts of a core block whose layout R262 gives, by offset. -/
def SavedCore.parts (k : SavedCore) : List (Nat × List Byte) :=
  let c := k.core
  let p0 := padKey k.coord 0
  let tag (t : Tag) : Nat := match t with | .poisoned _ v => v.toNat | _ => 0
  [(0, (List.range 65536).map fun i => mget 0 k.pad (p0 + i)),
   (0x10000, toBytes 2048 (packBits 1 ((List.range 16384).map fun i => b2n (mget true k.padTags (p0 / 4 + i))))),
   (0x10800, c.v.toList.flatMap fun v => v.toList.flatMap fun l => toBytes 4 l.toNat),
   (0x12800, (c.vt.toList.flatMap fun t => toBytes 8 (tag t)) ++ (c.vt.toList.map fun t => match t with | .poisoned q _ => q | _ => 0)
      ++ toBytes 32 (packBits 2 (c.vt.toList.map tagCode))),
   (0x13000, c.slots.toList.flatMap Slot.image),
   (0x1A500, [coordOf k.coord + b2n k.lost * 2 ^ 63, c.chbase.toNat, c.limit.toNat].flatMap (toBytes 8) ++ List.replicate 232 0),
   (0x1A600, c.slots.toList.flatMap Slot.regionImage),
   (0x1AE00, List.replicate 4608 0)]

/-- Writes parts of a block. -/
def State.putParts (s : State) (base : Nat) : List (Nat × List Byte) → State
  | [] => s
  | p :: rest => (s.putFull (keysFrom (base + p.1) p.2.length) p.2).putParts base rest

/-- Writes a core block: a lost one but for its coordinate doubleword, and the message queues of any, with free bytes (R262, R296). -/
def State.putBlock (s : State) (base : Nat) (k : SavedCore) : State :=
  if k.lost then (s.freeBytes base 114688).putWords (base + 0x1A500) [coordOf k.coord + 2 ^ 63]
  else (s.freeBytes (base + 0x15000) 21760).putParts base k.parts

def State.putBlocks (s : State) (base : Nat) : List SavedCore → State
  | [] => s
  | k :: rest => (s.putBlock base k).putBlocks (base + 114688) rest

/-- The held-row list: an entry per place (R262). -/
def rowEntry (c : Ctx) (i : Nat) : List Nat :=
  let h := c.hold i
  match h.row with
  | some (va, _) => [holdHandle h i + 2 ^ 16, va]
  | none => [holdHandle h i, 0]

/-- A slot has written an engine register or descriptor. -/
def Slot.engUsed (x : Slot) : Bool := x.k.toList.any (· ≠ 0) || x.d.toList.any (· ≠ 0)

/-- Octets on which a context used the engine: it issued a job there, or its slots wrote engine registers (R262). -/
def State.octetsOf (s : State) (n : Nat) (ks : List SavedCore) : List Nat :=
  (ks.map fun k => octetOf k.coord).dedup.filter fun o =>
    (mfind s.engs (engKey o n)).isSome || ks.any fun k => octetOf k.coord = o && k.core.slots.toList.any Slot.engUsed

/-- The whole octet is fenced, its engine with it (R296). -/
def State.octetLost (s : State) (o : Nat) : Bool := (keysFrom (8 * o) 8).all s.fencedCore

/-- Writes engine blocks: free bytes but for the coordinate doubleword, that of the octet's first core, with the lost mark (R262, R296;
log 14). -/
def State.putEngines (s : State) (base : Nat) : List Nat → State
  | [] => s
  | o :: rest =>
    let t := (s.freeBytes base 344064).putWords (base + 0x1A500) [coordOf (8 * o) + b2n (s.octetLost o) * 2 ^ 63]
    t.putEngines (base + 344064) rest

/-- Near-bank programs of a context, in their queues. -/
def State.nbOf (s : State) (n : Nat) : List NbProg := (s.carafe.nb.flatMap (·.2)).filter fun p => p.ctx = n

/-- Jobs of a context with their octets. -/
def State.jobsOfCtx (s : State) (n : Nat) : List (Nat × Job) :=
  s.jobs.flatMap fun p => (p.2.filter fun j => j.ctx = n && !isControl j.owner.core).map fun j => (p.1, j)

/-- The cores of a context as they are saved, with the messages that have not left and their requests (R140, R261). -/
def State.coresOf (s : State) (n : Nat) : List SavedCore :=
  (s.cores.filter fun p => p.2.ctx = some n).map fun p =>
    let lo := padKey p.1 0
    { coord := p.1, core := p.2, pad := mrange s.mem lo (lo + 65536), padTags := mrange s.tags (lo / 4) (lo / 4 + 16384),
      padPoison := mrange s.poison (lo / 4) (lo / 4 + 16384), lost := s.fencedCore p.1 }

/-- Writes the save area of a context (R262). -/
def State.putSave (s : State) (n : Nat) (ks : List SavedCore) : State :=
  let c := s.ctx n
  let base := c.save.toNat
  let octs := s.octetsOf n ks
  let nbs := (s.nbOf n).length
  let rows := (List.range 4096).flatMap (rowEntry c)
  let s := (s.putWords base [ks.length, octs.length, nbs, 4096, c.nbNext.toNat]).putWords (base + 65536) rows
  let s := s.putBlocks (base + 131072) ks
  let s := s.putEngines (base + 131072 + c.corelim * 114688) octs
  s.freeBytes (base + 131072 + c.corelim * (114688 + 344064)) (nbs * 4224)

/-- The core leaves its context: its scratchpad is emptied and it is free (R260). -/
def State.releaseCore (s : State) (core : Nat) : State :=
  let lo := padKey core 0
  { s with cores := mdel s.cores core, mem := mclear s.mem lo (lo + 65536), tags := mclear s.tags (lo / 4) (lo / 4 + 16384),
           poison := mclear s.poison (lo / 4) (lo / 4 + 16384) }

def State.releaseCores (s : State) : List Nat → State
  | [] => s
  | c :: rest => (s.releaseCore c).releaseCores rest

/-- A job has nothing on its way to a peer: at the save it stands at its progress boundary (R261). -/
def Job.atRest (j : Job) : Bool :=
  !(j.sends.any fun b => b.st = .out) && match j.ask with | some ⟨2, _, _, none⟩ => true | some ⟨_, _, _, none⟩ => false | _ => true

/-- The request is that of a message to a peer that is still in the outbound queue, which is saved (R140, R261). -/
def Core.holdsMessage (c : Core) (r : Req) : Bool :=
  r.kind = .post && c.outq.any fun m => match m.region with | some (_, n) => n = r.num | none => false

/-- Everything of the context has come to the point of R261: every slot has halted, and no store of it is in a slice of its die. -/
def State.settledCtx (s : State) (n : Nat) : Bool :=
  (s.cores.all fun p => p.2.ctx ≠ some n || s.fencedCore p.1 ||
    p.2.slots.toList.all fun x => x.wait = .halted && x.reqs.all p.2.holdsMessage) &&
  ((s.jobsOfCtx n).all fun j => j.2.atRest) && s.slices.all fun e => e.ctx ≠ n

/-- A job as it is saved: what it has read for a write that has not begun is discarded, and its engine is released (R260, R261). -/
def Job.saved (j : Job) : Job :=
  match j.ask with
  | some ⟨1, _, _, _⟩ => { j with pour := none }
  | _ => { j with ask := none, got := [], pour := none }

/-- The places that hold rows give them up, with their handles listed (R214). -/
def Ctx.saveRows (c : Ctx) : Ctx :=
  let out := c.holds.filter fun p => p.2.row.isSome && !p.2.dropped
  { c with savedRows := out, holds := c.holds.filter fun p => !(p.2.row.isSome && !p.2.dropped) }

/-- SAVE_COMPLETE (R260, R261). -/
def execSaveComplete (ctx : Nat) (s : State) : Out :=
  .next (
    let c := s.ctx ctx
    if c.st ≠ .saving || !s.settledCtx ctx then s
    else
      let ks := s.coresOf ctx
      let jobs := s.jobsOfCtx ctx
      let s := jobs.foldl (fun s j => s.withdrawJob j.2) s
      let nbs := s.nbOf ctx
      let s := s.putSave ctx ks
      let s := s.releaseCores (ks.map (·.coord))
      let s := { s with
        jobs := s.jobs.map fun (p : Nat × List Job) => (p.1, p.2.filter fun j => j.ctx ≠ ctx || isControl j.owner.core),
        carafe := { s.carafe with nb := s.carafe.nb.map fun (p : Nat × List NbProg) => (p.1, p.2.filter fun q => q.ctx ≠ ctx) } }
      let s := s.modCtx ctx fun c => { c.saveRows with savedCores := ks, savedJobs := jobs.map (fun p => (p.1, p.2.saved)), savedNb := nbs }
      let s := s.setCtxSt ctx c.after
      if s.commanded 3 ctx && c.after = .saved then s.finishCmd 0 else s)

/-! ## Resume (R264) -/

/-- The coordinate doubleword of block i of a save area. -/
def State.blockCoord (s : State) (save i : Nat) : Nat := s.read (save + 131072 + 114688 * i + 0x1A500) 8

/-- The core that a coordinate doubleword names, if it names one. -/
def coreOfCoord (w : Nat) : Option Nat :=
  if fieldOf w 9 7 < 100 then some (coreAt (fieldOf w 16 3) (fieldOf w 9 7) (fieldOf w 2 7)) else none

/-- The coordinate doubleword of engine block i. -/
def State.engineCoord (s : State) (save corelim i : Nat) : Nat := s.read (save + 131072 + corelim * 114688 + 344064 * i + 0x1A500) 8

/-- The coordinate doublewords of the core blocks, then of the engine blocks, of a save area. -/
def State.savedCoords (s : State) (n : Nat) (c : Ctx) (save : Nat) : List Nat × List Nat :=
  ((List.range c.savedCores.length).map (s.blockCoord save),
    (List.range (s.octetsOf n c.savedCores).length).map (s.engineCoord save c.corelim))

/-- A block is lost, or its coordinate names no core, or one of a die that is not live, or the core of another block (R304). -/
def State.cannotBind (s : State) (ws : List Nat × List Nat) : Bool :=
  let cores := ws.1.map coreOfCoord
  ((ws.1 ++ ws.2).any fun w => bit w 63 || (coreOfCoord w).isNone || s.diemaxNow.toNat < fieldOf w 16 3) || !cores.Nodup

/-- Every core and engine window that the context needs is free (R264, R304). -/
def State.canBind (s : State) (n : Nat) (c : Ctx) (accw : Nat) (cores octs : List Nat) : Bool :=
  (cores.all fun k => (s.core k).ctx.isNone && !s.fencedCore k) &&
    octs.all (({ s with ctxs := mput s.ctxs n { c with accw := accw } }).windowFree n)

/-- A message of a core that has another coordinate. -/
def moveMsg (core : Nat) (m : Msg) : Msg := { m with region := m.region.map fun r => (⟨core, r.1.slot⟩, r.2) }

/-- A saved core under another coordinate. -/
def SavedCore.moveTo (k : SavedCore) (core : Nat) : SavedCore :=
  { k with coord := core, core := { k.core with outq := k.core.outq.map (moveMsg core) }, pad := k.pad.map fun p => (p.1 - padKey k.coord 0 + padKey core 0, p.2),
           padTags := k.padTags.map fun p => (p.1 - padKey k.coord 0 / 4 + padKey core 0 / 4, p.2),
           padPoison := k.padPoison.map fun p => (p.1 - padKey k.coord 0 / 4 + padKey core 0 / 4, p.2) }

/-- The value that a table gives for a key, or the key itself. -/
def lookupOr (m : List (Nat × Nat)) (k : Nat) : Nat := match m.find? fun p => p.1 = k with | some p => p.2 | none => k

/-- A context that is out, bound to the coordinates that its blocks name now (R304): cores by `m`, engines by octet by `o`. -/
def Ctx.bind (c : Ctx) (m o : List (Nat × Nat)) : Ctx :=
  { c with savedCores := c.savedCores.map fun k => k.moveTo (lookupOr m k.coord),
           savedJobs := c.savedJobs.map fun p => (lookupOr o p.1, { p.2 with owner := { p.2.owner with core := lookupOr m p.2.owner.core } }),
           savedNb := c.savedNb.map fun p => { p with slot := { p.slot with core := lookupOr m p.slot.core } } }

/-- The groups and engine states of a context follow its blocks (R304). -/
def State.bindBlocks (s : State) (n : Nat) (m o : List (Nat × Nat)) : State :=
  let move (g : Group) : Group :=
    let a := lookupOr m (coreAt g.die g.cluster g.first)
    if g.ctx = n then { g with die := dieOf a, cluster := clusterOf a, first := a % 128 } else g
  { s with
      engs := s.engs.foldl (fun e p => if p.1 % 64 = n then mput e (engKey (lookupOr o (p.1 / 64)) n) p.2 else mput e p.1 p.2) [],
      sched := { s.sched with groups := s.sched.groups.map move } }

/-- The row lies in a retired stack (R304). -/
def State.stackRetired (s : State) (pa : Nat) : Bool := s.repair.retired.contains (.dramStack (pa / 2 ^ 37 % 8))

/-- Holds the listed rows again, with the Crema's lines of them dropped, or drops them into ROWLOST (R212, R214, R265). -/
def State.reholdRows (s : State) (n : Nat) : List (Nat × Hold) → State
  | [] => s
  | (i, h) :: rest =>
    let va := (h.row.map (·.1)).getD 0
    let again : Option Nat := match s.resolve (s.kernelAgent n) va 1 permR with
      | .ok l =>
        let pa := l.keys.headD 0 / 2048 * 2048
        if (s.bufferHeld pa).isSome || h.retired || s.stackRetired pa then none else some pa
      | .error _ => none
    let s := match again with
      | some pa => (s.modCtx n fun c => { c with holds := mput c.holds i { h with row := some (va, pa) } }).cremaDrop pa
      | none => s.modCtx n fun c =>
          { c with holds := mput c.holds i { h with dropped := true, retired := false }, rowlost := c.rowlost ||| BitVec.ofNat 64 (2 ^ (i / 64)) }
    s.reholdRows n rest

/-- A slot as the image of a lost block's slot says, which the kernel has rewritten (R86, R262, R304). What the image does not hold stays: the
launch and a task's join; causes of parked accesses are the value f (log 14). -/
def Slot.ofImage (x : Slot) (bs : List Byte) (f : Word) : Slot :=
  let word (n : Nat) : Word := BitVec.ofNat 64 (dword bs n)
  let half (o : Nat) : BitVec 16 := BitVec.ofNat 16 (leNat ((bs.drop o).take 2))
  let v := (word 243).extractLsb' 8 16
  let a := dword bs 250
  let old : Act := x.act.getD ⟨.task 0 0 false, 3, none⟩
  { x.loadRecord bs with
    pc := word 0 &&& ~~~(3#64), tcause := (word 1).setWidth 8, tval := word 2, tpc := word 240 &&& ~~~(3#64), upvec := word 241 &&& ~~~(2#64),
    upsave := word 242 &&& ~~~(63#64), stage := (word 243).setWidth 8,
    valloc := if v &&& 0x0303#16 = 0 && (v.extractLsb' 0 8).toNat + (v.extractLsb' 8 8).toNat ≤ 128 then v else x.valloc,
    rngseed := if (word 243).extractLsb' 32 16 = 0 then 1 else (word 243).extractLsb' 32 16, joinch := (word 243).extractLsb' 48 5,
    m := Vector.ofFn fun i => if i.val = 0 then x.m[i] else half (0x79E + 2 * i.val), c := Vector.ofFn fun i => half (0x7B0 + 2 * i.val),
    act := if !bit a 0 then none else some { old with src := if bit a 1 then .channel (BitVec.ofNat 5 (a / 4)) else old.src },
    parked := ((List.range (min 64 (dword bs 44))).map (replayAt bs)).map fun e =>
      ⟨BitVec.ofNat 3 e.2.2, BitVec.ofNat 64 e.1, BitVec.ofNat 64 e.2.1, BitVec.ofNat 3 (e.2.2 / 2 ^ 12), BitVec.ofNat 7 (e.2.2 / 2 ^ 16),
        BitVec.ofNat 16 (e.2.2 / 2 ^ 32), f.setWidth 8, BitVec.ofNat 64 (e.1 % 2 ^ 56), 0, 0⟩,
    events := [], trap := none, region := none, wait := .ready, reqs := [], rel := [], acq := [] }

/-- The tag of core vector register r that a core block at `base` holds (R262). -/
def State.blockVt (s : State) (base r : Nat) : Tag :=
  let code := s.read (base + 0x12800 + 1152 + r / 4) 1 / 4 ^ (r % 4) % 4
  if code = 1 then .empty
  else if code = 2 then .poisoned (BitVec.ofNat 8 (s.read (base + 0x12800 + 1024 + r) 1)) (BitVec.ofNat 64 (s.read (base + 0x12800 + 8 * r) 8))
  else .full

/-- A lost core resumes with the contents of its block at `base`, as the kernel has rewritten it; its queues of messages, whose entries have no
layout, are empty (R262, R304; log 14). -/
def SavedCore.ofBlock (k : SavedCore) (s : State) (base : Nat) (f : Word) : SavedCore :=
  let p0 := padKey k.coord 0
  let limit := BitVec.ofNat 8 (s.read (base + 0x1A510) 1)
  let chbase := s.read (base + 0x1A508) 8
  { k with
    lost := false, pad := (mrange s.mem base (base + 65536)).map fun p => (p.1 - base + p0, p.2), padPoison := [],
    padTags := ((List.range 16384).filter fun i => !(s.byte (base + 0x10000 + i / 8)).getLsbD (i % 8)).map fun i => (p0 / 4 + i, false),
    core := { k.core with
      v := Vector.ofFn fun r => Vector.ofFn fun l => BitVec.ofNat 32 (s.read (base + 0x10800 + 64 * r.val + 4 * l.val) 4),
      vt := Vector.ofFn fun r => s.blockVt base r.val, limit := if limit = 0 || 64 < limit.toNat then k.core.limit else limit,
      area := BitVec.ofNat 4 (chbase / 2 ^ 12), svc := bit chbase 16, inq := [], outq := [],
      slots := Vector.ofFn fun i => k.core.slots[i].ofImage (s.bytes (keysFrom (base + 0x13000 + 2048 * i.val) 2048)) f } }

/-- The saved cores as they resume: a lost one from its block. -/
def State.fromBlocks (s : State) (save : Nat) (ks : List SavedCore) : List SavedCore :=
  (ks.zip (List.range ks.length)).map fun p =>
    if p.1.lost then p.1.ofBlock s (save + 131072 + 114688 * p.2) (Config.freeValue s.fresh) else p.1

/-- Restores a core: its slots issue again from their saved pc, its caches are empty and its channel table is loaded from its area (R264, R120, R144). The
limit of a message that has not left runs anew (R281). -/
def State.restoreCore (s : State) (k : SavedCore) : State :=
  let unhalt (x : Slot) : Slot :=
    let x := { x with reqs := x.reqs.map fun r => { r with since := s.time } }
    if x.wait = .halted then { x with wait := .ready } else x
  let s := { s with mem := k.pad.foldl (fun m (p : Nat × Byte) => mset 0 m p.1 p.2) s.mem, tags := k.padTags.foldl (fun m (p : Nat × Bool) => mset true m p.1 p.2) s.tags,
                    poison := k.padPoison.foldl (fun m (p : Nat × Bool) => mset false m p.1 p.2) s.poison }
  (s.setCore k.coord { k.core with dcache := [], icache := [], slots := k.core.slots.map unhalt }).loadTable k.coord

/-- Issues a withdrawn VLDF again, an acquire as at its first issue (R157, R262): a lane that cannot be translated any more poisons the register
(log 25). -/
def State.reissueVldf (s : State) (sl : SlotId) (p : Replay) : State :=
  let v := p.rd.toNat
  let es := (activeLanes p.mask).map fun i => (i, laneAddr p.ptr (i * 4 : Nat))
  let fault := es.findSome? fun e =>
    if isPeer e.2 then none
    else match s.resolve (s.agent sl) e.2 4 permR with
      | .ok _ => none
      | .error c => some (c, if c = cUNCORR then (lineAddr e.2).toNat else e.2)
  match fault with
  | some (c, ea) => s.modCore sl.core fun k => k.setTagV v (.poisoned c (BitVec.ofNat 64 ea))
  | none =>
    let n := s.nextReq
    let r := s.newReqOf sl (.vldf v p.ptr p.mask (es.map fun e => (e.1, BitVec.ofNat 64 e.2)) [] [])
      (es.any fun e => !ownPad sl.core e.2 4) (es.any fun e => isPeer e.2)
    let s := { s.modSlot sl fun x => (x.addReq r).acquire with nextReq := n + 1 }
    let ws := es.filterMap fun e =>
      if isPeer e.2 then none
      else match s.resolve (s.agent sl) e.2 4 permR with
        | .ok l => if l.tagged then some (⟨sl, n, l.keys.headD 0, 4, .lane e.1⟩ : Waiter) else none
        | .error _ => none
    let fs := (es.filter fun e => isPeer e.2).map fun e => (e.1, peerDev e.2, PeerOp.syncLoad (peerOff e.2) 4 false)
    { s with waiters := s.waiters ++ ws }.sendFrames sl n fs

/-- Takes the kind-3 entries of a slot and issues them again (R262). -/
def State.reissue (s : State) (sl : SlotId) : State :=
  let ps := (s.slot sl).parked.filter fun p => p.kind = 3
  if ps = [] then s
  else
    let s := s.modSlot sl fun x => { x with parked := x.parked.filter fun p => p.kind ≠ 3 }
    ps.foldl (fun s p => s.reissueVldf sl p) s

def State.restoreCores (s : State) : List SavedCore → State
  | [] => s
  | k :: rest => (s.restoreCore k).restoreCores rest

/-- Jobs join their octets' queues again, near-bank programs their banks' (R264). -/
def State.restoreJobs (s : State) : List (Nat × Job) → State
  | [] => s
  | (o, j) :: rest => (s.setJobs o (s.jobsOf o ++ [j])).restoreJobs rest

def State.restoreNb (s : State) : List NbProg → State
  | [] => s
  | p :: rest => (s.setNbQueue p.bank (s.nbQueue p.bank ++ [p])).restoreNb rest

/-- RESUME (R264, R304): it waits while a core or a window is not free. -/
def execResume (ctx : Nat) (s : State) : Out :=
  .next (
    let c := s.ctx ctx
    let save := s.entryWord ctx 0x28
    if !s.commanded 2 ctx then s
    else if c.st ≠ .saved && c.st ≠ .stopped then s.finishCmd 1
    else if s.entryResult ctx ≠ 0 then s.finishCmd (BitVec.ofNat 8 (s.entryResult ctx))
    else
      let ws := s.savedCoords ctx c save
      let cores := ws.1.filterMap coreOfCoord
      let octs := ws.2.filterMap fun w => (coreOfCoord w).map octetOf
      if s.cannotBind ws then s.finishCmd 5
      else if !s.canBind ctx c (fieldOf (s.entryWord ctx 0x20) 20 5) cores octs then s
      else
        let m := (c.savedCores.map (·.coord)).zip cores
        let o := (s.octetsOf ctx c.savedCores).zip octs
        let d := c.bind m o
        let ks := s.fromBlocks save d.savedCores
        let s := (s.bindBlocks ctx m o).setCtx ctx { s.loadEntry ctx c with savedCores := [], savedJobs := [], savedNb := [], savedRows := [] }
        let s := s.reholdRows ctx d.savedRows
        let s := ((s.restoreJobs d.savedJobs).restoreNb d.savedNb).restoreCores ks
        let s := { s with fresh := s.fresh + b2n (c.savedCores.any (·.lost)) }.setCtxSt ctx .running
        let s := (cores.flatMap slotIds).foldl State.reissue s
        s.finishCmd 0)

/-! ## Records, interrupts, grants -/

/-- FAULT_RECORD (R258, R259). -/
def execFaultRecord (ctx : Nat) (r : FaultRec) (s : State) : Out := .next (s.queueFault ctx r)

/-- INTERRUPT: the oldest interrupt of a control core is taken by a slot with IE = 1, at an instruction boundary (R249). -/
def execInterrupt (sl : SlotId) (s : State) : Out :=
  .next (
    let x := s.slot sl
    let n := sl.core - computeCores
    if !isControl sl.core || !x.kvec.getLsbD 0 || !x.atBoundary || x.trap.isSome then s
    else match s.sched.ints.find? fun i => i.1 = n with
      | none => s
      | some i =>
        let s := { s with sched := { s.sched with ints := s.sched.ints.erase i } }
        s.modSlot sl fun x =>
          { x with ktpc := x.pc, kcause := BitVec.ofNat 64 (2 ^ 63 + i.2.1.toNat), ktval := i.2.2, kvec := x.kvec &&& ~~~(1#64),
                   pc := x.kvec &&& ~~~(3#64), wait := .ready })

/-- GRANT_LOAD (R276). -/
def execGrantLoad (idx : BitVec 8) (s : State) : Out := .next (s.loadGrant idx.toNat)

/-- RECALL (R276). -/
def execRecall (idx : BitVec 8) (s : State) : Out := .next (s.recallGrant idx.toNat)

/-! ## Spares (R7, R296) -/

/-- The cluster of a core or cluster unit. -/
def clusterOfUnit : RUnit → Option (Nat × Nat)
  | .core c => some (dieOf c, clusterOf c)
  | .cluster d c => some (d, c)
  | _ => none

/-- SPARE_REPLACEMENT: with no context resident on the cluster, a spare takes the coordinate of a fenced core or cluster (R296). -/
def execSpareReplacement (u : RUnit) (s : State) : Out :=
  .next (
    match clusterOfUnit u with
    | none => s
    | some (d, cl) =>
      if !s.repair.fenced.contains u || (s.cores.any fun p => unitCovers (.cluster d cl) p.1 && p.2.ctx.isSome) then s
      else
        let spare := s.countRetired (spareGroup u) - 1
        let n := s.eventsIn u
        let s := s.releaseCores ((s.cores.filter fun p => unitCovers u p.1).map (·.1))
        let r := s.repair
        { s with repair := { r with fenced := r.fenced.filter (· ≠ u), times := r.times.filter fun p => unitOf p.1 ≠ u && !inside u p.1 } }.unitRecord
          4 u 0 spare n)

/-! ## Renumbering dies (R303) -/

/-- The core that a coordinate names once die `a` is called `b`. -/
def recore (a b c : Nat) : Nat := if !isControl c && dieOf c = a then b * 12800 + c % 12800 else c

def reslot (a b : Nat) (sl : SlotId) : SlotId := { sl with core := recore a b sl.core }

def reunit (a b : Nat) (u : RUnit) : RUnit :=
  let die (d : Nat) : Nat := if d = a then b else d
  match u with
  | .core c => .core (recore a b c)
  | .cluster d c => .cluster (die d) c
  | .router d c => .router (die d) c
  | .matrixEngine d c => .matrixEngine (die d) c
  | .copyUnit d c => .copyUnit (die d) c
  | .sramTier d c => .sramTier (die d) c
  | .die d => .die (die d)
  | u => u

/-- An activation's join names its core anew. -/
def react (a b : Nat) (x : Slot) : Slot :=
  { x with act := x.act.map fun t => match t.src with
      | .task c ch xm => { t with src := .task (recore a b c) ch xm }
      | _ => t }

/-- A core of die `b` in an octet in which the context has cores of die `a` too: once `a` is called `b`, its blocks have coordinates that other
blocks of the area have as well. -/
def Ctx.shares (c : Ctx) (a b k : Nat) : Bool :=
  !isControl k && dieOf k = b && c.savedCores.any fun q => !isControl q.coord && dieOf q.coord = a && q.coord % 12800 / 8 = k % 12800 / 8

/-- What the model calls a core of a context that is out once die `a` is called `b`: names of cores that share a coordinate stay apart, by an
offset that no core of the package has, so that each block binds a core of its own (R303, R304; log 61). -/
def Ctx.rename (c : Ctx) (a b apart k : Nat) : Nat := if c.shares a b k then k + apart else recore a b k

/-- The offset of a renumbering. -/
def apartBy (gen : Nat) : Nat := 204800 * (gen + 1)

/-- What a context that is out keeps under coordinates (R303 step 2). -/
def Ctx.renumber (c : Ctx) (a b apart : Nat) : Ctx :=
  let name := c.rename a b apart
  { c with savedCores := c.savedCores.map fun k =>
             let k' := k.moveTo (name k.coord)
             { k' with core := { k'.core with slots := k'.core.slots.map (react a b) } },
           savedJobs := c.savedJobs.map fun p =>
             (octetOf (name p.2.owner.core), { p.2 with owner := { p.2.owner with core := name p.2.owner.core } }),
           savedNb := c.savedNb.map fun p => { p with slot := { p.slot with core := name p.slot.core } } }

/-- Rewrites the coordinate doublewords of the core blocks, then of the engine blocks, of a save area that name die `a` (R303). -/
def State.recoord (s : State) (a b : Nat) : List Nat → State
  | [] => s
  | k :: rest =>
    let w := s.read k 8
    (if fieldOf w 16 3 = a then s.putWords k [w - a * 2 ^ 16 + b * 2 ^ 16] else s).recoord a b rest

/-- Where the coordinate doublewords of a save area stand. -/
def State.coordKeys (s : State) (n : Nat) (c : Ctx) : List Nat :=
  let base := c.save.toNat + 131072
  ((List.range c.savedCores.length).map fun i => base + 114688 * i + 0x1A500) ++
    (List.range (s.octetsOf n c.savedCores).length).map fun i => base + c.corelim * 114688 + 344064 * i + 0x1A500

/-- Renames die `a` to `b` for every context that is out. -/
def State.renameOut (s : State) (a b : Nat) : List Nat → State
  | [] => s
  | n :: rest =>
    let c := s.ctx n
    let s := if c.st = .saved || c.st = .stopped then
        (s.setCtx n (c.renumber a b (apartBy s.repair.diegen.toNat))).recoord a b (s.coordKeys n c)
      else s
    s.renameOut a b rest

/-- A context is out. -/
def State.isOut (s : State) (n : Nat) : Bool := (s.ctx n).st = .saved || (s.ctx n).st = .stopped

/-- Engine states by the octets' new names; those of the retired die stay for the contexts that are out (R303). -/
def State.renameEngs (s : State) (v top : Nat) : SMap EngCtx :=
  s.engs.foldl (fun m p =>
    let (o, n) := (p.1 / 64, p.1 % 64)
    if dieOf (8 * o) = v && !s.isOut n then m
    else mput m (engKey (octetOf ((s.ctx n).rename top v (apartBy s.repair.diegen.toNat) (8 * o))) n) p.2) []

/-- A group by its die's new name. -/
def State.renameGroup (s : State) (v top : Nat) (g : Group) : Group :=
  { g with die := dieOf ((s.ctx g.ctx).rename top v (apartBy s.repair.diegen.toNat) (coreAt g.die g.cluster g.first)) }

/-- Steps 2 to 4 of R303. -/
def State.renumber (s : State) (v top : Nat) : State :=
  let r := s.repair
  let count := s.eventsIn (.die v)
  let physOf (d : Nat) : BitVec 3 := match r.diemap.toList[d]? with | some (_, p) => p | none => 0
  let moved := v ≠ top
  let s := if !moved then s
    else
      let engs := s.renameEngs v top
      let groups := s.sched.groups.map (s.renameGroup v top)
      let s := s.renameOut top v (s.ctxs.map (·.1))
      let mv (l : List RUnit) : List RUnit := (l.filter fun u => !unitOnDie v u).map (reunit top v)
      { s with
          cores := s.cores.filter (fun p => isControl p.1 || (dieOf p.1 ≠ v && dieOf p.1 ≠ top)),
          engs := engs,
          net := s.net.map (fun m => if m.launch.isSome then { m with targets := m.targets.map (recore top v) } else m),
          sched := { s.sched with groups := groups },
          repair := { s.repair with fenced := mv s.repair.fenced, retired := mv s.repair.retired,
                                    times := (s.repair.times.filter fun p => !unitOnDie v p.1).map fun p => (reunit top v p.1, p.2) } }
  let dm := Vector.ofFn fun (i : Fin 8) =>
    if i.val = top then (false, 0) else if i.val = v then (true, physOf top) else r.diemap[i]
  let s := { s with repair := { s.repair with diemap := dm, diegen := r.diegen + 1 } }
  (s.logRecord 7 10 0 none (coordOf (coreAt top 0 0) + (physOf top).toNat * 2 ^ 61) 0 v count).writeEntry (physOf v).toNat.succ |>.writeEntry (physOf top).toNat.succ

/-- DIE_RENUMBERING: the contexts on the retired die and on the top one are descheduled, and once they are out the dies are renumbered
(R303). -/
def execDieRenumbering (die : Nat) (s : State) : Out :=
  .next (
    let top := s.diemaxNow.toNat
    let on := (s.cores.filterMap fun p => if !isControl p.1 && (dieOf p.1 = die || dieOf p.1 = top) then p.2.ctx else none).dedup
    let running := on.filter fun n => (s.ctx n).st = .running
    if !s.repair.fenced.contains (.die die) || top < die then s
    else if running ≠ [] then s.reportUnit (.die die) running
    else if on ≠ [] then s
    else s.renumber die top)

end Sys2Proof.Machine
end

