-- ==== Sys2Proof/Machine/Fabric.lean ====
section
/-!
DEFINITION. The steps of the networks: the cluster torus (R266), the slot table's windows and send queues (R271 to R273), frames that
arrive (R269, R278, R280), peers' accesses, messages, posts and blocks (R275, R277, R286, R290), answers and failures (R279 to R281), and
the alignment of TIME (R308, R309).
-/

namespace Sys2Proof.Machine

/-! ## The cluster torus (R266) -/

/-- Distance on a ring of ten from a to b, going up. -/
def ringUp (a b : Nat) : Nat := (b + 10 - a) % 10

/-- Hops between two routers of the torus; router 10 y + x. -/
def torusDist (a b : Nat) : Nat :=
  let r (p q : Nat) := min (ringUp p q) (ringUp q p)
  r (a % 10) (b % 10) + r (a / 10) (b / 10)

/-- The router at port 0 to 3 of a router. -/
def torusStep (pos port : Nat) : Nat :=
  let x := pos % 10
  let y := pos / 10 % 10
  match port with
  | 0 => y * 10 + (x + 1) % 10
  | 1 => y * 10 + (x + 9) % 10
  | 2 => (y + 1) % 10 * 10 + x
  | _ => (y + 9) % 10 * 10 + x

/-- One element of a list of ports, chosen by a number. -/
def pickOf (l : List Nat) (n : Nat) : Option Nat := l[n % l.length]?

/-- The port that a packet takes at its router: the local port 4 at its target, else a free port that brings it closer, else any
free port (R266). -/
def portFor (used : List (Nat × Nat)) (pos target pick : Nat) : Option Nat :=
  let free := [0, 1, 2, 3].filter fun p => !used.contains (pos, p)
  let good := if pos = target then (if used.contains (pos, 4) then [] else [4])
    else free.filter fun p => torusDist (torusStep pos p) target < torusDist pos target
  pickOf (if good = [] then free else good) pick

/-- The packet after a cy at its router: a delivered one has left the torus. -/
def Packet.move (p : Packet) (port : Nat) : Option Packet :=
  if port = 4 then none else some { p with pos := torusStep p.pos port, age := min 4095 (p.age + 1) }

/-- Assigns ports in rank order: the packets of a die after the cy, and the ports taken. A packet that finds no port stays. -/
def moveAll : List Packet → List Nat → List (Nat × Nat) → List Packet × List (Nat × Nat)
  | [], _, used => ([], used)
  | p :: rest, picks, used =>
    match portFor used p.pos p.target (picks.headD 0) with
    | none => let r := moveAll rest picks.tail used; (p :: r.1, r.2)
    | some port => let r := moveAll rest picks.tail ((p.pos, port) :: used); ((p.move port).toList ++ r.1, r.2)

/-- A core injects a packet where its router has a free output port (R266). -/
def injectAll (die : Nat) : List (Nat × Nat) → List Nat → List (Nat × Nat) → List Packet
  | [], _, _ => []
  | (src, target) :: rest, picks, used =>
    match portFor used src target (picks.headD 0) with
    | none => injectAll die rest picks.tail used
    | some port => ((⟨die, src, src, target, 0⟩ : Packet).move port).toList ++ injectAll die rest picks.tail ((src, port) :: used)

/-- ROUTER_CYCLE: one cy of the torus of a die. `picks` chooses where the rule allows several ports; `inject` are the packets that
cores offer, as source and target cluster (R266). -/
def execRouterCycle (die : Nat) (picks : List Nat) (inject : List (Nat × Nat)) (s : State) : Out :=
  .next (
    let here := s.fab.torus.filter fun p => p.die = die
    let ranked := sortBy (fun p => [4095 - p.age, p.src]) here
    let r := moveAll ranked picks []
    let new := injectAll die (inject.filter fun q => q.1 < 100 && q.2 < 100) (picks.drop ranked.length) r.2
    { s with fab := { s.fab with torus := s.fab.torus.filter (fun p => p.die ≠ die) ++ r.1 ++ new } })

/-! ## The slot table's clock (R271, R273) -/

/-- SLOT_BOUNDARY: which slot is current follows from TIME (R271). -/
def execSlotBoundary (s : State) : Out := .next s

/-- Number of the rotation of the table in force at a time. -/
def Fabric.rotation (f : Fabric) (time : Nat) : Nat := (time - f.rotbase.toNat) / f.period

/-- A rotation boundary has passed since the last pending load completed (R273). -/
def Fabric.turned (f : Fabric) (time : Nat) : Bool :=
  f.running time && f.pending && (f.period = 0 || f.rotation f.pendAt < f.rotation time)

/-- Pending loads take effect (R273). -/
def State.rotate (s : State) : State :=
  let f := s.fab
  if f.turned s.time then
    let (ctrl, base) := f.pendCtrl.getD (f.ctrl, f.rotbase)
    { s with fab := { f with slots := putSlots f.slots f.pendSlots, ctrl := ctrl, rotbase := base, pendSlots := [], pendCtrl := none } }
  else s

/-- ROTATION_BOUNDARY (R273). -/
def execRotationBoundary (s : State) : Out := .next s.rotate

/-! ## Frames -/

/-- The frame is an answer. -/
def isReply : FrameBody → Bool
  | .reply .. => true
  | _ => false

/-- The frame is a block of PCOLL. -/
def isBlockBody : FrameBody → Bool
  | .block .. => true
  | _ => false

/-- The frame is numbered among those of its source slot to its device, which are applied in that order (R267, R278); PCOLL's blocks may
overtake (R286). -/
def isNumbered : FrameBody → Bool
  | .access _ | .msg _ | .post .. => true
  | _ => false

/-- The answer that says that an answer has arrived (R290; log 26). -/
def isReceipt : FrameBody → Bool
  | .reply code _ _ => code = 14
  | _ => false

/-- The port die keeps a copy of the frame (R279); that of a pull until the frame that it asks for comes. A receipt is an acknowledgement itself,
which nothing acknowledges (log 26). -/
def isKept (b : FrameBody) : Bool := !isReceipt b

/-- The frame has a payload that trimming drops (R280). -/
def isTrimmable : FrameBody → Bool
  | .pull _ | .withdraw => false
  | b => !isReceipt b

/-- A frame of this package's own request. -/
def asks (f : Frame) (sl : SlotId) (req : Nat) : Bool :=
  f.slot = sl && f.req = req && !isReply f.body && f.body ≠ .pull false && f.body ≠ .pull true && f.body ≠ .withdraw

/-- A frame about the same element of the same request. -/
def sameElement (f g : Frame) : Bool := f.slot = g.slot && f.req = g.req && f.elem = g.elem

/-- Key of a slot and a device in the tables of sequence numbers. -/
def flowKey (dev : Nat) (sl : SlotId) : Nat := dev * 2 ^ 19 + sl.core * 4 + sl.slot.val

/-- What an access asks: offset, bytes and permission (R275). -/
def peerAsk : PeerOp → Nat × Nat × Perm
  | .read o n => (o, n, permR)
  | .write o bs => (o, bs.length, permW)
  | .put o bs _ => (o, bs.length, permW)
  | .tag o _ => (o, 4, permW)
  | .syncLoad o n e => (o, n, if e then permRW else permR)
  | .syncStore o bs _ => (o, bs.length, permW)
  | .amo _ wide o _ _ => (o, amoBits wide / 8, permRW)
  | .ship e _ wide o _ _ =>
    let f := footprint e wide (BitVec.ofNat 64 o)
    (f.1, f.2, permRW)
  | .chain o => (o, 8, permR)

/-- The effective address that a frame's access began at. -/
def frameEa (f : Frame) : Nat :=
  match f.body with | .access op => winEnd + f.dst * 2 ^ 40 + (peerAsk op).1 | _ => 0

/-! ## Requests that end -/

/-- Element `elem` of a request has not ended. -/
def ReqKind.waitsFor (k : ReqKind) (elem : Nat) : Bool :=
  match k with
  | .vld _ _ _ es _ => es.any fun e => e.1 = elem
  | .vldf _ _ _ es _ _ => es.any fun e => e.1 = elem
  | .vst ws => ws.any fun w => w.1 = elem
  | _ => true

/-- An element of a request of a slot or a job to a peer fails with a code of R281. -/
def State.failRequest (s : State) (sl : SlotId) (req elem dev code : Nat) : State :=
  match (s.slot sl).req req with
  | some r => if r.kind.waitsFor elem then s.remoteFail sl req elem code dev else s
  | none => s.answerJob sl req code []

/-- An element of a request met uncorrectable data at its target: it ends as on this package (R74, R75, R76, R108, R109, R209, R297). -/
def State.uncorrRequest (s : State) (sl : SlotId) (req elem : Nat) (ea : Nat) : State :=
  match (s.slot sl).req req with
  | none => s.answerJob sl req 12 []
  | some r =>
    match r.kind with
    | .ldn rd .. => s.modSlot sl fun x => ((x.dropReq req).poisonG rd cUNCORR (lineAddr ea)).wake
    | .vld .. | .vldf .. => s.laneFails sl req elem cUNCORR (lineAddr ea)
    | .load .. | .amo .. | .store .. | .image .. => s.failAccess sl req ea
    | .st .. => (s.modSlot sl fun x => x.dropReq req).slotFault sl 2 cUNCORR (lineAddr ea) 0
    | .vst .. => (s.vstEnds sl req [elem]).slotFault sl 2 cUNCORR (lineAddr ea) 0
    | .chain rd p step _ steps _ => s.chainFail sl req rd step 7 (stepAddr p (steps.headD (0, 0)).1)
    | _ => s.modSlot sl fun x => x.dropReq req

/-- A blocking load is answered: LDF and LDFE end in an acquire (R74, R157, R160). -/
def State.endLoad (s : State) (sl : SlotId) (req : Nat) (rd : Reg) (v : Word) (acquires : Bool) : State :=
  if acquires then (s.modSlot sl fun x => (x.completeLoad req rd v).acquire).dropLines sl.core
  else s.modSlot sl fun x => x.completeLoad req rd v

/-- The access waits on a tag at its target, or acts on one (R160). -/
def syncs : PeerOp → Bool
  | .syncLoad .. => true
  | _ => false

/-- The peer has performed an element of a request: values land, stores are acknowledged (R73 to R78, R108 to R111, R160, R162, R205, R208,
R239, R288). -/
def State.performRequest (s : State) (sl : SlotId) (req : Nat) (f : Frame) (data : List Byte) : State :=
  let v : Word := BitVec.ofNat 64 (leNat data)
  match (s.slot sl).req req with
  | none => s.answerJob sl req 0 data
  | some r =>
    match r.kind with
    | .ldn rd z _ _ => s.modSlot sl fun x => ((x.dropReq req).writeG rd (extend z data)).wake
    | .vld _ w fmt .. => s.vldEnds sl req [f.elem] (elemLanes fmt.toNat w f.elem data) []
    | .vldf .. => s.vldfLane sl req f.elem (BitVec.ofNat 32 (leNat data))
    | .vst .. => s.vstEnds sl req [f.elem]
    | .load rd z _ _ => s.endLoad sl req rd (extend z data) (match f.body with | .access op => syncs op | _ => false)
    | .amo rd wide zext acq =>
      let t := if acq then s.dropLines sl.core else s
      t.modSlot sl fun x => x.completeLoad req rd (amoResult (if zext then 10 else 0) wide (leNat data))
    | .store .. => s.modSlot sl fun x => x.complete req
    | .ship _ rd true _ _ _ _ => s.modSlot sl fun x => ((x.dropReq req).writeG rd v).wake
    | .chain rd _ step visits ((_, mask) :: rest) loc => s.chainNext sl req rd (v &&& mask) step visits rest loc
    | .image op rd _ gb =>
      let (t, w) := s.imageDone (s.ctxOf sl) op gb data
      t.modSlot sl fun x => x.completeLoad req rd w
    | _ => s.modSlot sl fun x => (x.dropReq req).wake

/-- The limit of a request runs again from now (R280). -/
def State.restartLimit (s : State) (sl : SlotId) (req : Nat) : State :=
  s.modSlot sl fun x => { x with reqs := x.reqs.map fun q => if q.num = req then { q with since := s.time } else q }

/-- What the answer to a frame does to its request; the codes beside those of R281 are in log 26. -/
def State.answered (s : State) (f : Frame) (code : Nat) (data : List Byte) : State :=
  if code = 0 then s.performRequest f.slot f.req f data
  else if code = 12 then s.uncorrRequest f.slot f.req f.elem (frameEa f + leNat data)
  else if code = 16 then s.withdrawn f.slot f.req
  else s.failRequest f.slot f.req f.elem f.dst code

/-- An answer of a device reaches this package (R278 to R281). A message that a full inbound queue refused stays with its target; a receipt
ends the copy of an answer; any other answer ends the copies of its frame, and the frame's part in its request. -/
def State.acked (s : State) (sl : SlotId) (req elem dev code : Nat) (data : List Byte) : State :=
  let own (f : Frame) : Bool := f.slot = sl && f.req = req && f.elem = elem && f.dst = dev
  if code = 14 then
    { s with fab := { s.fab with sent := s.fab.sent.filter fun f => !(own f && isReply f.body) } }
  else
    match s.fab.sent.find? fun f => own f && asks f sl req with
    | none => s
    | some f =>
      if code = 13 then s.restartLimit sl req
      else
        let gone (g : Frame) : Bool := own g && g.body = .withdraw
        { s with fab := { s.fab with
            sent := (s.fab.sent.erase f).filter (fun g => !gone g), queue := s.fab.queue.filter fun g => !gone g } }.answered f code data

/-- ACKNOWLEDGEMENT: the answer of a peer to an element of a request (R281, R282, R290). -/
def execAcknowledgement (sl : SlotId) (part : Nat × Nat) (dev code : Nat) (data : List Byte) (s : State) : Out :=
  .next (s.acked sl part.1 part.2 dev code data)

/-- Every element of a request that frames still stand for fails with a code of R281; the frames that have not left are dropped (R281). -/
def State.failFrames (s : State) (sl : SlotId) (req code : Nat) : State :=
  let fs := (s.fab.queue ++ s.fab.sent).filter fun f => asks f sl req
  let s := { s with fab := { s.fab with queue := s.fab.queue.filter fun f => !(asks f sl req && f.seq = 0) } }
  fs.foldl (fun t f => t.failRequest sl req f.elem f.dst code) s

/-- A message of a request that has not left its core fails with code 4, and is dropped (R281, R282). -/
def State.failMessage (s : State) (sl : SlotId) (req : Nat) : State :=
  match (s.core sl.core).outq.find? fun m => m.region = some (sl, req) with
  | none => s
  | some m =>
    (s.modCore sl.core fun c => { c with outq := c.outq.filter fun m => m.region ≠ some (sl, req) }).failRequest sl req 0
      (m.dest.extractLsb' 40 15).toNat 4

/-- A job of the slot waits for a peer's answer to a request, longer than TLIM (R281). -/
def State.jobLate (s : State) (sl : SlotId) (req : Nat) : Bool :=
  let late (since : Nat) : Bool := since + s.fab.tlim ≤ s.time
  (s.octJobs sl.core).any fun j => j.owner = sl &&
    ((match j.ask with | some a => a.num = req && a.stage ≠ 2 && a.answer.isNone && late a.since | none => false) ||
      j.sends.any fun b => b.num = req && b.st = .out && late b.since)

/-- REMOTE_TIME_LIMIT: no answer within TLIM of issue (R281). -/
def execRemoteTimeLimit (sl : SlotId) (req : Nat) (s : State) : Out :=
  .next (
    let slotLate := match (s.slot sl).req req with | some r => r.peer && r.since + s.fab.tlim ≤ s.time | none => false
    if slotLate then (s.failMessage sl req).failFrames sl req 4
    else if s.jobLate sl req then s.failFrames sl req 4
    else s)

/-- The device that a port die serves in the current slot. -/
def Fabric.peerAt (f : Fabric) (time port : Nat) : Option Nat :=
  (f.current time).bind fun c => (f.table[c.1]?).bind fun e => slotDest e port

/-- The unacknowledged frames of requests that a port die sent to a device, or to any. -/
def Fabric.unacked (f : Fabric) (port : Nat) (dev : Option Nat) : List Frame :=
  f.sent.filter fun g => g.port = port && asks g g.slot g.req && (dev.isNone || dev = some g.dst)

/-- LINK_DOWN: the port die has lost its circuit to the device it serves; the requests it left unacknowledged fail with code 1 (R281). Their
copies stay until the target acknowledges them (R279). -/
def execLinkDown (port : Nat) (s : State) : Out :=
  .next ((s.fab.unacked port (s.fab.peerAt s.time port)).foldl (fun t f => t.failRequest f.slot f.req f.elem f.dst 1) s)

/-! ## Sending (R272, R279, R306) -/

/-- The ns that a block is charged on a port die (R272, R306). -/
def Fabric.charge (f : Fabric) (port bytes : Nat) : Nat :=
  let l := if h : port < 4 then f.waves[port] else 0
  (bytes * 192 + 1024 * l - 1) / (1024 * l)

/-- The end of the window that is open now. -/
def Fabric.windowEnd (f : Fabric) (time : Nat) : Nat :=
  match f.current time with
  | some (n, o) => match f.table[n]? with | some e => time - o + (slotLen e - slotGuard e) | none => 0
  | none => 0

/-- TIME at which a port die would have sent a block that it starts now or after the block it sends. -/
def Fabric.blockEnd (f : Fabric) (time port bytes : Nat) : Nat :=
  max time (if h : port < 4 then f.busy[port] else 0) + f.charge port bytes

/-- Bytes of a block. -/
def blockSize : FrameBody → Nat
  | .block _ bs .. => bs.length
  | _ => 0

/-- The port die whose turn it is to serve a device: the next after the last that sent to it, among those whose window is open (R272). -/
def Fabric.portTurn (f : Fabric) (time dev : Nat) : Option Nat :=
  let last := mget 3 f.turn dev
  (((List.range 4).map fun i => (last + 1 + i) % 4).find? fun p => f.open? time p dev)

/-- The port die has room for another retransmit copy (R279). -/
def Fabric.roomAt (f : Fabric) (port : Nat) : Bool := (f.sent.filter fun g => g.port = port).length ≤ Config.retransmitSpace

/-- The number of a frame, given when it first leaves (R267, R278). -/
def Fabric.numberOf (f : Fabric) (g : Frame) : Nat :=
  if g.seq = 0 && isNumbered g.body then mget 0 f.next (flowKey g.dst g.slot) + 1 else g.seq

/-- A frame leaves by a port die, which keeps a copy until it is acknowledged (R279, R280); a block occupies the die for its charge (R272). -/
def State.transmit (s : State) (port : Nat) (f : Frame) : State :=
  let fab := s.fab
  let seq := fab.numberOf f
  let ends := fab.blockEnd s.time port (blockSize f.body)
  let block := isBlockBody f.body
  { s with fab := { fab with
      queue := fab.queue.erase f,
      next := if isNumbered f.body && f.seq = 0 then mset 0 fab.next (flowKey f.dst f.slot) seq else fab.next,
      sent := if isKept f.body then fab.sent ++ [{ f with port := port, seq := seq }] else fab.sent,
      turn := mset 3 fab.turn f.dst port,
      leaving := if block then (f.dst, ends) :: fab.leaving.filter (fun p => s.time < p.2) else fab.leaving,
      busy := if h : port < 4 then (if block then fab.busy.set port ends h else fab.busy) else fab.busy } }

/-- WINDOW_SEND: the port die whose turn it is serves the first packet, or the first block, of the queue of a device while its window is
open; a block only if its charge ends by the end of the window (R272); a frame only if the die has room for its copy (R279). -/
def execWindowSend (port dev : Nat) (block : Bool) (s : State) : Out :=
  .next (
    if s.fab.portTurn s.time dev ≠ some port then s
    else match s.fab.queue.find? fun f => f.dst = dev && isBlockBody f.body == block with
      | none => s
      | some f =>
        if block && s.fab.windowEnd s.time < s.fab.blockEnd s.time port (blockSize f.body) then s
        else if isKept f.body && !s.fab.roomAt port then s
        else s.transmit port f)

/-! ## Receiving (R269, R278, R280) -/

/-- The frame is sent again from its copy (R269, R280). -/
def State.resend (s : State) (f : Frame) (trims : Nat) : State :=
  { s with fab := { s.fab with sent := s.fab.sent.erase f, queue := { f with trims := trims } :: s.fab.queue } }

/-- A pull for a trimmed frame reaches the source: it is sent again, or its request fails at the ninth trim (R280). -/
def State.pulled (s : State) (f : Frame) : State :=
  if f.trims < 8 then s.resend f (f.trims + 1)
  else
    let t := { s with fab := { s.fab with sent := s.fab.sent.erase f } }
    if isReply f.body then t else t.failRequest f.slot f.req f.elem f.dst 3

/-- PULL: a copy, by its place, is sent again, because its frame was trimmed (R280), or discarded on a circuit that was set wrongly (R269). -/
def execPull (which : Nat × Bool) (s : State) : Out :=
  .next (
    match s.fab.sent[which.1]? with
    | some f => if which.2 && isTrimmable f.body then s.pulled f else s.resend f f.trims
    | none => s)

/-- The copy that a pull of a device asks for. -/
def State.copyFor (s : State) (f : Frame) (reply : Bool) : Option Frame :=
  s.fab.sent.find? fun g => sameElement f g && g.dst = f.src && isReply g.body == reply && isTrimmable g.body

/-- The last number of a flow whose frame has been taken in. -/
def Fabric.taken (f : Fabric) (g : Frame) : Nat := mget 0 f.expect (flowKey g.src g.slot)

/-- An access of a peer leaves the queue in which it waits for a tag, and the one that it waits in to be applied, if it has been taken in; one
that has not come is passed over when it comes (R161). What has been answered is not withdrawn. -/
def State.withdrawPeer (s : State) (f : Frame) : State :=
  let same (g : Frame) : Bool := g.src = f.src && sameElement f g
  let waits (w : Waiter) : Bool := match w.kind with | .peer g _ _ _ => same g | _ => false
  let arrived := s.fab.arrived.filter fun (g : Frame) => !same g
  if s.fab.taken f < f.seq then
    { s with fab := { s.fab with held := (s.fab.held.filter fun (p : Bool × Frame) => !same p.2) ++ [(true, f)] } }.answer f 16 [] none
  else if s.waiters.any waits then { s with waiters := s.waiters.filter fun (w : Waiter) => !waits w }.answer f 16 [] none
  else if arrived ≠ s.fab.arrived then { s with fab := { s.fab with arrived := arrived } }.answer f 16 [] none
  else s

/-- A frame that nothing holds back is taken in: an answer ends its request, with a receipt to its source; a pull has its frame sent again;
the rest waits for the step that applies it. -/
def State.takeFrame (s : State) (f : Frame) : State :=
  match f.body with
  | .reply code data _ =>
    let t := s.acked f.slot f.req f.elem f.src code data
    if code = 14 then t else t.answer f 14 [] none
  | .pull reply => match s.copyFor f reply with | some g => s.pulled g | none => s
  | .withdraw => s.withdrawPeer f
  | _ => { s with fab := { s.fab with arrived := s.fab.arrived ++ [f] } }

/-- The next frame of a flow is taken in, or passed over if its operation has failed, and then those held behind it that are next (R280). -/
def State.takeNext (s : State) (failed : Bool) (f : Frame) : Nat → State
  | 0 => s
  | fuel + 1 =>
    let t := { s with fab := { s.fab with expect := mset 0 s.fab.expect (flowKey f.src f.slot) f.seq } }
    let t := if failed then t else t.takeFrame f
    match t.fab.held.find? fun p => flowKey p.2.src p.2.slot = flowKey f.src f.slot && p.2.seq = f.seq + 1 with
    | none => t
    | some p => { t with fab := { t.fab with held := t.fab.held.erase p } }.takeNext p.1 p.2 fuel

/-- A frame arrives whole, or one that failed stands for it: in its turn it is taken in; ahead of its turn it is held behind the gap; a frame
that came before is dropped (R278, R280). Frames without a number have no turn. -/
def State.arrive (s : State) (failed : Bool) (f : Frame) : State :=
  if !isNumbered f.body || f.seq = 0 then (if failed then s else s.takeFrame f)
  else if f.seq ≤ s.fab.taken f then s
  else if s.fab.held.any fun p => flowKey p.2.src p.2.slot = flowKey f.src f.slot && p.2.seq = f.seq then s
  else if f.seq = s.fab.taken f + 1 then s.takeNext failed f (s.fab.held.length + 1)
  else { s with fab := { s.fab with held := s.fab.held ++ [(failed, f)] } }

/-- A received frame is trimmed: a pull goes back, and its number stays open; at the ninth trim the operation fails with code 3 (R280). A
failed answer fails the request it answers. -/
def State.trim (s : State) (f : Frame) : State :=
  if f.trims < 8 then s.sendFrame f.src f.slot f.req f.elem (.pull (isReply f.body))
  else if isReply f.body then (s.acked f.slot f.req f.elem f.src 3 []).answer f 14 [] none
  else (s.answer f 3 [] none).arrive true f

/-- A frame that a pull asked for has come: the copy of the pull goes (R279, R280). -/
def State.dropPulls (s : State) (f : Frame) : State :=
  { s with fab := { s.fab with sent := s.fab.sent.filter fun g => !(g.body = .pull (isReply f.body) && sameElement f g && g.dst = f.src) } }

/-- FRAME_RECEIVE: a frame from another device than the current slot names for the port die is discarded (R269); `full` says that the
receiving buffer is more than three quarters full, and a frame with a payload is trimmed (R280); later frames of its source slot are held
(R278). -/
def execFrameReceive (port : Nat) (full : Bool) (f : Frame) (s : State) : Out :=
  .next (
    if s.fab.peerAt s.time port ≠ some f.src || f.dst ≠ s.fab.devno.toNat then s
    else
      let s := s.dropPulls f
      if full && isTrimmable f.body then s.trim f else s.arrive false f)

/-! ## Serving peers (R275 to R278, R286, R290) -/

/-- The frame is the next of its source slot to be applied (R278); PCOLL's blocks have no order (R286). -/
def State.firstArrived (s : State) (f : Frame) : Bool :=
  match s.fab.arrived.find? fun g => g.src = f.src && g.slot = f.slot && (isBlockBody g.body == isBlockBody f.body) with
  | some g => g = f || (isBlockBody f.body && s.fab.arrived.contains f)
  | none => false

def State.takeArrived (s : State) (f : Frame) : State :=
  { s with fab := { s.fab with arrived := s.fab.arrived.erase f } }

/-- The grant entry that serves n bytes at an offset (R275). -/
def Fabric.grantFor (f : Fabric) (dev off n : Nat) : Option (Nat × Grant) :=
  f.grants.find? fun p => p.2.gdev.toNat = dev && p.2.wlo ≤ off && off + n ≤ p.2.whi

def Grant.allows (g : Grant) (p : Perm) : Bool := (!p.r || g.r) && (!p.w || g.w)

/-- The keys / 4 of words of a peer's window, given by offset / 4, of which an access at an offset reaches a byte (R147). -/
def windowWords (off : Nat) (keys full : List Nat) : List Nat :=
  full.filterMap fun w => ((keys.zip (List.range keys.length)).find? fun p => (off + p.2) / 4 = w).map fun p => p.1 / 4

/-- Performs a peer's access at its translated place and answers it, or lets it wait for a tag there (R148, R275). Code 12 comes with the
place of the first poisoned word in the access (log 26). -/
def State.serveOp (s : State) (f : Frame) (op : PeerOp) (entry ctx va : Nat) (l : Loc) : State :=
  let bad := s.isPoisoned l.keys
  let done (t : State) (data : List Byte) : State := t.answer f 0 data (some entry)
  let fail (c : Nat) : State := s.answer f c [] (some entry)
  let uncorr : State := s.answer f 12 (toBytes 8 (l.keys.findIdx fun k => s.isPoisoned [k])) (some entry)
  let waits : State := { s with waiters := s.waiters ++ [⟨⟨allCores, 0⟩, f.req, l.keys.headD 0, l.keys.length, .peer f entry ctx va⟩] }
  match op with
  | .read .. | .chain _ => if bad then uncorr else done s (s.bytes l.keys)
  | .write _ bs => if s.canMerge l.keys then done (s.put l.keys bs) [] else uncorr
  | .put off bs full => if s.canMerge l.keys then done ((s.put l.keys bs).retag (windowWords off l.keys full) true) [] else uncorr
  | .tag _ full => if l.tagged then done (s.retag (tagWords l) full) [] else fail 6
  | .syncLoad _ _ empties =>
    if empties && !l.tagged then fail 6
    else if s.locFull l then
      (if bad then uncorr else done (if empties then s.retag (tagWords l) false else s) (s.bytes l.keys))
    else waits
  | .syncStore _ bs waitsEmpty =>
    if waitsEmpty && !l.tagged then fail 6
    else if !waitsEmpty || s.locEmpty l then
      (if s.canMerge l.keys then done ((s.put l.keys bs).retag (tagWords l) true) [] else uncorr)
    else waits
  | .amo fn wide _ b o =>
    if bad then uncorr
    else
      let n := amoBits wide
      let old := leNat (s.bytes l.keys)
      done (s.put l.keys (toBytes (n / 8) (amoNew fn n old (b.toNat % 2 ^ n) (o.toNat % 2 ^ n)))) (s.bytes l.keys)
  | .ship e reply wide off b o =>
    let p : Word := BitVec.ofNat 64 (winEnd + s.fab.devno.toNat * 2 ^ 40 + off)
    if bad || s.shipBits e ≠ (reply, wide) then fail 6
    else match s.routine e p b o (footprint e wide p).1 l.keys with
      | none => fail 6
      | some (bs, ws, v) => done ((s.put l.keys bs).retag ws true) (toBytes 8 v.toNat)

/-- The code of an access that its translation or permission refuses at the target (R281); a chain's step learns of a page that is not
mapped (R208, R209), and every access but a call of uncorrectable data that the walk met (R205, R297; log 26). -/
def refusal (op : PeerOp) (cause : BitVec 8) : Nat :=
  match op with
  | .chain _ => if cause = cPAGEFAULT then 15 else if cause = cUNCORR then 12 else 6
  | .ship .. => 6
  | _ => if cause = cUNCORR then 12 else 6

/-- A peer's access is performed: the Crema sees it, or drops the line of a call's footprint (R145, R202, R205). -/
def State.peerUsed (s : State) (ag : Agent) (va n : Nat) (op : PeerOp) : State :=
  match op with | .ship .. => s.shipped ag va n | _ => s.used ag va n

/-- PEER_ACCESS: a peer's access is served through the lowest grant entry that covers it (R275), in its turn at a bank where a near-bank unit is
at work (R218, R223), a write after the forwarded stores that come before it (R152). -/
def execPeerAccess (f : Frame) (s : State) : Out :=
  .next (
    match f.body with
    | .access op =>
      if !s.firstArrived f then s
      else
        let (off, n, perm) := peerAsk op
        let t := s.takeArrived f
        match s.fab.grantFor f.src off n with
        | none => t.answer f 2 [] none
        | some (i, g) =>
          let ag := s.kernelAgent g.ctx.toNat
          let va := g.vabase + (off - g.wlo)
          if g.recalled then s
          else if !g.allows perm then t.answer f 6 [] (some i)
          else match s.resolve ag va n perm with
            | .error c => t.answer f (refusal op c) [] (some i)
            | .ok l =>
              if !s.bankOpen (.peer f) l then s.joinBank (.peer f) l.bank
              else if perm.w && s.sliceOver computeCores l.keys then s
              else (t.peerUsed ag va n op).serveOp f op i g.ctx.toNat va l
    | _ => s)

/-- A message of a device goes to the context of the lowest grant entry with MSG, or is dropped with an error-log record (R277). -/
def State.routeMsg (s : State) (dev : Nat) (m : Msg) : State :=
  match s.fab.grants.find? fun p => !p.2.recalled && p.2.gdev.toNat = dev && p.2.msg with
  | some (_, g) => s.post { m with ctx := g.ctx.toNat, fabric := true, refused := false, launch := none, after := [] }
  | none => (s.logRecord 11 0 cACCESS.toNat none m.dest.toNat 0 0 8).ackMsg { m with fabric := true } 0

/-- PEER_MESSAGE: a message of a peer enters this package (R277), and is answered once it is accepted (R282). -/
def execPeerMessage (dev : Nat) (m : Msg) (s : State) : Out :=
  .next (
    match s.fab.arrived.find? fun f => f.src = dev && f.body = .msg m with
    | none => s
    | some f => if s.firstArrived f then (s.takeArrived f).routeMsg dev { m with region := some (f.slot, f.req) } else s)

/-- A peer's post is accepted under a grant entry with BREW whose context owns the brew table (R277). -/
def State.brewGranted (s : State) (dev : Nat) : Bool :=
  s.fab.grants.any fun p => !p.2.recalled && p.2.brew && p.2.gdev.toNat = dev && s.ownsBrew p.2.ctx.toNat

/-- A post of this package reaches its channel (R241); posts of one slot to one channel keep their order. -/
def State.ownPost (s : State) (idx : Nat) (p : Post) : State :=
  if (s.posts.take idx).any fun q => q.slot = p.slot && q.dependence = p.dependence && q.ch = p.ch then s
  else ({ s with posts := s.posts.eraseIdx idx }.raise p.dependence p.ctx p.ch p.count).modSlot p.slot fun x => (x.dropReq p.req).wake

/-- A post of a peer reaches its brew channel, if it is accepted, and is answered (R241, R277, R282). -/
def State.peerPost (s : State) (f : Frame) : State :=
  match f.body with
  | .post _ ch count =>
    if !s.firstArrived f then s
    else if s.brewGranted f.src then ((s.takeArrived f).raise false 0 ch count).answer f 0 [] none
    else (s.takeArrived f).answer f 2 [] none
  | _ => s

/-- BRWPOST_ARRIVAL: post `idx` of this package's, or past them of the frames that have arrived, reaches its channel (R241). -/
def execBrwpostArrival (idx : Nat) (s : State) : Out :=
  .next (
    match s.posts[idx]? with
    | some p => s.ownPost idx p
    | none => match s.fab.arrived[idx - s.posts.length]? with | some f => s.peerPost f | none => s)

/-- BLOCK_APPLY: a block of a peer's PCOLL is applied wholly and once, with its NOTIFY, and acknowledged (R286, R287, R290). -/
def execBlockApply (f : Frame) (s : State) : Out :=
  .next (
    match f.body with
    | .block off bs reduce w sender xm =>
      if !s.firstArrived f then s
      else
        let t := s.takeArrived f
        let perm := if reduce then permRW else permW
        if s.fab.applied.contains (f.src, f.slot, f.req) then t.answer f 0 [] none
        else match s.fab.grantFor f.src off bs.length with
          | none => t.answer f 2 [] none
          | some (i, g) =>
            if g.recalled then s
            else if !g.allows perm then t.answer f 6 [] (some i)
            else match s.blockLocs (.peer f) (s.kernelAgent g.ctx.toNat) perm (bs.length / 2048 + 2) (g.vabase + (off - g.wlo)) bs.length with
              | .error e => if e.1 = 0 then s.joinBank (.peer f) (e.2 - 1) else t.answer f 6 [] (some i)
              | .ok keys =>
                if s.sliceOver computeCores keys then s
                else if !s.blockFits keys reduce then t.answer f 12 [] (some i)
                else
                  let t := t.applyBlock keys bs reduce
                  let t := { t with fab := { t.fab with applied := (f.src, f.slot, f.req) :: t.fab.applied } }
                  let t := if w = 0 then t
                    else t.routeMsg f.src ⟨w, sender, xm, 0, some 1, [], [destCore w], false, true, none, none, []⟩
                  t.answer f 0 [] (some i)
    | _ => s)

/-! ## Alignment of TIME (R308, R309) -/

/-- Period TPER in ns (R308). -/
def Repair.period (r : Repair) : Nat := (r.timectl.extractLsb' 12 20).toNat * 1000

/-- An entry names a device at a live port die. -/
def Fabric.names (f : Fabric) (e : Word × Word) (dev : Nat) : Bool := [0, 1, 2, 3].any fun p => slotDest e p = some dev && f.portLive p

/-- Before slot n, which starts at TIME t, a window of the table that names a device ended after `start`; `fuel` slots are looked at. -/
def Fabric.namedSince (f : Fabric) (dev start : Nat) : Nat → Nat → Nat → Bool
  | 0, _, _ => false
  | fuel + 1, n, t =>
    let k := (n + f.table.length - 1) % f.table.length
    match f.table[k]? with
    | none => false
    | some e =>
      if t ≤ start || t < f.rotbase.toNat + slotLen e then false
      else (f.names e dev && start < t - slotGuard e && slotGuard e < slotLen e) || f.namedSince dev start fuel k (t - slotLen e)

/-- A window that names a device is open now, and it is the first that does since `start` (R308). -/
def Fabric.firstWindow (f : Fabric) (time dev start : Nat) : Bool :=
  ([0, 1, 2, 3].any fun p => f.open? time p dev) &&
    match f.current time with
    | some (n, o) => !f.namedSince dev start f.table.length n (time - o)
    | none => false

/-- An exchange with the master can take place: with SRC in the first window of the period that names it (R308). -/
def State.meetsMaster (s : State) : Bool :=
  s.repair.timectl.getLsbD 0 ||
    s.fab.firstWindow s.time (s.repair.timectl.extractLsb' 32 15).toNat (s.repair.periodEnd - max 1000 s.repair.period)

/-- ALIGNMENT_EXCHANGE: once per period, the exchange with the master: the offset of its four times is what the rate of TIME makes good
from now on, and `skew` the bound that SKEW takes when the period ends (R308, R309). -/
def execAlignmentExchange (t1 t2 t3 t4 : Int) (skew : BitVec 32) (s : State) : Out :=
  .next (
    let r := s.repair
    if !r.aligned || r.pendSkew.isSome || !s.meetsMaster then s
    else
      let slew := if r.timectl.getLsbD 0 then 0 else ((t2 - t1) - (t4 - t3)) / 2
      let s := { s with repair := { r with exchanged := s.time, alignLost := false, pendSkew := some skew, slew := slew, slewRun := 0 } }
      if r.alignLost then s.logRecord 9 0 0 none 0 0 0 0 else s)

/-- Three periods have passed without an exchange with the master (R308). -/
def State.loseAlignment (s : State) : State :=
  let r := s.repair
  if !r.alignLost && r.exchanged + 3 * r.period ≤ s.time then
    { s with repair := { r with skew := 0xFFFFFFFF, pendSkew := none, alignLost := true } }.logRecord 8 0 0 none 0 0 0 0
  else s

/-- ALIGNMENT_LOST (R308). -/
def execAlignmentLost (s : State) : Out := .next s.loseAlignment

/-- TIME has reached the end of a period: SKEW takes the bound that the period's exchange gave (R309). -/
def State.endPeriod (s : State) : State :=
  let r := s.repair
  if r.periodEnd ≤ s.time then
    { s with repair := { r with skew := r.pendSkew.getD r.skew, pendSkew := none, periodEnd := r.periodEnd + max 1000 r.period * ((s.time - r.periodEnd) / max 1000 r.period + 1) } }
  else s

/-- What alignment does as TIME passes: in a package that aligns to another, three periods without an exchange lose it; at the end of a period
SKEW takes its bound, and every die exchanges time with the Crema (R308, R309). -/
def State.align (s : State) : State :=
  let s := if s.repair.timectl.extractLsb' 0 1 = 0 && s.repair.timectl.getLsbD 47 then s.loseAlignment else s
  if s.repair.periodEnd ≤ s.time then s.endPeriod.exchangeDies else s

/-- TIME passes by ns as the package counts them; the offset of the last exchange is made good by at most 100 ppm (R307, R308). -/
def State.slewed (s : State) (ns : Nat) : State :=
  let r := s.repair
  let most := (r.slewRun + ns) / 10000
  let n : Int := max (-(min most ns : Nat)) (min r.slew most)
  { s with time := ((s.time + ns : Nat) + n).toNat, repair := { r with slew := r.slew - n, slewRun := (r.slewRun + ns) % 10000 } }

end Sys2Proof.Machine
end

