-- ==== Sys2Proof/Machine/Host.lean ====
section
/-!
DEFINITION. Bring-up (R310, R311) and the host link: BAR0 and BAR2 (R312, R313), doorbells (R314), the power limit (R313).
-/

namespace Sys2Proof.Machine

/-! ## Bring-up (R310) -/

/-- POWER_GOOD: the boot ROM runs, and phase 1 begins (R310). -/
def execPowerGood (s : State) : Out :=
  .next (if s.host.powered then s else { s with host := { s.host with powered := true, phase := 1 } })

/-- The device number that phase 1 reads from the flash (R310). -/
def Fabric.flashed (f : Fabric) (n : BitVec 15) : Fabric := if n = 0x7FFF then f else { f with devno := n, devset := true }

/-- The die map of the live physical dies in a mask. DESIGN CHOICE: virtual dies 0 up name them in physical order; R9 and R310 have firmware
build the map and give no order (log 41). -/
def dieMapOf (mask : BitVec 8) : Vector (Bool × BitVec 3) 8 :=
  let live := (List.range 8).filter fun p => mask.getLsbD p
  Vector.ofFn fun v => match live[v.val]? with | some p => (true, BitVec.ofNat 3 p) | none => (false, 0)

/-- Every word of DRAM reads 0 and is full (R310, phase 3). -/
def State.clearDram (s : State) : State :=
  { s with mem := mclear s.mem 0 (2 ^ 40), tags := mclear s.tags 0 (2 ^ 38), poison := mclear s.poison 0 (2 ^ 38) }

/-- The kernel starts at an address on slot 0 of every control core (R246, R310; log 11). -/
def State.startKernel (s : State) (pc : Word) : List Nat → State
  | [] => s
  | n :: rest =>
    (s.modSlot ⟨computeCores + n, 0⟩ fun x =>
      { x with pc := pc &&& ~~~(3#64), act := some ⟨.kernel, 0, none⟩, wait := .ready }).startKernel pc rest

/-- What phase n leaves when it ends (R310). `val` is what the phase finds: 1 the device number in [14:0]; 4 the live dies in [7:0] and
CTXTAB in [39:14]; 5 TIME; 6 the kernel's first pc (log 11). -/
def State.phaseDone (s : State) (n : Nat) (val : Word) : State :=
  match n with
  | 1 => { s with fab := s.fab.flashed (val.extractLsb' 0 15) }
  | 3 => s.clearDram
  | 4 =>
    { s with repair := { s.repair with diemap := dieMapOf (val.extractLsb' 0 8) },
             sched := { s.sched with ctxtab := maskBits val (2 ^ 40 - 2 ^ 14) } }.writeTopology
  | 5 =>
    let time := max s.time val.toNat
    { s with time := time, repair := { s.repair with exchanged := time, periodEnd := time + s.repair.period } }
  | 6 => s.startKernel val (List.range 16)
  | 7 => { s with host := { s.host with up := true } }
  | _ => s

/-- BOOT_PHASE: the phase ends and the next begins, or it fails, with the die or link in DETAIL (R310). -/
def execBootPhase (ok : Bool) (detail : BitVec 8) (val : Word) (s : State) : Out :=
  .next (
    let h := s.host
    if h.phase = 0 || h.fail || h.up then s
    else if !ok then { s with host := { h with fail := true, detail := detail } }
    else { s with host := { h with phase := if h.phase = 7 then 7 else h.phase + 1 } }.phaseDone h.phase.toNat val)

/-! ## The host's accesses (R312 to R314) -/

/-- What the host reads at an offset of BAR0 (R313, R314): BOOTSTAT shows FAIL and DETAIL, DEVNUM its SET bit, a doorbell the index last
rung; other offsets read 0. -/
def State.bar0 (s : State) (off : Nat) : Word :=
  let h := s.host
  if off = 0x00 then s.repair.devstat
  else if off = 0x08 then BitVec.ofNat 64 (h.phase.toNat + b2n h.fail * 16 + h.detail.toNat * 256)
  else if off = 0x10 then s.repair.eloghead
  else if off = 0x18 then h.bar2sel.setWidth 64
  else if off = 0x20 then h.dbbad.setWidth 64
  else if off = 0x28 then BitVec.ofNat 64 (s.fab.devno.toNat + b2n s.fab.devset * 2 ^ 15)
  else if off = 0x100 then h.pwrlim.setWidth 64
  else if off = 0x108 then h.pwrnow.setWidth 64
  else if off = 0x110 then h.tempmax.setWidth 64
  else if 0x10000 ≤ off && off < 0x11000 && off % 8 = 0 then
    (s.ctx ((off - 0x10000) / 64)).rung.toList.getD ((off - 0x10000) / 8 % 8) 0
  else 0

/-- The keys that n bytes at an offset of BAR2 reach (R312). -/
def State.bar2Keys (s : State) (off n : Nat) : List Nat := keysFrom (s.host.bar2sel.toNat * 2 ^ 36 + off) (min n (2 ^ 36 - off))

/-- What the host reads through BAR2: bytes at their point of coherence, with no tag read (R312). -/
def State.bar2 (s : State) (off n : Nat) : List Byte := s.bytes (s.bar2Keys off n)

/-- A doorbell that is ignored (R314). -/
def State.badDoorbell (s : State) : State :=
  { s with host := { s.host with dbbad := if s.host.dbbad = 0xFFFF then 0xFFFF else s.host.dbbad + 1 } }

/-- The keys of the +0 pairs of slots r to r + n - 1 of a ring, if each can be set (R314). -/
def State.ringPairs (s : State) (ctx h log r : Nat) : Nat → Option (List Nat)
  | 0 => some []
  | n + 1 =>
    match s.ringPairs ctx h log r n, s.resolve (s.kernelAgent ctx) (slotAddr h (r + n) log) 8 permW with
    | some ks, .ok l => if l.tagged then some (ks ++ l.keys) else none
    | _, _ => none

/-- DOORBELL: sets full the +0 pair of every slot from the index last rung up to T - 1, or counts as ignored (R314). -/
def execDoorbell (ctx q : Nat) (t : Word) (s : State) : Out :=
  .next (
    let c := s.ctx ctx
    if !s.host.up || 64 ≤ ctx then s
    else if h : q < 8 then
      let (hdr, log) := c.queues[q]
      let r := c.rung[q].toNat
      if c.st = .free || hdr = 0 || t.toNat ≤ r || r + 2 ^ log < t.toNat then s.badDoorbell
      else match s.ringPairs ctx (addr56 hdr) log r (t.toNat - r) with
        | none => s.badDoorbell
        | some ks => (s.modCtx ctx fun c => { c with rung := c.rung.set q t h }).retag (wordsOf ks) true
    else s)

/-- DEVNUM: the host fixes the device number once, while no context exists (R313). -/
def execDevnum (v : Word) (s : State) : Out :=
  .next (
    let n := v.extractLsb' 0 15
    if !s.host.up || s.fab.devset || n = 0x7FFF || s.ctxs.any (fun c => c.2.st ≠ .free) then s
    else { s with fab := { s.fab with devno := n, devset := true } })

/-- HOSTSTAT: a host read clears DBBAD (R313). -/
def execHoststat (s : State) : Out := .next (if s.host.up then { s with host := { s.host with dbbad := 0 } } else s)

/-- HOST_REGISTER_WRITE: BAR2WIN and PWRLIM take a value that they allow; the others are read-only (R313). -/
def execHostRegisterWrite (off : Nat) (v : Word) (s : State) : Out :=
  .next (
    if !s.host.up then s
    else if off = 0x18 then { s with host := { s.host with bar2sel := v.extractLsb' 0 4 } }
    else if off = 0x100 && 1000 ≤ v.toNat && v.toNat ≤ 3600 then { s with host := { s.host with pwrlim := v.setWidth 16 } }
    else s)

/-- HOST_MEMORY_WRITE: bytes at an offset of BAR2 are written at their point of coherence and change no tag (R312); a part of a poisoned word
changes nothing there (R297). -/
def execHostMemoryWrite (off : Nat) (bytes : List Byte) (s : State) : Out :=
  .next (
    let keys := s.bar2Keys off bytes.length
    let whole := wholeWords keys
    let fits := (keys.zip bytes).filter fun p => !s.isPoisoned [p.1] || whole.contains (p.1 / 4)
    if s.host.up then s.put (fits.map (·.1)) (fits.map (·.2)) else s)

/-- UNSUPPORTED_REQUEST: the answer changes nothing (R312). -/
def execUnsupportedRequest (s : State) : Out := .next s

/-- PWRLIM_CLOCK_STEP: the mean power and the hottest sensor are measured, and the clock goes down or up again by one step of 25 MHz
(R313). -/
def execPwrlimClockStep (measured : BitVec 16 × BitVec 16) (s : State) : Out :=
  .next (
    let h := s.host
    let n := if h.pwrlim.toNat < measured.1.toNat then min 69 (h.clockSteps + 1) else h.clockSteps - 1
    { s with host := { h with pwrnow := measured.1, tempmax := measured.2, clockSteps := n } })

end Sys2Proof.Machine
end

