-- ==== Sys2Proof/Machine/Mem.lean ====
section
/-!
DEFINITION. Scalar memory: LD, LDN, ST (R72 to R78), the synchronising loads and stores (R160) and the AMOs (R162).
-/

namespace Sys2Proof.Machine

/-- LD: blocks until the value is in gd (R74). -/
def execLd (d a : Reg) (x : Bool) (z : BitVec 3) (o : BitVec 12) (s : State) : Out := loadForm s d a x z o

/-- LDN: gd is empty from issue until the value lands (R75). -/
def execLdn (d a : Reg) (x : Bool) (z : BitVec 3) (o : BitVec 12) (s : State) : Out :=
  withOperands s [srcA a x] [.g d] (
    let p := s.me.readG a
    let n := szBytes z
    let ea := effAddr p o n
    postForm s p ea n permR (.ldn d z (withAddr p ea) (BitVec.ofNat 64 ea)) (.read (peerOff ea) n) fun y => y.emptyG d)

/-- LDF: waits for full (R160). -/
def execLdf (d a : Reg) (x : Bool) (z : BitVec 3) (o : BitVec 12) (s : State) : Out := syncLoad s d a x z o false

/-- LDFE: waits for full and empties the word (R160). -/
def execLdfe (d a : Reg) (x : Bool) (z : BitVec 3) (o : BitVec 12) (s : State) : Out := syncLoad s d a x z o true

/-- ST: posted (R76). -/
def execSt (r a : Reg) (x : Bool) (z : BitVec 3) (o : BitVec 12) (s : State) : Out :=
  withOperands s [srcD r, srcA a x] [] (
    let p := s.me.readG a
    let n := szBytes z
    let ea := effAddr p o n
    let data := s.me.readG r
    postForm s p ea n permW (.st z (withAddr p ea) (BitVec.ofNat 64 ea) data) (.write (peerOff ea) (toBytes n data.toNat)) id)

/-- STE: waits for empty, stores and sets full (R160). -/
def execSte (r a : Reg) (x : Bool) (z : BitVec 3) (o : BitVec 12) (s : State) : Out := syncStore s r a x z o true

/-- STF: stores and sets full (R160). -/
def execStf (r a : Reg) (x : Bool) (z : BitVec 3) (o : BitVec 12) (s : State) : Out := syncStore s r a x z o false

/-- AMOADD (R162). -/
def execAmoadd (d a b : Reg) (x y : Bool) (c : BitVec 3) (w : Bool) (s : State) : Out := amoForm s 0 d a b x y c w
/-- AMOAND (R162). -/
def execAmoand (d a b : Reg) (x y : Bool) (c : BitVec 3) (w : Bool) (s : State) : Out := amoForm s 1 d a b x y c w
/-- AMOOR (R162). -/
def execAmoor (d a b : Reg) (x y : Bool) (c : BitVec 3) (w : Bool) (s : State) : Out := amoForm s 2 d a b x y c w
/-- AMOXOR (R162). -/
def execAmoxor (d a b : Reg) (x y : Bool) (c : BitVec 3) (w : Bool) (s : State) : Out := amoForm s 3 d a b x y c w
/-- AMOMIN (R162). -/
def execAmomin (d a b : Reg) (x y : Bool) (c : BitVec 3) (w : Bool) (s : State) : Out := amoForm s 4 d a b x y c w
/-- AMOMAX (R162). -/
def execAmomax (d a b : Reg) (x y : Bool) (c : BitVec 3) (w : Bool) (s : State) : Out := amoForm s 5 d a b x y c w
/-- AMOMINU (R162). -/
def execAmominu (d a b : Reg) (x y : Bool) (c : BitVec 3) (w : Bool) (s : State) : Out := amoForm s 6 d a b x y c w
/-- AMOMAXU (R162). -/
def execAmomaxu (d a b : Reg) (x y : Bool) (c : BitVec 3) (w : Bool) (s : State) : Out := amoForm s 7 d a b x y c w
/-- AMOSWAP (R162). -/
def execAmoswap (d a b : Reg) (x y : Bool) (c : BitVec 3) (w : Bool) (s : State) : Out := amoForm s 8 d a b x y c w
/-- AMOCAS (R162). -/
def execAmocas (d a b : Reg) (x y : Bool) (c : BitVec 3) (w : Bool) (s : State) : Out := amoForm s 9 d a b x y c w
/-- AMOFADD: FP32 under RNE, flags discarded (R162). -/
def execAmofadd (d a b : Reg) (x y : Bool) (c : BitVec 3) (s : State) : Out := amoForm s 10 d a b x y c false

end Sys2Proof.Machine
end

