-- ==== Sys2Proof/Machine/Vector.lean ====
section
/-!
DEFINITION. The vector families VALU (R95, R96), VFP (R97 to R104) and VMISC (R112, R113).
-/

namespace Sys2Proof.Machine

/-! ## VALU (R95, R96) -/

/-- A shift amount of a lane, b[4:0]. -/
def laneShift (b : Word32) : Nat := (b.extractLsb' 0 5).toNat

/-- VADD: a + b. -/
def execVadd (vd va vb : VReg) (m : MReg) (s : State) : Out := vint2 s vd va vb m fun a b => a + b
/-- VSUB: a - b. -/
def execVsub (vd va vb : VReg) (m : MReg) (s : State) : Out := vint2 s vd va vb m fun a b => a - b
/-- VMUL: a * b. -/
def execVmul (vd va vb : VReg) (m : MReg) (s : State) : Out := vint2 s vd va vb m fun a b => a * b
/-- VMULH: BitVec.ofInt 32 (a.toInt * b.toInt / 2 ^ 32). -/
def execVmulh (vd va vb : VReg) (m : MReg) (s : State) : Out := vint2 s vd va vb m fun a b => BitVec.ofInt 32 (a.toInt * b.toInt / 2 ^ 32)
/-- VAND: a &&& b. -/
def execVand (vd va vb : VReg) (m : MReg) (s : State) : Out := vint2 s vd va vb m fun a b => a &&& b
/-- VOR: a ||| b. -/
def execVor (vd va vb : VReg) (m : MReg) (s : State) : Out := vint2 s vd va vb m fun a b => a ||| b
/-- VXOR: a ^^^ b. -/
def execVxor (vd va vb : VReg) (m : MReg) (s : State) : Out := vint2 s vd va vb m fun a b => a ^^^ b
/-- VSLL: a <<< laneShift b. -/
def execVsll (vd va vb : VReg) (m : MReg) (s : State) : Out := vint2 s vd va vb m fun a b => a <<< laneShift b
/-- VSRL: a >>> laneShift b. -/
def execVsrl (vd va vb : VReg) (m : MReg) (s : State) : Out := vint2 s vd va vb m fun a b => a >>> laneShift b
/-- VSRA: a.sshiftRight (laneShift b). -/
def execVsra (vd va vb : VReg) (m : MReg) (s : State) : Out := vint2 s vd va vb m fun a b => a.sshiftRight (laneShift b)
/-- VMIN: if a.sle b then a else b. -/
def execVmin (vd va vb : VReg) (m : MReg) (s : State) : Out := vint2 s vd va vb m fun a b => if a.sle b then a else b
/-- VMAX: if a.sle b then b else a. -/
def execVmax (vd va vb : VReg) (m : MReg) (s : State) : Out := vint2 s vd va vb m fun a b => if a.sle b then b else a
/-- VMINU: if a.ule b then a else b. -/
def execVminu (vd va vb : VReg) (m : MReg) (s : State) : Out := vint2 s vd va vb m fun a b => if a.ule b then a else b
/-- VMAXU: if a.ule b then b else a. -/
def execVmaxu (vd va vb : VReg) (m : MReg) (s : State) : Out := vint2 s vd va vb m fun a b => if a.ule b then b else a
/-- VCMPEQ (R96). -/
def execVcmpeq (d : MReg) (va vb : VReg) (m : MReg) (s : State) : Out := vcompare s d va vb m fun a b => a == b
/-- VCMPLT (R96). -/
def execVcmplt (d : MReg) (va vb : VReg) (m : MReg) (s : State) : Out := vcompare s d va vb m fun a b => a.slt b
/-- VCMPLTU (R96). -/
def execVcmpltu (d : MReg) (va vb : VReg) (m : MReg) (s : State) : Out := vcompare s d va vb m fun a b => a.ult b
/-- VABS: |a| modulo 2^32. -/
def execVabs (vd va : VReg) (m : MReg) (s : State) : Out := lanewise1 s vd va m false fun _ a => (if a.slt 0 then -a else a, 0)

/-! ## VFP (R97 to R101) -/

/-- VFADD (R97). -/
def execVfadd (vd va vb : VReg) (m : MReg) (s : State) : Out :=
  lanewise2 s vd va vb m true false fun w a b _ => fAdd s.me.rm.toNat w a b
/-- VFSUB (R97). -/
def execVfsub (vd va vb : VReg) (m : MReg) (s : State) : Out :=
  lanewise2 s vd va vb m true false fun w a b _ => fSub s.me.rm.toNat w a b
/-- VFMUL (R97). -/
def execVfmul (vd va vb : VReg) (m : MReg) (s : State) : Out :=
  lanewise2 s vd va vb m true false fun w a b _ => fMul s.me.rm.toNat w a b
/-- VFDIV (R97). -/
def execVfdiv (vd va vb : VReg) (m : MReg) (s : State) : Out :=
  lanewise2 s vd va vb m true false fun w a b _ => fDiv s.me.rm.toNat w a b
/-- VFFMA: a * b + vd with one rounding (R97). -/
def execVffma (vd va vb : VReg) (m : MReg) (s : State) : Out :=
  lanewise2 s vd va vb m true true fun w a b d => fFma s.me.rm.toNat w a b d
/-- VFMIN (R97). -/
def execVfmin (vd va vb : VReg) (m : MReg) (s : State) : Out := lanewise2 s vd va vb m false false fun _ a b _ => fMinMax true a b
/-- VFMAX (R97). -/
def execVfmax (vd va vb : VReg) (m : MReg) (s : State) : Out := lanewise2 s vd va vb m false false fun _ a b _ => fMinMax false a b
/-- VFCMP: the code of FCMP in each lane (R99). -/
def execVfcmp (vd va vb : VReg) (m : MReg) (s : State) : Out := lanewise2 s vd va vb m false false fun _ a b _ => fCmp a b
/-- VFSQRT (R97, R98). -/
def execVfsqrt (vd va : VReg) (m : MReg) (s : State) : Out := lanewise1 s vd va m true fun w a => fSqrt s.me.rm.toNat w a
/-- VFRCP (R97, R98). -/
def execVfrcp (vd va : VReg) (m : MReg) (s : State) : Out := lanewise1 s vd va m true fun w a => fRcp s.me.rm.toNat w a
/-- VFRSQ (R97, R98). -/
def execVfrsq (vd va : VReg) (m : MReg) (s : State) : Out := lanewise1 s vd va m true fun w a => fRsq s.me.rm.toNat w a
/-- VFEXP2 (R97, R98). -/
def execVfexp2 (vd va : VReg) (m : MReg) (s : State) : Out := lanewise1 s vd va m true fun w a => fExp2 s.me.rm.toNat w a
/-- VFLOG2 (R97, R98). -/
def execVflog2 (vd va : VReg) (m : MReg) (s : State) : Out := lanewise1 s vd va m true fun w a => fLog2 s.me.rm.toNat w a

/-- A BF16 value as an exact value (R45). -/
def bf16 (b : Nat) : FVal := fdecode 8 false (b % 65536)

/-- VDOT2's lane: vd + (a0 b0 + a1 b1), the sum exact, one rounding (R100). -/
def dot2 (rm w : Nat) (a b d : Word32) : Word32 × Flags :=
  let p0 := product false (bf16 a.toNat) (bf16 b.toNat)
  let p1 := product false (bf16 (a.toNat / 65536)) (bf16 (b.toNat / 65536))
  let t := sumProducts rm [p0.1, p1.1]
  let r := faddV rm (f32 d) t.1
  let out := pack32 rm w r
  (out.1, out.2 ||| p0.2 ||| p1.2 ||| t.2)

/-- VDOT2 (R100). -/
def execVdot2 (vd va vb : VReg) (m : MReg) (s : State) : Out :=
  lanewise2 s vd va vb m true true fun w a b d => dot2 s.me.rm.toNat w a b d

/-- The identity of a VRED operation (R101). -/
def redIdentity (op : Nat) : Word32 :=
  if op = 0 then 0x80000000 else if op = 1 || op = 2 then 0x7FC00000 else if op = 3 then 0 else if op = 4 then 0x7FFFFFFF
  else 0x80000000

/-- One combination of VRED (R101). -/
def redOp (op rm w : Nat) (a b : Word32) : Word32 × Flags :=
  if op = 0 then fAdd rm w a b
  else if op = 1 then fMinMax true a b
  else if op = 2 then fMinMax false a b
  else if op = 3 then (a + b, 0)
  else if op = 4 then (if a.sle b then a else b, 0)
  else (if a.sle b then b else a, 0)

/-- One level of the tree: neighbours combined, in order (R101). -/
def redLevel (op rm : Nat) : List Word32 → List Nat → List Word32 × List Nat × Flags
  | a :: b :: rest, ws =>
    let r := redOp op rm (ws.headD 0) a b
    let t := redLevel op rm rest ws.tail
    (r.1 :: t.1, t.2.1, r.2 ||| t.2.2)
  | _, ws => ([], ws, 0)

/-- The whole tree over 16 values: 8, 4, 2 and 1 combinations (R101). -/
def redTree (op rm : Nat) (ws : List Nat) (xs : List Word32) : Word32 × Flags :=
  let l1 := redLevel op rm xs ws
  let l2 := redLevel op rm l1.1 l1.2.1
  let l3 := redLevel op rm l2.1 l2.2.1
  let l4 := redLevel op rm l3.1 l3.2.1
  (l4.1.headD 0, l1.2.2 ||| l2.2.2 ||| l3.2.2 ||| l4.2.2)

/-- VRED: the active lanes of va into lane 0 of vd, 0 in the others (R101). -/
def execVred (vd va : VReg) (op : BitVec 5) (m : MReg) (s : State) : Out :=
  withV s vd fun d => withV s va fun a =>
    withOperands s [.v a] [.v d] (
      let v := s.myCore.readV a
      let mask := s.me.readM m
      let xs := (List.range 16).map fun i => if mask.getLsbD i then lane v i else redIdentity op.toNat
      let ws := if op = 0 then s.me.words 15 else ([], s.me.rngseed)
      let r := redTree op.toNat s.me.rm.toNat ws.1 xs
      let s := s.modMe fun x => { x.flag r.2 with rngseed := ws.2 }
      s.retireV d (Vector.ofFn fun i => if i.val = 0 then r.1 else 0))

/-! ## Conversions (R102 to R104) -/

/-- Source and destination formats of a lanewise conversion code (R102). -/
def cvtFormats (c : Nat) : Nat × Nat :=
  match c with
  | 0 => (10, 8) | 1 => (8, 10) | 2 => (10, 9) | 3 => (9, 10) | 4 => (10, 12) | 5 => (12, 10) | 6 => (10, 13) | 7 => (13, 10)
  | 8 => (10, 14) | 9 => (14, 10) | 10 => (10, 15) | 11 => (15, 10) | 12 => (10, 3) | 13 => (3, 10) | 14 => (10, 7)
  | 15 => (7, 10) | 16 => (3, 1) | 17 => (3, 2) | 18 => (7, 5) | _ => (7, 6)

/-- One lane of a conversion: I8 and I16 results are sign-extended, others zero-extended (R103). -/
def cvtLane (c rm : Nat) (xm : Bool) (w : Nat) (a : Word32) : Word32 × Flags :=
  let f := cvtFormats c
  let r := encodeVal f.2 xm rm w (decodeVal f.1 xm a.toNat)
  (if f.2 = 1 || f.2 = 2 then BitVec.ofInt 32 (idecode f.2 r.1) else BitVec.ofNat 32 r.1, r.2)

/-- The block format of a block conversion code (R102). -/
def cvtBlock (c : Nat) : Nat := 17 + (c - 20) / 2

/-- The operand that names the register after the one `r` names (R104). -/
def vnext (x : Slot) (r : VReg) : Except Int Nat :=
  let i := vindex r x.vi + 1
  if i < 0 ∨ (x.vcount : Int) ≤ i then .error i else .ok (x.vbase + i.toNat)

def withVnext (s : State) (r : VReg) (k : Nat → Out) : Out :=
  match vnext s.me r with
  | .ok n => k n
  | .error i => s.trap cVREGBOUND (BitVec.ofInt 64 i)

/-- The 16 lanes that bytes fill, 0 past them (R104). -/
def lanesOfBytes (bs : List Byte) : Vector Word32 16 :=
  Vector.ofFn fun i => BitVec.ofNat 32 (leNat ((bs.drop (4 * i.val)).take 4))

/-- The bytes of a vector register. -/
def bytesOfLanes (v : Vector Word32 16) : List Byte := v.toList.flatMap fun w => toBytes 4 w.toNat

/-- Block encoding: 32 values of va and the next register into a padded record in vd (R104). -/
def cvtEncode (s : State) (vd va : VReg) (c : Nat) : Out :=
  withV s vd fun d => withV s va fun a => withVnext s va fun a' =>
    withOperands s [.v a, .v a'] [.v d] (
      let vs := ((s.myCore.readV a).toList ++ (s.myCore.readV a').toList).map f32
      let ws := s.me.words 32
      let fill := ws.1 ++ List.replicate 32 0
      let r := encodeRecord (cvtBlock c) s.me.xm s.me.rm.toNat fill vs
      let s := s.modMe fun x => { x.flag r.2 with rngseed := ws.2 }
      s.retireV d (lanesOfBytes r.1))

/-- Block decoding: a padded record of va into vd and the next register, each element rounded once (R104). -/
def cvtDecode (s : State) (vd va : VReg) (c : Nat) : Out :=
  withV s vd fun d => withVnext s vd fun d' => withV s va fun a =>
    withOperands s [.v a] [.v d, .v d'] (
      let fmt := cvtBlock c
      let rec_ := (bytesOfLanes (s.myCore.readV a)).take (packedSize fmt)
      let ws := s.me.words 32
      let es := (List.range 32).map fun i => pack32 s.me.rm.toNat (ws.1[i]?.getD 0) (recElem fmt s.me.xm rec_ i, 0)
      let half (k : Nat) : Vector Word32 16 := Vector.ofFn fun i => ((es[k + i.val]?).getD (0, 0)).1
      let s := s.modMe fun x => { x.flag (es.foldl (fun f e => f ||| e.2) 0) with rngseed := ws.2 }
      .next ((s.modCore s.cur.core fun t => (t.writeV d (half 0)).writeV d' (half 16)).modMe Slot.next))

/-- VCVT (R102 to R104). -/
def execVcvt (vd va : VReg) (c : BitVec 5) (m : MReg) (s : State) : Out :=
  if c.toNat < 20 then
    lanewise1 s vd va m (c.toNat < 16) fun w a => cvtLane c.toNat s.me.rm.toNat s.me.xm w a
  else if c.toNat % 2 = 0 then cvtEncode s vd va c.toNat
  else cvtDecode s vd va c.toNat

/-! ## VMISC (R112, R113) -/

/-- VMOVG to a mask: md := ga[15:0]. -/
def execVmovgToMask (d : MReg) (g : Reg) (s : State) : Out :=
  withOperands s [srcB g false] [] (s.retire fun x => x.writeM d ((x.readG g).extractLsb' 0 16))
/-- VMOVG from a mask: gd := zext(ma). -/
def execVmovgFromMask (d : Reg) (a : MReg) (s : State) : Out :=
  withOperands s [] [.g d] (s.retireG d ((s.me.readM a).setWidth 64))
/-- VMOVV: active lanes of vd := va. -/
def execVmovv (vd va : VReg) (m : MReg) (s : State) : Out := lanewise1 s vd va m false fun _ a => (a, 0)
/-- VBCAST: active lanes := ga[31:0]. -/
def execVbcast (vd : VReg) (g : Reg) (m : MReg) (s : State) : Out :=
  withV s vd fun d =>
    withOperands s ((if m ≠ 0 then [Source.v d] else []) ++ [srcB g false]) [.v d]
      (s.retireV d (mapLanes (s.me.readM m) (s.myCore.readV d) fun _ => low32 (s.me.readG g)))
/-- VEXT: gd := zext(va.lane[ga[3:0]]). -/
def execVext (d : Reg) (va : VReg) (g : Reg) (s : State) : Out :=
  withV s va fun a =>
    withOperands s [.v a, srcB g false] [.g d]
      (s.retireG d ((lane (s.myCore.readV a) ((s.me.readG g).toNat % 16)).setWidth 64))
/-- VINS: one lane of vd := ga[31:0]; vd is a source (R93). -/
def execVins (vd : VReg) (l : BitVec 4) (g : Reg) (s : State) : Out :=
  withV s vd fun d =>
    withOperands s [.v d, srcB g false] [.v d]
      (s.retireV d ((s.myCore.readV d).set l.toNat (low32 (s.me.readG g)) l.isLt))
/-- VSEL: lane i from va where the selector has bit i (or m is 0), else from vb. -/
def execVsel (vd va vb : VReg) (m : MReg) (s : State) : Out :=
  withV s vd fun d => withV s va fun a => withV s vb fun b =>
    withOperands s [.v a, .v b] [.v d]
      (s.retireV d (mapLanes (s.me.readM m) (s.myCore.readV b) fun i => lane (s.myCore.readV a) i))
/-- VSHUF: active lanes := the lane of va that vb names, or 0 where vb's lane has bit 31. -/
def execVshuf (vd va vb : VReg) (m : MReg) (s : State) : Out :=
  withV s vd fun d => withV s va fun a => withV s vb fun b =>
    withOperands s ((if m ≠ 0 then [Source.v d] else []) ++ [.v a, .v b]) [.v d]
      (s.retireV d (mapLanes (s.me.readM m) (s.myCore.readV d) fun i =>
        let k := lane (s.myCore.readV b) i
        if k.getLsbD 31 then 0 else lane (s.myCore.readV a) (k.toNat % 16)))

/-- The new vi of VIADD (R113). -/
def viaddValue (vi : BitVec 8) (g : Word) (w : Nat) : BitVec 8 :=
  let t := vi.toInt + g.toInt
  BitVec.ofInt 8 (if w = 0 then t else t.emod w)
/-- VIADD: vi := vi + ga, wrapped by W unless W is 0 (R113). -/
def execViadd (w : BitVec 5) (g : Reg) (s : State) : Out :=
  withOperands s [srcB g false] [] (s.retire fun x => { x with vi := viaddValue x.vi (x.readG g) w.toNat })
/-- MAND. -/
def execMand (d a b : MReg) (s : State) : Out := s.retire fun x => x.writeM d (x.readM a &&& x.readM b)
/-- MOR. -/
def execMor (d a b : MReg) (s : State) : Out := s.retire fun x => x.writeM d (x.readM a ||| x.readM b)
/-- MNOT. -/
def execMnot (d a : MReg) (s : State) : Out := s.retire fun x => x.writeM d (~~~(x.readM a))
/-- MPOP: gd := the number of 1 bits. -/
def execMpop (d : Reg) (a : MReg) (s : State) : Out :=
  withOperands s [] [.g d] (s.retireG d (BitVec.ofNat 64 (activeLanes (s.me.readM a)).length))

end Sys2Proof.Machine
end

