-- ==== Sys2Proof/Machine/Dispatch.lean ====
section
/-!
DEFINITION. exec: the meaning of every constructor of Instr, one direct call per arm.
-/

namespace Sys2Proof.Machine

def exec (i : Instr) (s : State) : Host.Outcome State Fault Refusal :=
  match i with
  | .add d a b x y => Sys2Proof.Machine.execAdd d a b x y s
  | .sub d a b x y => Sys2Proof.Machine.execSub d a b x y s
  | .and d a b x y => Sys2Proof.Machine.execAnd d a b x y s
  | .or d a b x y => Sys2Proof.Machine.execOr d a b x y s
  | .xor d a b x y => Sys2Proof.Machine.execXor d a b x y s
  | .andn d a b x y => Sys2Proof.Machine.execAndn d a b x y s
  | .sll d a b x y => Sys2Proof.Machine.execSll d a b x y s
  | .srl d a b x y => Sys2Proof.Machine.execSrl d a b x y s
  | .sra d a b x y => Sys2Proof.Machine.execSra d a b x y s
  | .rol d a b x y => Sys2Proof.Machine.execRol d a b x y s
  | .slt d a b x y => Sys2Proof.Machine.execSlt d a b x y s
  | .sltu d a b x y => Sys2Proof.Machine.execSltu d a b x y s
  | .min d a b x y => Sys2Proof.Machine.execMin d a b x y s
  | .max d a b x y => Sys2Proof.Machine.execMax d a b x y s
  | .minu d a b x y => Sys2Proof.Machine.execMinu d a b x y s
  | .maxu d a b x y => Sys2Proof.Machine.execMaxu d a b x y s
  | .mul d a b x y => Sys2Proof.Machine.execMul d a b x y s
  | .mulh d a b x y => Sys2Proof.Machine.execMulh d a b x y s
  | .mulhu d a b x y => Sys2Proof.Machine.execMulhu d a b x y s
  | .div d a b x y => Sys2Proof.Machine.execDiv d a b x y s
  | .divu d a b x y => Sys2Proof.Machine.execDivu d a b x y s
  | .rem d a b x y => Sys2Proof.Machine.execRem d a b x y s
  | .remu d a b x y => Sys2Proof.Machine.execRemu d a b x y s
  | .clz d a x => Sys2Proof.Machine.execClz d a x s
  | .ctz d a x => Sys2Proof.Machine.execCtz d a x s
  | .popc d a x => Sys2Proof.Machine.execPopc d a x s
  | .sextb d a x => Sys2Proof.Machine.execSextb d a x s
  | .sexth d a x => Sys2Proof.Machine.execSexth d a x s
  | .sextw d a x => Sys2Proof.Machine.execSextw d a x s
  | .zextw d a x => Sys2Proof.Machine.execZextw d a x s
  | .bswap d a x => Sys2Proof.Machine.execBswap d a x s
  | .selnz d a b x y => Sys2Proof.Machine.execSelnz d a b x y s
  | .addi d a x im => Sys2Proof.Machine.execAddi d a x im s
  | .andi d a x im => Sys2Proof.Machine.execAndi d a x im s
  | .ori d a x im => Sys2Proof.Machine.execOri d a x im s
  | .xori d a x im => Sys2Proof.Machine.execXori d a x im s
  | .slti d a x im => Sys2Proof.Machine.execSlti d a x im s
  | .sltiu d a x im => Sys2Proof.Machine.execSltiu d a x im s
  | .slli d a x sc => Sys2Proof.Machine.execSlli d a x sc s
  | .srli d a x sc => Sys2Proof.Machine.execSrli d a x sc s
  | .srai d a x sc => Sys2Proof.Machine.execSrai d a x sc s
  | .roli d a x sc => Sys2Proof.Machine.execRoli d a x sc s
  | .lui d im => Sys2Proof.Machine.execLui d im s
  | .lih d im => Sys2Proof.Machine.execLih d im s
  | .addpc d im => Sys2Proof.Machine.execAddpc d im s
  | .ld d a x z o => Sys2Proof.Machine.execLd d a x z o s
  | .ldn d a x z o => Sys2Proof.Machine.execLdn d a x z o s
  | .ldf d a x z o => Sys2Proof.Machine.execLdf d a x z o s
  | .ldfe d a x z o => Sys2Proof.Machine.execLdfe d a x z o s
  | .st sc a x z o => Sys2Proof.Machine.execSt sc a x z o s
  | .ste sc a x z o => Sys2Proof.Machine.execSte sc a x z o s
  | .stf sc a x z o => Sys2Proof.Machine.execStf sc a x z o s
  | .amoadd d a b x y c w => Sys2Proof.Machine.execAmoadd d a b x y c w s
  | .amoand d a b x y c w => Sys2Proof.Machine.execAmoand d a b x y c w s
  | .amoor d a b x y c w => Sys2Proof.Machine.execAmoor d a b x y c w s
  | .amoxor d a b x y c w => Sys2Proof.Machine.execAmoxor d a b x y c w s
  | .amomin d a b x y c w => Sys2Proof.Machine.execAmomin d a b x y c w s
  | .amomax d a b x y c w => Sys2Proof.Machine.execAmomax d a b x y c w s
  | .amominu d a b x y c w => Sys2Proof.Machine.execAmominu d a b x y c w s
  | .amomaxu d a b x y c w => Sys2Proof.Machine.execAmomaxu d a b x y c w s
  | .amoswap d a b x y c w => Sys2Proof.Machine.execAmoswap d a b x y c w s
  | .amocas d a b x y c w => Sys2Proof.Machine.execAmocas d a b x y c w s
  | .amofadd d a b x y c => Sys2Proof.Machine.execAmofadd d a b x y c s
  | .beq a b x y o => Sys2Proof.Machine.execBeq a b x y o s
  | .bne a b x y o => Sys2Proof.Machine.execBne a b x y o s
  | .blt a b x y o => Sys2Proof.Machine.execBlt a b x y o s
  | .bge a b x y o => Sys2Proof.Machine.execBge a b x y o s
  | .bltu a b x y o => Sys2Proof.Machine.execBltu a b x y o s
  | .bgeu a b x y o => Sys2Proof.Machine.execBgeu a b x y o s
  | .jal d im => Sys2Proof.Machine.execJal d im s
  | .jalr d a x im => Sys2Proof.Machine.execJalr d a x im s
  | .send a b x y => Sys2Proof.Machine.execSend a b x y s
  | .sendc a b x y => Sys2Proof.Machine.execSendc a b x y s
  | .sendb d a b x y => Sys2Proof.Machine.execSendb d a b x y s
  | .hret => Sys2Proof.Machine.execHret s
  | .hyield a x => Sys2Proof.Machine.execHyield a x s
  | .chset d a b x y => Sys2Proof.Machine.execChset d a b x y s
  | .chmask d a b x y => Sys2Proof.Machine.execChmask d a b x y s
  | .charm d a b x y => Sys2Proof.Machine.execCharm d a b x y s
  | .fork d a b x y => Sys2Proof.Machine.execFork d a b x y s
  | .taskend a x => Sys2Proof.Machine.execTaskend a x s
  | .rejoin d a b x y => Sys2Proof.Machine.execRejoin d a b x y s
  | .trig => Sys2Proof.Machine.execTrig s
  | .joinch d a x => Sys2Proof.Machine.execJoinch d a x s
  | .fenceAcq sc im => Sys2Proof.Machine.execFenceAcq sc im s
  | .fenceRel sc im => Sys2Proof.Machine.execFenceRel sc im s
  | .fenceFull sc im => Sys2Proof.Machine.execFenceFull sc im s
  | .fencesc sc => Sys2Proof.Machine.execFencesc sc s
  | .rbegin d => Sys2Proof.Machine.execRbegin d s
  | .rcommit => Sys2Proof.Machine.execRcommit s
  | .rabort a x => Sys2Proof.Machine.execRabort a x s
  | .waitc c a x => Sys2Proof.Machine.execWaitc c a x s
  | .ship d a b x y n => Sys2Proof.Machine.execShip d a b x y n s
  | .chain d a b x y => Sys2Proof.Machine.execChain d a b x y s
  | .rowopen a x => Sys2Proof.Machine.execRowopen a x s
  | .rowhold d a x => Sys2Proof.Machine.execRowhold d a x s
  | .rowrel a x => Sys2Proof.Machine.execRowrel a x s
  | .rowq d a x => Sys2Proof.Machine.execRowq d a x s
  | .nbprog d a x => Sys2Proof.Machine.execNbprog d a x s
  | .nbstat d a x => Sys2Proof.Machine.execNbstat d a x s
  | .vadd vd va vb m => Sys2Proof.Machine.execVadd vd va vb m s
  | .vsub vd va vb m => Sys2Proof.Machine.execVsub vd va vb m s
  | .vmul vd va vb m => Sys2Proof.Machine.execVmul vd va vb m s
  | .vmulh vd va vb m => Sys2Proof.Machine.execVmulh vd va vb m s
  | .vand vd va vb m => Sys2Proof.Machine.execVand vd va vb m s
  | .vor vd va vb m => Sys2Proof.Machine.execVor vd va vb m s
  | .vxor vd va vb m => Sys2Proof.Machine.execVxor vd va vb m s
  | .vsll vd va vb m => Sys2Proof.Machine.execVsll vd va vb m s
  | .vsrl vd va vb m => Sys2Proof.Machine.execVsrl vd va vb m s
  | .vsra vd va vb m => Sys2Proof.Machine.execVsra vd va vb m s
  | .vmin vd va vb m => Sys2Proof.Machine.execVmin vd va vb m s
  | .vmax vd va vb m => Sys2Proof.Machine.execVmax vd va vb m s
  | .vminu vd va vb m => Sys2Proof.Machine.execVminu vd va vb m s
  | .vmaxu vd va vb m => Sys2Proof.Machine.execVmaxu vd va vb m s
  | .vcmpeq d va vb m => Sys2Proof.Machine.execVcmpeq d va vb m s
  | .vcmplt d va vb m => Sys2Proof.Machine.execVcmplt d va vb m s
  | .vcmpltu d va vb m => Sys2Proof.Machine.execVcmpltu d va vb m s
  | .vabs vd va m => Sys2Proof.Machine.execVabs vd va m s
  | .vfadd vd va vb m => Sys2Proof.Machine.execVfadd vd va vb m s
  | .vfsub vd va vb m => Sys2Proof.Machine.execVfsub vd va vb m s
  | .vfmul vd va vb m => Sys2Proof.Machine.execVfmul vd va vb m s
  | .vffma vd va vb m => Sys2Proof.Machine.execVffma vd va vb m s
  | .vfmin vd va vb m => Sys2Proof.Machine.execVfmin vd va vb m s
  | .vfmax vd va vb m => Sys2Proof.Machine.execVfmax vd va vb m s
  | .vfdiv vd va vb m => Sys2Proof.Machine.execVfdiv vd va vb m s
  | .vfsqrt vd va m => Sys2Proof.Machine.execVfsqrt vd va m s
  | .vfrcp vd va m => Sys2Proof.Machine.execVfrcp vd va m s
  | .vfrsq vd va m => Sys2Proof.Machine.execVfrsq vd va m s
  | .vfexp2 vd va m => Sys2Proof.Machine.execVfexp2 vd va m s
  | .vflog2 vd va m => Sys2Proof.Machine.execVflog2 vd va m s
  | .vfcmp vd va vb m => Sys2Proof.Machine.execVfcmp vd va vb m s
  | .vcvt vd va c m => Sys2Proof.Machine.execVcvt vd va c m s
  | .vred vd va o m => Sys2Proof.Machine.execVred vd va o m s
  | .vdot2 vd va vb m => Sys2Proof.Machine.execVdot2 vd va vb m s
  | .vld vd g m => Sys2Proof.Machine.execVld vd g m s
  | .vst vd g m => Sys2Proof.Machine.execVst vd g m s
  | .vlds vd sc g m => Sys2Proof.Machine.execVlds vd sc g m s
  | .vsts vd sc g m => Sys2Proof.Machine.execVsts vd sc g m s
  | .vgath vd va g m => Sys2Proof.Machine.execVgath vd va g m s
  | .vscat vd va g m => Sys2Proof.Machine.execVscat vd va g m s
  | .vldf vd g m => Sys2Proof.Machine.execVldf vd g m s
  | .vmovgToMask d g => Sys2Proof.Machine.execVmovgToMask d g s
  | .vmovgFromMask d a => Sys2Proof.Machine.execVmovgFromMask d a s
  | .vmovv vd va m => Sys2Proof.Machine.execVmovv vd va m s
  | .vbcast vd g m => Sys2Proof.Machine.execVbcast vd g m s
  | .vext d va g => Sys2Proof.Machine.execVext d va g s
  | .vins vd l g => Sys2Proof.Machine.execVins vd l g s
  | .vsel vd va vb m => Sys2Proof.Machine.execVsel vd va vb m s
  | .vshuf vd va vb m => Sys2Proof.Machine.execVshuf vd va vb m s
  | .viadd w g => Sys2Proof.Machine.execViadd w g s
  | .mand d a b => Sys2Proof.Machine.execMand d a b s
  | .mor d a b => Sys2Proof.Machine.execMor d a b s
  | .mnot d a => Sys2Proof.Machine.execMnot d a s
  | .mpop d a => Sys2Proof.Machine.execMpop d a s
  | .ecfg n a x => Sys2Proof.Machine.execEcfg n a x s
  | .eread d n => Sys2Proof.Machine.execEread d n s
  | .fldset n a w x => Sys2Proof.Machine.execFldset n a w x s
  | .fldget d n w => Sys2Proof.Machine.execFldget d n w s
  | .mma d b y => Sys2Proof.Machine.execMma d b y s
  | .apply d b y => Sys2Proof.Machine.execApply d b y s
  | .diag d b y => Sys2Proof.Machine.execDiag d b y s
  | .perm n a x => Sys2Proof.Machine.execPerm n a x s
  | .matl d b y => Sys2Proof.Machine.execMatl d b y s
  | .accld d b y => Sys2Proof.Machine.execAccld d b y s
  | .accst d b y => Sys2Proof.Machine.execAccst d b y s
  | .accz d b y => Sys2Proof.Machine.execAccz d b y s
  | .estat d a x => Sys2Proof.Machine.execEstat d a x s
  | .ctload d a b x y => Sys2Proof.Machine.execCtload d a b x y s
  | .ctswap d => Sys2Proof.Machine.execCtswap d s
  | .eresume d a b x y => Sys2Proof.Machine.execEresume d a b x y s
  | .abandon d a b x y => Sys2Proof.Machine.execAbandon d a b x y s
  | .lcopy d a b x y => Sys2Proof.Machine.execLcopy d a b x y s
  | .pcopy d a b x y => Sys2Proof.Machine.execPcopy d a b x y s
  | .pfill d a b x y => Sys2Proof.Machine.execPfill d a b x y s
  | .ptag d a b x y => Sys2Proof.Machine.execPtag d a b x y s
  | .premap d a b x y => Sys2Proof.Machine.execPremap d a b x y s
  | .pscrub d a b x y => Sys2Proof.Machine.execPscrub d a b x y s
  | .pcoll d a b x y => Sys2Proof.Machine.execPcoll d a b x y s
  | .pslotLoadEntries d a b x y => Sys2Proof.Machine.execPslotLoadEntries d a b x y s
  | .pslotStoreEntries d a b x y => Sys2Proof.Machine.execPslotStoreEntries d a b x y s
  | .pslotLoadControl d a b x y => Sys2Proof.Machine.execPslotLoadControl d a b x y s
  | .pslotStatus d a b x y => Sys2Proof.Machine.execPslotStatus d a b x y s
  | .pq d a x => Sys2Proof.Machine.execPq d a x s
  | .brwld d a b x y => Sys2Proof.Machine.execBrwld d a b x y s
  | .brwarm d a b x y => Sys2Proof.Machine.execBrwarm d a b x y s
  | .disarm d a b x y => Sys2Proof.Machine.execDisarm d a b x y s
  | .brwpost d a b x y => Sys2Proof.Machine.execBrwpost d a b x y s
  | .brwfree d a x => Sys2Proof.Machine.execBrwfree d a x s
  | .brwq d a x => Sys2Proof.Machine.execBrwq d a x s
  | .csrr d c => Sys2Proof.Machine.execCsrr d c s
  | .csrw d a c => Sys2Proof.Machine.execCsrw d a c s
  | .csrs d a c => Sys2Proof.Machine.execCsrs d a c s
  | .csrc d a c => Sys2Proof.Machine.execCsrc d a c s
  | .trap d a c => Sys2Proof.Machine.execTrap d a c s
  | .brkpt c => Sys2Proof.Machine.execBrkpt c s
  | .eret => Sys2Proof.Machine.execEret s
  | .upret => Sys2Proof.Machine.execUpret s
  | .wfe d a => Sys2Proof.Machine.execWfe d a s
  | .routld d a im => Sys2Proof.Machine.execRoutld d a im s
  | .fadd d a b x y => Sys2Proof.Machine.execFadd d a b x y s
  | .fsub d a b x y => Sys2Proof.Machine.execFsub d a b x y s
  | .fmul d a b x y => Sys2Proof.Machine.execFmul d a b x y s
  | .ffma d a b x y => Sys2Proof.Machine.execFfma d a b x y s
  | .fdiv d a b x y => Sys2Proof.Machine.execFdiv d a b x y s
  | .fsqrt d a x => Sys2Proof.Machine.execFsqrt d a x s
  | .fmin d a b x y => Sys2Proof.Machine.execFmin d a b x y s
  | .fmax d a b x y => Sys2Proof.Machine.execFmax d a b x y s
  | .fcmp d a b x y => Sys2Proof.Machine.execFcmp d a b x y s
  | .fcvt d a b x y => Sys2Proof.Machine.execFcvt d a b x y s
  | .fclass d a x => Sys2Proof.Machine.execFclass d a x s
  | .addp d a b x y => Sys2Proof.Machine.execAddp d a b x y s
  | .pfmt d a b x y => Sys2Proof.Machine.execPfmt d a b x y s
  | .pidx d a b x y => Sys2Proof.Machine.execPidx d a b x y s
  | .pdiff d a b x y => Sys2Proof.Machine.execPdiff d a b x y s
  | .pstrip d a x => Sys2Proof.Machine.execPstrip d a x s
  | .illop w => Sys2Proof.Machine.execIllop w s
  | .issueRetry sl => Sys2Proof.Machine.execIssueRetry sl s
  | .upcall sl => Sys2Proof.Machine.execUpcall sl s
  | .producerLands sl req => Sys2Proof.Machine.execProducerLands sl req s
  | .requestComplete sl req => Sys2Proof.Machine.execRequestComplete sl req s
  | .parkedAccess sl req => Sys2Proof.Machine.execParkedAccess sl req s
  | .deferredUpcall sl => Sys2Proof.Machine.execDeferredUpcall sl s
  | .engfault sl => Sys2Proof.Machine.execEngfault sl s
  | .wfeTimeout sl => Sys2Proof.Machine.execWfeTimeout sl s
  | .tagServe word => Sys2Proof.Machine.execTagServe word s
  | .activeMessageArrival src idx target => Sys2Proof.Machine.execActiveMessageArrival src idx target s
  | .counterMessage src idx => Sys2Proof.Machine.execCounterMessage src idx s
  | .outboundRetry core idx => Sys2Proof.Machine.execOutboundRetry core idx s
  | .startActiveMessage sl ch => Sys2Proof.Machine.execStartActiveMessage sl ch s
  | .startCounterFiring sl ch => Sys2Proof.Machine.execStartCounterFiring sl ch s
  | .taskPop sl => Sys2Proof.Machine.execTaskPop sl s
  | .taskSteal sl => Sys2Proof.Machine.execTaskSteal sl s
  | .jobStart oct ctx id => Sys2Proof.Machine.execJobStart oct ctx id s
  | .jobProgress oct ctx id => Sys2Proof.Machine.execJobProgress oct ctx id s
  | .jobComplete oct ctx id => Sys2Proof.Machine.execJobComplete oct ctx id s
  | .jobStop oct ctx id cause => Sys2Proof.Machine.execJobStop oct ctx id cause s
  | .remapStart oct ctx id => Sys2Proof.Machine.execRemapStart oct ctx id s
  | .remapComplete oct ctx id => Sys2Proof.Machine.execRemapComplete oct ctx id s
  | .routineCall sl req => Sys2Proof.Machine.execRoutineCall sl req s
  | .chainStep sl req => Sys2Proof.Machine.execChainStep sl req s
  | .tagPass bank => Sys2Proof.Machine.execTagPass bank s
  | .rowStep bank => Sys2Proof.Machine.execRowStep bank s
  | .rowBoundaryYield bank => Sys2Proof.Machine.execRowBoundaryYield bank s
  | .heldRowRefresh ctx place => Sys2Proof.Machine.execHeldRowRefresh ctx place s
  | .chbaseWrite v => Sys2Proof.Machine.execChbaseWrite v s
  | .vallocWrite v => Sys2Proof.Machine.execVallocWrite v s
  | .create ctx => Sys2Proof.Machine.execCreate ctx s
  | .resume ctx => Sys2Proof.Machine.execResume ctx s
  | .preempt ctx => Sys2Proof.Machine.execPreempt ctx s
  | .destroy ctx => Sys2Proof.Machine.execDestroy ctx s
  | .slotHalt sl => Sys2Proof.Machine.execSlotHalt sl s
  | .saveComplete ctx => Sys2Proof.Machine.execSaveComplete ctx s
  | .faultRecord ctx r => Sys2Proof.Machine.execFaultRecord ctx r s
  | .interrupt sl => Sys2Proof.Machine.execInterrupt sl s
  | .xinv v => Sys2Proof.Machine.execXinv v s
  | .grantLoad idx => Sys2Proof.Machine.execGrantLoad idx s
  | .recall idx => Sys2Proof.Machine.execRecall idx s
  | .doorbell ctx q t => Sys2Proof.Machine.execDoorbell ctx q t s
  | .devnum v => Sys2Proof.Machine.execDevnum v s
  | .hoststat => Sys2Proof.Machine.execHoststat s
  | .hostRegisterWrite off v => Sys2Proof.Machine.execHostRegisterWrite off v s
  | .hostMemoryWrite off bytes => Sys2Proof.Machine.execHostMemoryWrite off bytes s
  | .unsupportedRequest => Sys2Proof.Machine.execUnsupportedRequest s
  | .descriptorTake ctx q => Sys2Proof.Machine.execDescriptorTake ctx q s
  | .dependenceMet launch => Sys2Proof.Machine.execDependenceMet launch s
  | .groupPlace launch => Sys2Proof.Machine.execGroupPlace launch s
  | .groupExit launch group => Sys2Proof.Machine.execGroupExit launch group s
  | .brewEvaluate => Sys2Proof.Machine.execBrewEvaluate s
  | .brwpostArrival idx => Sys2Proof.Machine.execBrwpostArrival idx s
  | .routerCycle die picks inject => Sys2Proof.Machine.execRouterCycle die picks inject s
  | .kdpPacket link h0 h1 => Sys2Proof.Machine.execKdpPacket link h0 h1 s
  | .slotBoundary => Sys2Proof.Machine.execSlotBoundary s
  | .rotationBoundary => Sys2Proof.Machine.execRotationBoundary s
  | .windowSend port dev block => Sys2Proof.Machine.execWindowSend port dev block s
  | .frameReceive port full f => Sys2Proof.Machine.execFrameReceive port full f s
  | .pull which => Sys2Proof.Machine.execPull which s
  | .peerAccess f => Sys2Proof.Machine.execPeerAccess f s
  | .peerMessage dev m => Sys2Proof.Machine.execPeerMessage dev m s
  | .blockApply f => Sys2Proof.Machine.execBlockApply f s
  | .acknowledgement sl part dev code data => Sys2Proof.Machine.execAcknowledgement sl part dev code data s
  | .remoteTimeLimit sl req => Sys2Proof.Machine.execRemoteTimeLimit sl req s
  | .linkDown port => Sys2Proof.Machine.execLinkDown port s
  | .rollback sl => Sys2Proof.Machine.execRollback sl s
  | .correctedError u => Sys2Proof.Machine.execCorrectedError u s
  | .uncorrectableError u word => Sys2Proof.Machine.execUncorrectableError u word s
  | .spareReplacement u => Sys2Proof.Machine.execSpareReplacement u s
  | .dieRenumbering die => Sys2Proof.Machine.execDieRenumbering die s
  | .linkReroute die => Sys2Proof.Machine.execLinkReroute die s
  | .alignmentExchange t1 t2 t3 t4 skew => Sys2Proof.Machine.execAlignmentExchange t1 t2 t3 t4 skew s
  | .alignmentLost => Sys2Proof.Machine.execAlignmentLost s
  | .powerGood => Sys2Proof.Machine.execPowerGood s
  | .bootPhase ok detail val => Sys2Proof.Machine.execBootPhase ok detail val s
  | .pwrlimClockStep measured => Sys2Proof.Machine.execPwrlimClockStep measured s

end Sys2Proof.Machine
end

