-- ==== Sys2Proof/Machine/Turns.lean ====
section
/-!
DEFINITION. Turns: which slot may issue, what one turn of a slot, of the device or of time does (R17, R36, R85), and which turn the
machine takes when its agenda names none (log 3).
-/

namespace Sys2Proof.Machine

/-- The slot is one of the package (R8). -/
def realSlot (sl : SlotId) : Bool := sl.core < allCores

/-! ## One slot -/

/-- The slot has something to take before its next instruction: a trap, a rollback, a parked access, a job's report (R85, R87, R195,
R283). -/
def Slot.interrupted (x : Slot) : Bool :=
  x.trap.isSome || (match x.region with | some g => g.failed.isSome | none => false) || (x.parked.any fun p => p.kind ≠ 3) || x.events ≠ []

/-- The core of a slot executes: its unit is not fenced, and its context runs or is being saved (R250, R260, R296). -/
def State.alive (s : State) (sl : SlotId) : Bool :=
  !s.fencedCore sl.core &&
    (isControl sl.core || match (s.core sl.core).ctx with
      | some n => (s.ctx n).st = .running || (s.ctx n).st = .saving
      | none => false)

/-- The context of the core is being saved: its slots are to halt (R260). -/
def State.halting (s : State) (sl : SlotId) : Bool :=
  !isControl sl.core && match (s.core sl.core).ctx with | some n => (s.ctx n).st = .saving | none => false

/-- The slot can issue its next instruction now, or end its WFE, and nothing asks it to halt (R17, R90, R117, R260). -/
def State.mayIssue (s : State) (sl : SlotId) : Bool :=
  let x := s.slot sl
  s.alive sl && !s.halting sl && x.act.isSome && (x.wait = .ready || x.wait = .wfe true) && !x.interrupted

/-- Issue priority of the activation in a slot, 3 where there is none (R118). -/
def Slot.prio (x : Slot) : Fin 4 := match x.act with | some a => a.prio.toFin | none => 3

/-- The slots of a core in the order in which it chooses among those that are ready: by issue priority, lowest number first, and within a
number round-robin (R118). -/
def State.issueOrder (s : State) (core : Nat) : List SlotId :=
  let rank (sl : SlotId) : List Nat :=
    let p := (s.slot sl).prio
    [p.val, (sl.slot.val + 3 - ((s.core core).rr[p]).val) % 4]
  sortBy rank (slotIds core)

/-- The slot of a core that issues next (R118). -/
def State.pick (s : State) (core : Nat) : Option SlotId := (s.issueOrder core).find? s.mayIssue

/-- The slot issues: it is the last that did at its priority (R118). -/
def State.issued (s : State) (sl : SlotId) : State :=
  s.modCore sl.core fun c => { c with rr := c.rr.set (s.slot sl).prio sl.slot }

/-- A word issues: its instruction, or ILLOP (R34). -/
def State.runWord (s : State) (w : Word32) : Out :=
  match decode w with
  | .ok i => exec i s
  | .error _ => exec (.illop w) s

/-- TVAL of a fault on the fetched word (R36, R40). -/
def fetchTval (cause : BitVec 8) (pc : Word) : Word := if cause = cUNCORR then lineAddr pc.toNat else pc

/-- The issuing slot fetches the word at its pc and runs it (R36). -/
def State.runNext (s : State) : Out :=
  match s.fetch s.cur with
  | .error c => s.trapAt c s.me.pc.toNat
  | .ok (w, t) => t.runWord w

/-- A turn of a slot: what interrupts it comes first, the older of a parked access and a job's report before the other (R195); else its next
instruction, a try of one that blocked (R17), or the end of a WFE that an event has ended (R90). -/
def State.slotTurn (s : State) (sl : SlotId) : Out :=
  let x := s.slot sl
  let s := { s with cur := sl }
  if !s.alive sl then .next s
  else if x.trap.isSome then execUpcall sl s
  else if (match x.region with | some g => g.failed.isSome | none => false) then execRollback sl s
  else if x.events ≠ [] && x.engFirst then execEngfault sl s
  else if x.parked.any fun p => p.kind ≠ 3 then execDeferredUpcall sl s
  else if x.events ≠ [] then execEngfault sl s
  else if x.act.isNone then .next s
  else if x.wait = .wfe true then .next (s.modSlot sl fun y => (y.writeG y.wfeReg 0).next)
  else if x.wait = .ready || x.wait = .retry then (s.issued sl).runNext
  else .next s

/-! ## Time -/

/-- A slot of a context that is being saved has still to halt: it issues or would try again, waits in WFE, or has an access that waits on a tag of
this package, which is withdrawn (R260, R261). -/
def State.toHalt (s : State) (sl : SlotId) : Bool :=
  let x := s.slot sl
  x.act.isSome && match x.wait with
    | .ready | .retry | .wfe _ => true
    | .sent n => s.waiters.any fun w => w.sl = sl && w.req = n
    | _ => false

/-- The context has been asked to halt: it is being saved, or its pre-emption has been commanded (R4, R250). -/
def State.haltAsked (s : State) (ctx : Nat) : Bool := (s.ctx ctx).st = .saving || (s.commanded 3 ctx && (s.ctx ctx).st = .running)

/-- How far TIME may go: until the request to pre-empt a context is 875 cy old, 500 ns, while a slot of it has still to halt (R4, R260). -/
def State.room (s : State) (ns : Nat) : Nat :=
  s.cores.foldl (fun n p =>
    match p.2.ctx with
    | some c =>
      if s.haltAsked c && !s.fencedCore p.1 && (slotIds p.1).any s.toHalt then min n ((s.ctx c).haltAt + 500 - s.time) else n
    | none => n) ns

/-- TIME passes, as far as it may: the slot table turns (R273), the brew table is evaluated once a cy, seven times in 4 ns (R236, R237;
log 4), and a period of alignment may end (R308, R309). -/
def State.pass (s : State) (ns : Nat) : State :=
  let t := (s.slewed (s.room ns)).rotate
  (t.brewCycles 257 (t.time * 7 / 4 - s.time * 7 / 4)).align

/-! ## Turns -/

/-- Effects of instructions that are rows of their own: no turn of the device (R34, R20, R120, R255, R258, R276). -/
def inInstruction : Instr → Bool
  | .illop _ | .chbaseWrite _ | .vallocWrite _ | .xinv _ | .faultRecord .. | .grantLoad _ | .recall _ => true
  | _ => false

/-- The device takes this step by itself, or its surroundings cause it. -/
def isStep (i : Instr) : Bool := (encode i).isNone && i.wf && !inInstruction i

/-- What a turn does. -/
def State.turn (s : State) : Turn → Out
  | .slot sl => if realSlot sl then s.slotTurn sl else .fault .noSuchSlot
  | .event i => if isStep i then exec i s else .next s
  | .tick ns => .next (s.pass ns)

/-! ## The turn when the agenda is empty (log 3) -/

/-- Steps that may serve the requests of a slot. -/
def slotSteps (s : State) (sl : SlotId) : List (State → Out) :=
  let x := s.slot sl
  (x.reqs.flatMap fun r =>
    [execProducerLands sl r.num, execRequestComplete sl r.num, execParkedAccess sl r.num,
     execRoutineCall sl r.num, execChainStep sl r.num, execRemoteTimeLimit sl r.num]) ++
  [execUpcall sl, execRollback sl, execDeferredUpcall sl, execEngfault sl, execWfeTimeout sl,
   execSlotHalt sl, execInterrupt sl]

/-- Steps that may move the messages of a queue. -/
def msgSteps (src : Option Nat) (ms : List Msg) : List (State → Out) :=
  (ms.zip (List.range ms.length)).flatMap fun p =>
    if p.1.dec.isSome then [execCounterMessage src p.2]
    else p.1.targets.map fun t => execActiveMessageArrival src p.2 t

/-- Steps that may start an activation on a core. -/
def startSteps (s : State) (core : Nat) : List (State → Out) :=
  match s.fill core with
  | some (sl, .firing c) => [execStartCounterFiring sl c]
  | some (sl, .message c) => [execStartActiveMessage sl c]
  | some (sl, .pop) => [execTaskPop sl]
  | some (sl, .steal _) => [execTaskSteal sl]
  | none => []

/-- Steps that may take a job on. -/
def jobSteps (oct : Nat) (j : Job) : List (State → Out) :=
  [execRemapComplete oct j.ctx j.id, execRemapStart oct j.ctx j.id, execJobStart oct j.ctx j.id,
   execJobProgress oct j.ctx j.id, execJobComplete oct j.ctx j.id] ++
  (match j.ask with | some a => [execRemoteTimeLimit j.owner a.num] | none => []) ++
  (j.sends.map fun b => execRemoteTimeLimit j.owner b.num) ++
  (List.range 15).map fun c => execJobStop oct j.ctx j.id (BitVec.ofNat 8 c)

/-- Steps of the scheduler. -/
def schedSteps (s : State) : List (State → Out) :=
  (s.ctxs.flatMap fun c =>
    [execSaveComplete c.1, execCreate c.1, execResume c.1, execPreempt c.1, execDestroy c.1]) ++
  [execCreate s.sched.cmdCtx.toNat] ++
  (s.ctxs.flatMap fun c => (List.range 8).map fun q => execDescriptorTake c.1 q) ++
  (s.sched.launches.flatMap fun l => [execDependenceMet l.num, execGroupPlace l.num]) ++
  (s.sched.groups.map fun g => execGroupExit g.launch g.idx) ++
  (List.range (s.posts.length + s.fab.arrived.length)).map fun i => execBrwpostArrival i

/-- Steps of the fabric and of the clock. -/
def fabricSteps (s : State) : List (State → Out) :=
  ([0, 1, 2, 3].flatMap fun p => (s.fab.queue.map (·.dst)).dedup.flatMap fun d =>
    [execWindowSend p d false, execWindowSend p d true]) ++
  (s.fab.arrived.flatMap fun f =>
    match f.body with
    | .access _ => [execPeerAccess f]
    | .msg m => [execPeerMessage f.src m]
    | _ => [execBlockApply f]) ++
  (s.kdp.flight.map fun p => execKdpPacket (p.1 / 2) p.2.h0 p.2.h1) ++
  ((List.range 8).map fun d => execLinkReroute d) ++ [execAlignmentLost]

/-- What the machine tries, in order: the meanings of its own steps, then the turns of its slots. -/
def State.candidates (s : State) : List (State → Out) :=
  let cores := s.cores.map (·.1)
  (cores.flatMap fun c => (slotIds c).flatMap fun sl => slotSteps s sl) ++
  (cores.flatMap fun c => msgSteps (some c) (s.core c).outq) ++ msgSteps none s.net ++
  (cores.flatMap fun c => startSteps s c) ++
  (s.jobs.flatMap fun p => p.2.flatMap fun j => jobSteps p.1 j) ++
  (s.carafe.nb.flatMap fun p => [execTagPass p.1, execRowStep p.1, execRowBoundaryYield p.1]) ++
  schedSteps s ++ fabricSteps s ++
  (cores.flatMap fun c => (s.issueOrder c).map fun sl => fun t => t.slotTurn sl)

/-- The turn changes more than the slot that is looked at. -/
def State.tries (s : State) (f : State → Out) : Option Out :=
  match f s with
  | .next s' => if s' = { s with cur := s'.cur } then none else some (.next s')
  | o => some o

/-- Every refused message is tried again (R125). -/
def State.retryAll (s : State) : State :=
  let again (ms : List Msg) : List Msg := ms.map fun m => { m with refused := false }
  { s with net := again s.net, cores := s.cores.map fun p => (p.1, { p.2 with outq := again p.2.outq }) }

/-- One ns passes, in which what was refused is tried again (R125). -/
def State.idle (s : State) : Out := .next (s.pass 1).retryAll

/-- With an empty agenda: the first turn that changes the machine, or time passes. -/
def State.onItsOwn (s : State) : Out := (s.candidates.findSome? s.tries).getD s.idle

/-! ## Placing a word to run (log 11) -/

/-- The slot can issue: it has an activation and nothing holds it. -/
def Slot.freed (x : Slot) (control : Bool) : Slot :=
  { x with pc := if x.pc.toNat < winEnd then x.pc else 0,
           act := x.act <|> some (if control then ⟨.kernel, 0, none⟩ else ⟨.channel 0, 3, none⟩),
           wait := .ready, trap := none, events := [], parked := x.parked.filter fun p => p.kind = 3,
           region := match x.region with | some g => (if g.failed.isSome then none else some g) | none => none }

/-- The context of a compute core runs: its own, or context 0. -/
def State.revive (s : State) (core : Nat) : State :=
  let s := { s with repair := { s.repair with fenced := s.repair.fenced.filter fun u => !unitCovers u core } }
  if isControl core then s
  else
    let n := ((s.core core).ctx).getD 0
    let s := s.modCore core fun c => { c with ctx := some n }
    if (s.ctx n).st = .running then s else s.modCtx n fun c => { c with st := .running }

/-- The word at the pc of the slot `cur`, which can issue and issues next. -/
def State.placeWord (s : State) (w : Word32) : State :=
  let sl : SlotId := if realSlot s.cur then s.cur else ⟨computeCores, 0⟩
  let s := { s with agenda := [.slot sl], cur := sl }.revive sl.core
  let s := s.modSlot sl fun x => x.freed (isControl sl.core)
  let s := match s.resolve (s.agent sl) (s.slot sl).pc.toNat 4 permX with
    | .ok l => s.put l.keys (toBytes 4 w.toNat)
    | .error _ => s
  s.modCore sl.core fun c => { c with icache := mput c.icache (s.fetchKey sl) w }

end Sys2Proof.Machine
end

