-- ==== Sys2Proof/Machine/Step.lean ====
section
/-!
DEFINITION. step: one turn of the machine, and withFetchWord, which places an instruction where the next step fetches.
-/

namespace Sys2Proof.Machine

/-- One step: the first turn of the agenda; with none left, a turn of the slot that the core of `cur` chooses to issue (R118),
else the turn that State.onItsOwn chooses. -/
def step (s : State) : Host.Outcome State Fault Refusal :=
  match s.agenda with
  | t :: rest => { s with agenda := rest }.turn t
  | [] =>
    if realSlot s.cur then
      match s.pick s.cur.core with
      | some sl => s.slotTurn sl
      | none => s.onItsOwn
    else .fault .noSuchSlot

/-- The state in which the next step fetches word w and runs it: it stands in memory at the pc of `cur` where that is mapped for
execution, and in the core's instruction cache; the slot can issue (log 11). -/
def State.withFetchWord (s : State) (_nbits w : Nat) : State := s.placeWord (BitVec.ofNat 32 w)

end Sys2Proof.Machine
end

