-- ==== Sys2Proof/Safety.lean ====
section
/-!
DEFINITION. What a safe run is, and the form that the sparse parts of the state keep.
-/

namespace Sys2Proof

/-- A step from s gives a next state. -/
def Completes (s : Machine.State) : Prop := ∃ t, Machine.step s = .next t

/-- The machine takes k steps from s without a stop. -/
def SafeFor : Nat → Machine.State → Prop
  | 0, _ => True
  | k + 1, s => ∃ t, Machine.step s = .next t ∧ SafeFor k t

/-- The slots that the machine is told to let issue are slots of the package. -/
def NamesRealSlots (s : Machine.State) : Prop :=
  Machine.realSlot s.cur = true ∧
    ∀ t ∈ s.agenda, match t with | .slot sl => Machine.realSlot sl = true | _ => True

/-- Memory, tags and poison are in their canonical forms: keys strictly rising, and nothing listed that an unlisted key reads as. -/
def Canonical (s : Machine.State) : Prop :=
  Machine.Memory.wf s.mem = true ∧ Machine.mwf true s.tags = true ∧ Machine.mwf false s.poison = true

end Sys2Proof
end

