-- ==== Sys2Proof/Certificates/Slice0/Obligations.lean ====
section
/-!
DEFINITION. The statements about the machine. First the words they are stated in: what an instruction may read and write, and
which parts of the state are as before; results are given in arithmetic on numbers, as the rules of spec/ write them.
-/

namespace Sys2Proof.Claims

open Sys2Proof.Machine

/-! ## Vocabulary -/

/-- Register r of the issuing slot is full (R14); g0 always is. -/
def CanRead (s : State) (r : Reg) : Prop := s.me.tagG r = .full

/-- No producer is to fill register d of the issuing slot (R16). -/
def CanWrite (s : State) (d : Reg) : Prop := s.me.tagG d ≠ .empty

/-- Core vector register n of the issuing core is full. -/
def CanReadV (s : State) (n : Nat) : Prop := s.myCore.tagV n = .full

def CanWriteV (s : State) (n : Nat) : Prop := s.myCore.tagV n ≠ .empty

/-- Of the cores, the issuing slot alone changed, and it is now x; which slot issues is as before. -/
def SlotIs (s t : State) (x : Slot) : Prop :=
  t.me = x ∧ t.cur = s.cur ∧ (∀ o, o ≠ s.cur → t.slot o = s.slot o) ∧
    ∀ n, { t.core n with slots := (s.core n).slots } = s.core n

/-- Nothing but the issuing slot changed, and it is now x: no other slot, no memory byte, no tag, no table of the device. -/
def OnlySlot (s t : State) (x : Slot) : Prop := SlotIs s t x ∧ { t with cores := s.cores } = s

/-- The slot x after an instruction that goes on at the next word. -/
def atNext (x : Slot) : Slot := { x with pc := x.pc + 4, wait := .ready }

/-- In slot y, register d holds v and is full (d = 0 discards v), every other register is as in x. -/
def RegIs (x y : Slot) (d : Reg) (v : Word) : Prop :=
  ∀ r, y.readG r = (if r = d ∧ d ≠ 0 then v else x.readG r) ∧ y.tagG r = if r = d then .full else x.tagG r

/-- The instruction completes: gd holds v, the pc is at the next word, and nothing else changes. -/
def Gives (i : Instr) (s : State) (d : Reg) (v : Word) : Prop :=
  ∃ t, exec i s = .next t ∧ RegIs s.me t.me d v ∧ OnlySlot s t { atNext s.me with g := t.me.g, gt := t.me.gt }

/-- The instruction completes, and the issuing slot is then x; nothing else changes. -/
def Makes (i : Instr) (s : State) (x : Slot) : Prop := ∃ t, exec i s = .next t ∧ OnlySlot s t x

/-- The instruction traps with this cause and TVAL, at the pc of the slot, and has no other effect. -/
def Traps (i : Instr) (s : State) (cause : Nat) (tval : Word) : Prop :=
  exec i s = .next (s.takeTrap s.cur (BitVec.ofNat 8 cause) tval)

/-- The instruction traps because the translation of its access at ea faults, with cause c: TVAL is the address, or its line where the walk
met uncorrectable data; a record would name the address. -/
def Faults (i : Instr) (s : State) (c : BitVec 8) (ea : Nat) : Prop :=
  exec i s = .next (s.takeTrapAt s.cur c (BitVec.ofNat 64 (if c = 12 then ea % 2 ^ 56 / 64 * 64 else ea)) (BitVec.ofNat 64 ea))

/-- Issue checks in order: the first condition that holds traps with its cause and TVAL, and where none holds, `otherwise` is so. -/
def Checks (i : Instr) (s : State) : List (Prop × Nat × Word) → Prop → Prop
  | [], otherwise => otherwise
  | (bad, cause, tval) :: rest, otherwise => (bad → Traps i s cause tval) ∧ (¬bad → Checks i s rest otherwise)

/-- The instruction waits where it is: the slot is blocked before it and nothing else changes. -/
def Waits (i : Instr) (s : State) : Prop := Makes i s { s.me with wait := .retry }

def num (n : Nat) : Word := BitVec.ofNat 64 n
def int (n : Int) : Word := BitVec.ofInt 64 n

/-- Bit i of the result is f of the bits i of a and b. -/
def bitwise (f : Bool → Bool → Bool) (a b : Word) : Word :=
  BitVec.ofBoolListLE ((List.range 64).map fun i => f (a.getLsbD i) (b.getLsbD i))

/-- Bits of a below n that are p, counted from one end until the first that is not. -/
def leading (p : Nat → Bool) : Nat := ((List.range 64).takeWhile p).length

/-! ## Register arithmetic -/

abbrev Op2 := Reg → Reg → Reg → Bool → Bool → Instr

/-- R68: what the ALU instructions of two sources compute, beside division. -/
def alu2Table : List (Op2 × (Word → Word → Word)) :=
  [(.add, fun a b => num (a.toNat + b.toNat)), (.sub, fun a b => int (a.toNat - b.toNat)),
   (.and, bitwise fun p q => p && q), (.or, bitwise fun p q => p || q), (.xor, bitwise fun p q => p != q),
   (.andn, bitwise fun p q => p && !q),
   (.sll, fun a b => num (a.toNat * 2 ^ (b.toNat % 64))), (.srl, fun a b => num (a.toNat / 2 ^ (b.toNat % 64))),
   (.sra, fun a b => int (a.toInt / 2 ^ (b.toNat % 64))),
   (.rol, fun a b => num (a.toNat * 2 ^ (b.toNat % 64) + a.toNat / 2 ^ (64 - b.toNat % 64))),
   (.slt, fun a b => if a.toInt < b.toInt then 1 else 0), (.sltu, fun a b => if a.toNat < b.toNat then 1 else 0),
   (.min, fun a b => int (min a.toInt b.toInt)), (.max, fun a b => int (max a.toInt b.toInt)),
   (.minu, fun a b => num (min a.toNat b.toNat)), (.maxu, fun a b => num (max a.toNat b.toNat)),
   (.mul, fun a b => num (a.toNat * b.toNat)),
   (.mulh, fun a b => int (a.toInt * b.toInt / 2 ^ 64)), (.mulhu, fun a b => num (a.toNat * b.toNat / 2 ^ 64)),
   (.selnz, fun a b => if b.toNat ≠ 0 then a else 0)]

/-- R69: the quotient q. -/
def quotient (signed : Bool) (a b : Word) : Word :=
  if b = 0 then 0xFFFFFFFFFFFFFFFF
  else if signed ∧ a.toInt = -2 ^ 63 ∧ b.toInt = -1 then int (-2 ^ 63)
  else if signed then int (a.toInt.tdiv b.toInt) else num (a.toNat / b.toNat)

/-- R69: the remainder r. -/
def remainder (signed : Bool) (a b : Word) : Word :=
  if b = 0 then a
  else if signed ∧ a.toInt = -2 ^ 63 ∧ b.toInt = -1 then 0
  else if signed then int (a.toInt - a.toInt.tdiv b.toInt * b.toInt) else num (a.toNat - a.toNat / b.toNat * b.toNat)

/-- R69: the division instructions: DIV and DIVU write q, REM and REMU write r. -/
def divTable : List (Op2 × (Word → Word → Word)) :=
  [(.div, quotient true), (.divu, quotient false), (.rem, remainder true), (.remu, remainder false)]

/-- R68: the unary forms. -/
def alu1Table : List ((Reg → Reg → Bool → Instr) × (Word → Word)) :=
  [(.clz, fun a => num (leading fun i => !a.getLsbD (63 - i))), (.ctz, fun a => num (leading fun i => !a.getLsbD i)),
   (.popc, fun a => num ((List.range 64).map fun i => (a.getLsbD i).toNat).sum),
   (.sextb, fun a => int (BitVec.ofNat 8 a.toNat).toInt), (.sexth, fun a => int (BitVec.ofNat 16 a.toNat).toInt),
   (.sextw, fun a => int (BitVec.ofNat 32 a.toNat).toInt), (.zextw, fun a => num (a.toNat % 2 ^ 32)),
   (.bswap, fun a => num ((List.range 8).map fun i => a.toNat / 256 ^ i % 256 * 256 ^ (7 - i)).sum)]

/-- R70: the immediate forms. -/
def immTable : List ((Reg → Reg → Bool → BitVec 15 → Instr) × (Word → BitVec 15 → Word)) :=
  [(.addi, fun a i => int (a.toNat + i.toInt)),
   (.andi, fun a i => bitwise (fun p q => p && q) a (num i.toNat)), (.ori, fun a i => bitwise (fun p q => p || q) a (num i.toNat)),
   (.xori, fun a i => bitwise (fun p q => p != q) a (num i.toNat)),
   (.slti, fun a i => if a.toInt < i.toInt then 1 else 0),
   (.sltiu, fun a i => if a.toNat < (int i.toInt).toNat then 1 else 0)]

/-- R70: SHI. -/
def shiftTable : List ((Reg → Reg → Bool → BitVec 6 → Instr) × (Word → Nat → Word)) :=
  [(.slli, fun a n => num (a.toNat * 2 ^ n)), (.srli, fun a n => num (a.toNat / 2 ^ n)), (.srai, fun a n => int (a.toInt / 2 ^ n)),
   (.roli, fun a n => num (a.toNat * 2 ^ n + a.toNat / 2 ^ (64 - n)))]

/-- R79: the branches and when they are taken. -/
def branchTable : List ((Reg → Reg → Bool → Bool → BitVec 14 → Instr) × (Word → Word → Bool)) :=
  [(.beq, fun a b => a = b), (.bne, fun a b => a ≠ b), (.blt, fun a b => a.toInt < b.toInt), (.bge, fun a b => b.toInt ≤ a.toInt),
   (.bltu, fun a b => a.toNat < b.toNat), (.bgeu, fun a b => b.toNat ≤ a.toNat)]

/-! ## Pointers -/

/-- R41: log2 of the elements of a block, and the size of an element or a packed record, by format code. -/
def blkColumn : List Nat := [0, 0, 0, 0, 0, 0, 0, 0, 0, 0, 0, 0, 0, 0, 0, 0, 0, 5, 5, 5, 6]
def sizeColumn : List Nat := [1, 1, 2, 4, 8, 1, 2, 4, 2, 2, 4, 8, 1, 1, 1, 1, 2, 33, 25, 17, 17]

/-- R43: what a pointer must be before an address is formed from it. -/
def GoodPointer (p : Word) : Prop := blkColumn[p.toNat / 2 ^ 59]? = some (p.toNat / 2 ^ 56 % 8)

/-- Bits [63:56] of p over the address a mod 2^56. -/
def withTop (p : Word) (a : Int) : Word := int (p.toNat / 2 ^ 56 * 2 ^ 56 + a % 2 ^ 56)

end Sys2Proof.Claims

open Sys2Proof Sys2Proof.Machine Sys2Proof.Claims

/-! ## Register arithmetic -/

/-- R68 and R69: each ALU instruction of two sources writes its result to gd and changes nothing else, for every register it
may name and either reading of its sources. -/
def Sys2Proof.Claims.AluTwoSourcesWriteTheirResult : Prop :=
  ∀ (s : State) (d a b : Reg) (x y : Bool), CanRead s a → CanRead s b → CanWrite s d →
    ∀ p ∈ alu2Table, Gives (p.1 d a b x y) s d (p.2 (s.me.readG a) (s.me.readG b))

/-- R68: the unary forms. -/
def Sys2Proof.Claims.AluOneSourceWritesItsResult : Prop :=
  ∀ (s : State) (d a : Reg) (x : Bool), CanRead s a → CanWrite s d →
    ∀ p ∈ alu1Table, Gives (p.1 d a x) s d (p.2 (s.me.readG a))

/-- R70: the immediate forms and the shifts by an immediate. -/
def Sys2Proof.Claims.ImmediateFormsWriteTheirResult : Prop :=
  ∀ (s : State) (d a : Reg) (x : Bool), CanRead s a → CanWrite s d →
    (∀ p ∈ immTable, ∀ i, Gives (p.1 d a x i) s d (p.2 (s.me.readG a) i)) ∧
    ∀ p ∈ shiftTable, ∀ n : BitVec 6, Gives (p.1 d a x n) s d (p.2 (s.me.readG a) n.toNat)

/-- R71: LUI, LIH, which reads gd and waits while it is empty, and ADDPC. -/
def Sys2Proof.Claims.ConstantsAreBuilt : Prop :=
  ∀ (s : State) (d : Reg) (i : BitVec 21),
    (CanWrite s d → Gives (.lui d i) s d (int (i.toInt * 2 ^ 15)) ∧ Gives (.addpc d i) s d (int (s.me.pc.toNat + i.toInt * 4))) ∧
    (CanRead s d → Gives (.lih d i) s d (int ((s.me.readG d).toNat % 2 ^ 36 + i.toInt * 2 ^ 36))) ∧
    (¬CanWrite s d → Waits (.lui d i) s ∧ Waits (.addpc d i) s ∧ Waits (.lih d i) s)

/-- R17 steps 3 and 4, for the ALU and division instructions of two sources: the first poisoned source in the order a, b traps with its
recorded cause; else the first empty source read in trap mode traps EMPTYREG; else the slot waits while a source or gd is
empty. -/
def Obligations.OperandChecksComeInOrder : Prop :=
  ∀ (s : State) (d a b : Reg) (x y : Bool), ∀ p ∈ alu2Table ++ divTable,
    (∀ k v, s.me.tagG a = .poisoned k v → Traps (p.1 d a b x y) s k.toNat v) ∧
    (∀ k v, (∀ k v, s.me.tagG a ≠ .poisoned k v) → s.me.tagG b = .poisoned k v → Traps (p.1 d a b x y) s k.toNat v) ∧
    ((∀ k v, s.me.tagG a ≠ .poisoned k v ∧ s.me.tagG b ≠ .poisoned k v) →
      (s.me.tagG a = .empty → x → Traps (p.1 d a b x y) s 2 (num (1 * 256 + a.toNat))) ∧
      (s.me.tagG b = .empty → y → ¬(s.me.tagG a = .empty ∧ x) → Traps (p.1 d a b x y) s 2 (num (2 * 256 + b.toNat))) ∧
      (¬(s.me.tagG a = .empty ∧ x) → ¬(s.me.tagG b = .empty ∧ y) → (s.me.tagG a = .empty ∨ s.me.tagG b = .empty ∨ s.me.tagG d = .empty) →
        Waits (p.1 d a b x y) s))

/-! ## Control transfer -/

/-- R79: a branch goes to pc + 4 * off14 when its condition holds and else to pc + 4, and changes nothing but the pc. -/
def Sys2Proof.Claims.BranchesMoveThePcAlone : Prop :=
  ∀ (s : State) (a b : Reg) (x y : Bool) (o : BitVec 14), CanRead s a → CanRead s b →
    ∀ p ∈ branchTable, Makes (p.1 a b x y o) s
      { s.me with wait := .ready,
                  pc := if p.2 (s.me.readG a) (s.me.readG b) then int (s.me.pc.toNat + o.toInt * 4) else num (s.me.pc.toNat + 4) }

/-- R79 and R35: JAL and JALR write the address of the next word to gd and go to their targets; a JALR to a target that is not
word-aligned traps MISALIGN with the target in TVAL and writes nothing. -/
def Sys2Proof.Claims.JumpsLinkAndGo : Prop :=
  ∀ (s : State) (d a : Reg) (x : Bool) (i : BitVec 21) (o : BitVec 15), CanWrite s d →
    (∃ t, exec (.jal d i) s = .next t ∧ RegIs s.me t.me d (num (s.me.pc.toNat + 4)) ∧
      OnlySlot s t { s.me with g := t.me.g, gt := t.me.gt, wait := .ready, pc := int (s.me.pc.toNat + i.toInt * 4) }) ∧
    (CanRead s a →
      let target := int ((s.me.readG a).toNat + o.toInt)
      (target.toNat % 4 ≠ 0 → Traps (.jalr d a x o) s 4 target) ∧
      (target.toNat % 4 = 0 → ∃ t, exec (.jalr d a x o) s = .next t ∧ RegIs s.me t.me d (num (s.me.pc.toNat + 4)) ∧
        OnlySlot s t { s.me with g := t.me.g, gt := t.me.gt, wait := .ready, pc := target }))

/-! ## Pointers -/

/-- R82: the pointer instructions, and the FMTFAULT of PFMT, PIDX and PDIFF. -/
def Sys2Proof.Claims.PointerInstructionsKeepTheFormat : Prop :=
  ∀ (s : State) (d a b : Reg) (x y : Bool), CanRead s a → CanRead s b → CanWrite s d →
    let p := s.me.readG a
    let n := s.me.readG b
    let f := n.toNat % 32
    Gives (.addp d a b x y) s d (withTop p (p.toNat + n.toInt)) ∧
    Gives (.pstrip d a x) s d (num (p.toNat % 2 ^ 56)) ∧
    (∀ k, blkColumn[f]? = some k → Gives (.pfmt d a b x y) s d (num (f * 2 ^ 59 + k * 2 ^ 56 + p.toNat % 2 ^ 56))) ∧
    (21 ≤ f → Traps (.pfmt d a b x y) s 5 (num (f * 2 ^ 59 + p.toNat % 2 ^ 56))) ∧
    (¬GoodPointer p → Traps (.pidx d a b x y) s 5 p ∧ Traps (.pdiff d a b x y) s 5 p) ∧
    (GoodPointer p → ∀ z : Nat, sizeColumn[p.toNat / 2 ^ 59]? = some z →
      Gives (.pidx d a b x y) s d (withTop p (p.toNat + n.toInt * z)) ∧
      (n.toNat / 2 ^ 56 = p.toNat / 2 ^ 56 →
        Gives (.pdiff d a b x y) s d (int ((BitVec.ofInt 56 (p.toNat - n.toNat)).toInt.tdiv z))) ∧
      (n.toNat / 2 ^ 56 ≠ p.toNat / 2 ^ 56 → Traps (.pdiff d a b x y) s 5 n))

namespace Sys2Proof.Claims

/-! ## Scalar memory -/

/-- No byte and no full/empty tag of memory differs, nor what fetch and a walk may still see of earlier values (R36, R257). -/
def SameMemory (s t : State) : Prop := (∀ k, t.byte k = s.byte k) ∧ (∀ w, t.tagFull w = s.tagFull w) ∧ t.past = s.past

/-- The issuing slot is now x; beside it changed at most the data cache of its core, the cached translations, the lines of the Crema,
memory with its tags and poison, and the counter of free values; the older values that fetch and a walk may still see stay, new ones before
them. -/
def MemoryStep (s t : State) (x : Slot) : Prop :=
  t.me = x ∧ t.cur = s.cur ∧ (∀ o, o ≠ s.cur → t.slot o = s.slot o) ∧
    (∀ n, { t.core n with slots := (s.core n).slots, dcache := (s.core n).dcache } = s.core n) ∧
    (∀ n, n ≠ s.cur.core → (t.core n).dcache = (s.core n).dcache) ∧
    (∃ new, t.past = new ++ s.past) ∧
    { t with cores := s.cores, xlats := s.xlats, crema := s.crema, fresh := s.fresh, mem := s.mem, tags := s.tags, poison := s.poison,
             past := s.past } = s

/-- The issuing slot is now x, request number s.nextReq has been taken, and nothing else changed. -/
def Issues (s t : State) (x : Slot) : Prop :=
  SlotIs s t x ∧ t.nextReq = s.nextReq + 1 ∧ { t with cores := s.cores, nextReq := s.nextReq } = s

/-- The request that the issuing slot would leave in flight now: local, issued now under its CTXID. -/
def local_ (s : State) (k : ReqKind) (counted : Bool) : Req := ⟨s.nextReq, k, counted, false, false, false, s.time, s.ctxidOf s.cur, false⟩

/-- The same for a request to a peer, which belongs to the open region. -/
def remote (s : State) (k : ReqKind) : Req := ⟨s.nextReq, k, true, true, s.me.region.isSome, false, s.time, s.ctxidOf s.cur, false⟩

/-- A frame of that request for a device, for its element `elem`; it has no number yet. -/
def frameTo (s : State) (dev elem : Nat) (b : FrameBody) : Frame := ⟨s.fab.devno.toNat, dev, s.cur, s.nextReq, elem, 0, 0, 0, b⟩

/-- The instruction sends a request to a device, and its slot waits for the answer; nothing else changes. -/
def AsksPeer (i : Instr) (s : State) (dev : Nat) (k : ReqKind) (op : PeerOp) : Prop :=
  ∃ t, exec i s = .next t ∧ SlotIs s t { s.me with wait := .sent s.nextReq, reqs := s.me.reqs ++ [remote s k] } ∧
    t.fab.queue = s.fab.queue ++ [frameTo s dev 0 (.access op)] ∧
    { t with cores := s.cores, nextReq := s.nextReq, fab := { t.fab with queue := s.fab.queue } } = s

/-- The loads of the slot without a value, which an acquire orders before its later accesses (R157). -/
def loading (x : Slot) : List Nat := (x.reqs.filter Req.isLoad).map (·.num)

/-- What a release at a scope orders first is performed, and so is every store that an earlier release of the slot put before its own
(R156). -/
def Released (s : State) (scope : Nat) : Prop := s.releasing s.cur = false ∧ s.ordered scope = true

/-- Memory holds the n low bytes of v at the keys of l, byte 0 first, and every other byte is as before. -/
def Stored (s t : State) (l : Loc) (v : Nat) : Prop :=
  (∀ i k, l.keys[i]? = some k → t.byte k = BitVec.ofNat 8 (v / 256 ^ i)) ∧ ∀ k, k ∉ l.keys → t.byte k = s.byte k

/-- The words of l read as `full`, every other word as before. -/
def Tagged (s t : State) (l : Loc) (full : Bool) : Prop :=
  ∀ w, t.tagFull w = if w ∈ l.keys.map (· / 4) then full else s.tagFull w

/-- Bytes of a size code (R72). -/
def bytesOf (z : BitVec 3) : Nat := 2 ^ (z.toNat % 4)

/-- What a load writes for the bytes it reads (R73). -/
def loaded (z : BitVec 3) (bs : List Byte) : Word :=
  if 4 ≤ z.toNat then int (BitVec.ofNat (8 * bs.length) (leNat bs)).toInt else num (leNat bs)

/-- An access of n bytes at ea through pointer p that its own slot does not hold up: a good pointer, aligned, local, clear of earlier
accesses of the slot and of OUTST, translated to l with permission. -/
def Arrives (s : State) (p : Word) (ea n : Nat) (perm : Perm) (l : Loc) : Prop :=
  GoodPointer p ∧ ea % n = 0 ∧ ea < 2 ^ 55 ∧ mustWait s ea n true = false ∧ s.resolve (s.agent s.cur) ea n perm = .ok l

/-- Nothing holds it up: no near-bank unit is at work on the bank of its words either (R218, R223). -/
def Reaches (s : State) (p : Word) (ea n : Nat) (perm : Perm) (l : Loc) : Prop :=
  Arrives s p ea n perm l ∧ (l.ms = true → s.unitAt l.bank = none)

/-- A load of a core at ea meets uncorrectable data: the line its cache holds for a byte was filled with a poisoned word there, or no line
holds the byte and the word in memory is poisoned (R144, R297). -/
def MeetsPoison (s : State) (core ea : Nat) (l : Loc) : Prop :=
  ∃ i k, l.keys[i]? = some k ∧
    match (if cacheable core l then (s.core core).dcache.find? (fun c => c.line = (ea + i) / 64) else none) with
    | some c => c.bad.getLsbD ((ea + i) % 64 / 4) = true
    | none => mget false s.poison (k / 4) = true

/-- The same for an access at its point of coherence: no store that the slices hold stands before it at its words (R152, R154). -/
def ReachesPoint (s : State) (p : Word) (ea n : Nat) (perm : Perm) (l : Loc) : Prop :=
  Reaches s p ea n perm l ∧ s.sliceOver s.cur.core l.keys = false

abbrev LoadOp := Reg → Reg → Bool → BitVec 3 → BitVec 12 → Instr
abbrev AmoOp := Reg → Reg → Reg → Bool → Bool → BitVec 3 → Bool → Instr

/-- The loads and the stores of R72 and R160. -/
def loadOps : List LoadOp := [.ld, .ldn, .ldf, .ldfe]
def storeOps : List LoadOp := [.st, .ste, .stf]

/-- R162: each AMO with its function code and the new value of an n-bit word: from the old value, gb and gd. -/
def amoTable : List (AmoOp × Nat × (Nat → Nat → Nat → Nat → Nat)) :=
  [(.amoadd, 0, fun n old b _ => (old + b) % 2 ^ n), (.amoand, 1, fun _ old b _ => old &&& b), (.amoor, 2, fun _ old b _ => old ||| b),
   (.amoxor, 3, fun _ old b _ => old ^^^ b),
   (.amomin, 4, fun n old b _ => (min (BitVec.ofNat n old).toInt (BitVec.ofNat n b).toInt % 2 ^ n).toNat),
   (.amomax, 5, fun n old b _ => (max (BitVec.ofNat n old).toInt (BitVec.ofNat n b).toInt % 2 ^ n).toNat),
   (.amominu, 6, fun _ old b _ => min old b), (.amomaxu, 7, fun _ old b _ => max old b),
   (.amoswap, 8, fun _ _ b _ => b), (.amocas, 9, fun _ old b cmp => if old = cmp then b else old)]

/-- The AMOs by number, AMOFADD, which is 32 bits wide, among them. -/
def amoOps : List (AmoOp × Nat) := amoTable.map (fun p => (p.1, p.2.1)) ++ [(fun d a b x y c _ => .amofadd d a b x y c, 10)]

end Sys2Proof.Claims

/-! ## Scalar memory -/

/-- R72, R43 and R162: before anything else an access checks its pointer (FMTFAULT with the pointer), then its alignment
(MISALIGN with the effective pointer). -/
def Obligations.AccessesCheckPointerThenAlignment : Prop :=
  ∀ (s : State) (d a b : Reg) (x y : Bool) (z : BitVec 3) (o : BitVec 12) (c : BitVec 3) (w : Bool),
    CanRead s d → CanRead s a → CanRead s b → z.toNat ≤ 6 →
    let p := s.me.readG a
    let ea := effAddr p o (bytesOf z)
    (∀ f ∈ loadOps ++ storeOps,
      (¬GoodPointer p → Traps (f d a x z o) s 5 p) ∧
      (GoodPointer p → ea % bytesOf z ≠ 0 → Traps (f d a x z o) s 4 (withTop p ea))) ∧
    ∀ f ∈ amoOps, (f.2 = 10 → w = false) →
      (¬GoodPointer p → Traps (f.1 d a b x y c w) s 5 p) ∧
      (GoodPointer p → p.toNat % 2 ^ 56 % (if w then 8 else 4) ≠ 0 → Traps (f.1 d a b x y c w) s 4 p)

/-- R72 to R74: LD of a local address writes the bytes it finds, extended, to gd; memory and tags stay. A translation fault traps
with ea, as does a fault of the scratchpad window, poisoned data with its line address; a byte that the cache holds is as the line holds it.
While a near-bank unit is at work on the bank of the bytes, the LD waits there in the order of arrival (R218, R223). -/
def Sys2Proof.Claims.LoadWritesWhatMemoryHolds : Prop :=
  ∀ (s : State) (d a : Reg) (x : Bool) (z : BitVec 3) (o : BitVec 12), CanRead s a → CanWrite s d → z.toNat ≤ 6 →
    let p := s.me.readG a
    let n := bytesOf z
    let ea := effAddr p o n
    (∀ l, Reaches s p ea n permR l →
      (¬MeetsPoison s s.cur.core ea l → ∃ t, exec (.ld d a x z o) s = .next t ∧
        RegIs s.me t.me d (loaded z (s.loadBytes s.cur.core ea l)) ∧ SameMemory s t ∧
        MemoryStep s t { atNext s.me with g := t.me.g, gt := t.me.gt }) ∧
      (MeetsPoison s s.cur.core ea l → Traps (.ld d a x z o) s 12 (num (ea / 64 * 64)))) ∧
    (∀ l, Arrives s p ea n permR l → l.ms = true → s.unitAt l.bank = some false → ∃ t, exec (.ld d a x z o) s = .next t ∧
      SlotIs s t { s.me with wait := .retry } ∧ SameMemory s t ∧ ⟨l.bank, .slot s.cur s.me.pc⟩ ∈ t.carafe.waiting) ∧
    (∀ c, GoodPointer p → ea % n = 0 → ea < 2 ^ 55 → mustWait s ea n true = false →
      s.resolve (s.agent s.cur) ea n permR = .error c →
        if touchesWin ea n then Traps (.ld d a x z o) s c.toNat (num ea) else Faults (.ld d a x z o) s c ea)

/-- R75 and R76: LDN marks gd empty and ST takes its data, each leaves one request in flight and lets the slot go on; memory is as
before until the request is performed. An ST waits for the stores that an earlier release put before it (R156). -/
def Sys2Proof.Claims.LdnAndStLeaveARequest : Prop :=
  ∀ (s : State) (d a : Reg) (x : Bool) (z : BitVec 3) (o : BitVec 12), CanRead s a →
    let p := s.me.readG a
    let n := bytesOf z
    let ea := effAddr p o n
    let req (k : ReqKind) : Req := local_ s k (!ownPad s.cur.core ea n)
    GoodPointer p → ea % n = 0 → ea < 2 ^ 55 → mustWait s ea n false = false →
    (z.toNat ≤ 6 → CanWrite s d → (touchesWin ea n = true → ∃ l, s.resolve (s.agent s.cur) ea n permR = .ok l) →
      ∃ t, exec (.ldn d a x z o) s = .next t ∧
        (∀ r, t.me.tagG r = if r = d ∧ d ≠ 0 then .empty else s.me.tagG r) ∧
        Issues s t { atNext s.me with gt := t.me.gt, reqs := s.me.reqs ++ [req (.ldn d z (withTop p ea) (num ea))] }) ∧
    (z.toNat ≤ 3 → CanRead s d → s.releasing s.cur = false → (touchesWin ea n = true → ∃ l, s.resolve (s.agent s.cur) ea n permW = .ok l) →
      ∃ t, exec (.st d a x z o) s = .next t ∧
        Issues s t { atNext s.me with reqs := s.me.reqs ++ [req (.st z (withTop p ea) (num ea) (s.me.readG d))] })

/-- R160 and R157: LDF and LDFE read memory, past the data cache, once every word of the access is full, and order the slot's earlier loads
before its later accesses; LDFE leaves those words empty, and operations that wait on them are served. While a word is empty the slot
waits in the queue of R148. -/
def Sys2Proof.Claims.SynchronizingLoadsWaitForFull : Prop :=
  ∀ (s : State) (d a : Reg) (x : Bool) (z : BitVec 3) (o : BitVec 12) (l : Loc), CanRead s a → CanWrite s d → z.toNat ≤ 6 →
    let p := s.me.readG a
    let n := bytesOf z
    let ea := effAddr p o n
    let v := loaded z (s.bytes l.keys)
    Memory.wf s.mem = true → mwf true s.tags = true → s.isPoisoned l.keys = false →
    (ReachesPoint s p ea n permR l → s.locFull l = true → ∃ t, exec (.ldf d a x z o) s = .next t ∧ RegIs s.me t.me d v ∧
      SameMemory s t ∧ MemoryStep s t { atNext s.me with g := t.me.g, gt := t.me.gt, acq := loading s.me }) ∧
    (ReachesPoint s p ea n permRW l → l.tagged = true → s.locFull l = true → ∃ t, exec (.ldfe d a x z o) s = .next t.served ∧
      RegIs s.me t.me d v ∧ (∀ k, t.byte k = s.byte k) ∧ Tagged s t l false ∧
      MemoryStep s t { atNext s.me with g := t.me.g, gt := t.me.gt, acq := loading s.me }) ∧
    (ReachesPoint s p ea n permRW l → l.tagged = false → Traps (.ldfe d a x z o) s 7 (num ea)) ∧
    (∀ f ∈ [(Instr.ldf d a x z o, permR, WaitKind.ldf, false), (.ldfe d a x z o, permRW, .ldfe, true)],
      ReachesPoint s p ea n f.2.1 l → l.tagged = true → s.locFull l = false → ∃ t, exec f.1 s = .next t ∧ SameMemory s t ∧
        t.me = { s.me with wait := .sent s.nextReq,
                           reqs := s.me.reqs ++ [local_ s (.load d z (num ea) f.2.2.2) (!ownPad s.cur.core ea n)] } ∧
        t.waiters = s.waiters ++ [⟨s.cur, s.nextReq, l.keys.headD 0, n, f.2.2.1⟩])

/-- R160 and R157: STF writes its bytes and sets the words full, STE once every word of the access is empty; both wait until every
earlier access of the slot is performed, in the scratchpad window at cluster scope and else at package scope; operations that wait on the
words are then served. -/
def Sys2Proof.Claims.SynchronizingStoresFillTheirWords : Prop :=
  ∀ (s : State) (r a : Reg) (x : Bool) (z : BitVec 3) (o : BitVec 12) (l : Loc), CanRead s r → CanRead s a → z.toNat ≤ 3 →
    let p := s.me.readG a
    let n := bytesOf z
    let ea := effAddr p o n
    let v := (s.me.readG r).toNat
    Memory.wf s.mem = true → mwf true s.tags = true → ReachesPoint s p ea n permW l → s.isPoisoned l.keys = false →
    (¬Released s (if inWin ea then 2 else 4) → Waits (.stf r a x z o) s ∧ Waits (.ste r a x z o) s) ∧
    (Released s (if inWin ea then 2 else 4) →
      (l.tagged = false → Traps (.ste r a x z o) s 7 (num ea)) ∧
      (∀ f ∈ [(Instr.stf r a x z o, true), (.ste r a x z o, s.locEmpty l)], f.2 = true →
        ∃ t, exec f.1 s = .next t.served ∧ Stored s t l v ∧ Tagged s t l true ∧ MemoryStep s t (atNext s.me)) ∧
      (l.tagged = true → s.locEmpty l = false → ∃ t, exec (.ste r a x z o) s = .next t ∧ SameMemory s t ∧
        t.me = { s.me with wait := .sent s.nextReq,
                           reqs := s.me.reqs ++ [local_ s (.store z (num ea) (s.me.readG r)) (!ownPad s.cur.core ea n)] } ∧
        t.waiters = s.waiters ++ [⟨s.cur, s.nextReq, l.keys.headD 0, n, .ste⟩]))

/-- R162: an AMO replaces the word at ga by a function of the old value and gb, and writes the old value to gd; tags stay. It waits
until every earlier access of the slot is performed at its scope. -/
def Sys2Proof.Claims.AmosReplaceAWordAndReturnIt : Prop :=
  ∀ (s : State) (d a b : Reg) (x y : Bool) (c : BitVec 3) (w : Bool) (l : Loc), CanRead s a → CanRead s b → CanWrite s d →
    let p := s.me.readG a
    let n := if w then 8 else 4
    let ea := p.toNat % 2 ^ 56
    let old := leNat (s.bytes l.keys)
    let bv := (s.me.readG b).toNat % 2 ^ (8 * n)
    Memory.wf s.mem = true → ReachesPoint s p ea n permRW l → s.isPoisoned l.keys = false →
    (¬Released s c.toNat → ∀ f ∈ amoOps, (f.2 = 9 → CanRead s d) → (f.2 = 10 → w = false) → Waits (f.1 d a b x y c w) s) ∧
    (Released s c.toNat →
      (∀ f ∈ amoTable, (f.2.1 = 9 → CanRead s d) → ∃ t, exec (f.1 d a b x y c w) s = .next t ∧
        RegIs s.me t.me d (if w then num old else int (BitVec.ofNat 32 old).toInt) ∧
        Stored s t l (f.2.2 (8 * n) old bv ((s.me.readG d).toNat % 2 ^ (8 * n))) ∧ (∀ k, t.tagFull k = s.tagFull k) ∧
        MemoryStep s t { atNext s.me with g := t.me.g, gt := t.me.gt }) ∧
      (w = false → ∃ t, exec (.amofadd d a b x y c) s = .next t ∧ RegIs s.me t.me d (num old) ∧
        Stored s t l (fAdd 0 0 (BitVec.ofNat 32 old) (BitVec.ofNat 32 bv)).1.toNat ∧ (∀ k, t.tagFull k = s.tagFull k) ∧
        MemoryStep s t { atNext s.me with g := t.me.g, gt := t.me.gt }))

/-- R274 and R74, R160, R162: a blocking access to a reachable peer leaves one request in flight and one frame in the send queue of
its device, and the slot waits for the answer; an access to the package's own device traps ACCESS. -/
def Sys2Proof.Claims.BlockingPeerAccessesAreSent : Prop :=
  ∀ (s : State) (d a b : Reg) (x y : Bool) (z : BitVec 3) (o : BitVec 12) (c : BitVec 3) (w : Bool),
    CanRead s d → CanRead s a → CanRead s b →
    let p := s.me.readG a
    let n := bytesOf z
    let ea := effAddr p o n
    let at_ := p.toNat % 2 ^ 56
    let sent (i : Instr) (ea : Nat) (k : ReqKind) (op : PeerOp) : Prop :=
      (ea / 2 ^ 40 % 2 ^ 15 = s.fab.devno.toNat → Traps i s 7 (withTop p ea)) ∧
      (ea / 2 ^ 40 % 2 ^ 15 ≠ s.fab.devno.toNat → mustWait s ea (bytesOf z) true = false → s.fab.reaches (ea / 2 ^ 40 % 2 ^ 15) = true →
        AsksPeer i s (ea / 2 ^ 40 % 2 ^ 15) k op)
    GoodPointer p →
    (ea % n = 0 → 2 ^ 55 ≤ ea → z.toNat ≤ 6 →
      sent (.ld d a x z o) ea (.load d z (num ea) false) (.read (ea % 2 ^ 40) n) ∧
      sent (.ldf d a x z o) ea (.load d z (num ea) false) (.syncLoad (ea % 2 ^ 40) n false) ∧
      sent (.ldfe d a x z o) ea (.load d z (num ea) true) (.syncLoad (ea % 2 ^ 40) n true)) ∧
    (ea % n = 0 → 2 ^ 55 ≤ ea → z.toNat ≤ 3 → Released s 5 →
      sent (.ste d a x z o) ea (.store z (num ea) (s.me.readG d)) (.syncStore (ea % 2 ^ 40) (toBytes n (s.me.readG d).toNat) true) ∧
      sent (.stf d a x z o) ea (.store z (num ea) (s.me.readG d)) (.syncStore (ea % 2 ^ 40) (toBytes n (s.me.readG d).toNat) false)) ∧
    (bytesOf z = (if w then 8 else 4) → at_ % n = 0 → 2 ^ 55 ≤ at_ → Released s c.toNat →
      ∀ f ∈ amoOps, (f.2 = 10 → w = false) →
        sent (f.1 d a b x y c w) at_ (.amo d w (f.2 = 10) (2 ≤ c.toNat)) (.amo f.2 w (at_ % 2 ^ 40) (s.me.readG b) (s.me.readG d)))

namespace Sys2Proof.Claims

/-! ## Floating point -/

/-- R50: the generator of stochastic words. -/
def nextSeed (r : BitVec 16) : BitVec 16 :=
  BitVec.ofNat 16 (2 * r.toNat + (r.getLsbD 15 ^^ r.getLsbD 13 ^^ r.getLsbD 12 ^^ r.getLsbD 10).toNat)

/-- The generator after n words, which only mode 4 (SR) draws (R50). -/
def seedAfter (x : Slot) (n : Nat) : BitVec 16 := if x.rm = 4 then nextSeed^[n] x.rngseed else x.rngseed

/-- The word of rounding number k of an instruction, 0 where the mode draws none. -/
def wordOf (x : Slot) (k : Nat) : Nat := if x.rm = 4 then (nextSeed^[k] x.rngseed).toNat else 0

/-- FSTAT with flags added at bits [9:4] (R38, R53). -/
def withFlags (f : BitVec 10) (fl : Flags) : BitVec 10 := f ||| BitVec.ofNat 10 (16 * fl.toNat)

/-- FP32 encodings (R45): NaN, signalling NaN, sign, and a number that orders all others as their values. -/
def isNaN32 (w : Word32) : Bool := 0x7F800000 < w.toNat % 2 ^ 31
def isSNaN32 (w : Word32) : Bool := isNaN32 w && !w.getLsbD 22
def order32 (w : Word32) : Int := if w.getLsbD 31 then -(w.toNat % 2 ^ 31 : Nat) else w.toNat % 2 ^ 31

/-- NV for a signalling operand (R46). -/
def nvIf (b : Bool) : Flags := if b then 0x20 else 0

/-- R80: the class bit of FCLASS. -/
def classOf (w : Word32) : Nat :=
  let neg := w.getLsbD 31
  let mag := w.toNat % 2 ^ 31
  if isNaN32 w then (if isSNaN32 w then 8 else 9)
  else if mag = 0x7F800000 then (if neg then 0 else 7)
  else if 0x800000 ≤ mag then (if neg then 1 else 6)
  else if 0 < mag then (if neg then 2 else 5)
  else if neg then 3 else 4

/-- R80: FCMP's code. -/
def compare32 (a b : Word32) : Word32 :=
  if isNaN32 a || isNaN32 b then 8 else if order32 a < order32 b then 1 else if order32 a = order32 b then 2 else 4

/-- R80: minimumNumber (or maximumNumber): -0 is below +0, a NaN yields the other operand. -/
def extreme32 (less : Bool) (a b : Word32) : Word32 :=
  if isNaN32 a then (if isNaN32 b then 0x7FC00000 else b)
  else if isNaN32 b then a
  else
    let first := decide (order32 a < order32 b) || (decide (order32 a = order32 b) && a.getLsbD 31)
    if first = less then a else b

abbrev F2 := Nat → Nat → Word32 → Word32 → Word32 → Word32 × Flags

/-- R80: the scalar instructions that round once: whether gd is read, and the result as a function of the mode, the word, a, b and gd. -/
def sfpTable : List (Op2 × Bool × F2) :=
  [(.fadd, false, fun rm w a b _ => fAdd rm w a b), (.fsub, false, fun rm w a b _ => fSub rm w a b),
   (.fmul, false, fun rm w a b _ => fMul rm w a b), (.fdiv, false, fun rm w a b _ => fDiv rm w a b),
   (.ffma, true, fun rm w a b d => fFma rm w a b d), (fun d a _ x _ => .fsqrt d a x, false, fun rm w a _ _ => fSqrt rm w a)]

/-- R80: those that name no rounding: result and flags. -/
def sfpExactTable : List (Op2 × (Word32 → Word32 → Word32 × Flags)) :=
  [(.fmin, fun a b => (extreme32 true a b, nvIf (isSNaN32 a || isSNaN32 b))),
   (.fmax, fun a b => (extreme32 false a b, nvIf (isSNaN32 a || isSNaN32 b))),
   (.fcmp, fun a b => (compare32 a b, nvIf (isSNaN32 a || isSNaN32 b))),
   (fun d a _ x _ => .fclass d a x, fun a _ => (BitVec.ofNat 32 (2 ^ classOf a), 0))]

def low (w : Word) : Word32 := BitVec.ofNat 32 w.toNat

/-- The instruction completes: gd holds the 32 bits r over zeros, the flags are added to FSTAT, the generator has given n words. -/
def GivesF (i : Instr) (s : State) (d : Reg) (n : Nat) (r : Word32 × Flags) : Prop :=
  ∃ t, exec i s = .next t ∧ RegIs s.me t.me d (num r.1.toNat) ∧
    OnlySlot s t { atNext s.me with g := t.me.g, gt := t.me.gt, fstat := withFlags s.me.fstat r.2, rngseed := seedAfter s.me n }

/-! ## Vectors -/

/-- A vector operand names core register n (R22). -/
def Names (s : State) (r : VReg) (n : Nat) : Prop := s.me.vreg r = .ok n ∧ n < 128

/-- Vector register n may be written: under a mask, or where the operation reads it, it is a source (R93). -/
def CanPut (s : State) (n : Nat) (reads : Bool) : Prop := if reads then CanReadV s n else CanWriteV s n

/-- Core vector register n of the issuing core is full and its lane i holds f i, every other vector register is as before, the issuing slot is now
x, and nothing else changed. -/
def VecIs (s t : State) (n : Nat) (f : Nat → Word32) (x : Slot) : Prop :=
  (∀ i, i < 16 → lane (t.myCore.readV n) i = f i) ∧ t.myCore.tagV n = .full ∧
    (∀ k, k ≠ n → t.myCore.readV k = s.myCore.readV k ∧ t.myCore.tagV k = s.myCore.tagV k) ∧
    t.me = x ∧ t.cur = s.cur ∧ (∀ o, o ≠ s.cur → t.slot o = s.slot o) ∧
    (∀ c, { t.core c with slots := (s.core c).slots, v := (s.core c).v, vt := (s.core c).vt } = s.core c) ∧
    (∀ c, c ≠ s.cur.core → (t.core c).v = (s.core c).v ∧ (t.core c).vt = (s.core c).vt) ∧
    { t with cores := s.cores } = s

def VecGives (i : Instr) (s : State) (n : Nat) (f : Nat → Word32) (x : Slot) : Prop := ∃ t, exec i s = .next t ∧ VecIs s t n f x

abbrev VOp2 := VReg → VReg → VReg → MReg → Instr

/-- R95 and R112: lane functions of VALU and of VMOVV. -/
def valuTable : List (VOp2 × (Word32 → Word32 → Word32)) :=
  [(.vadd, fun a b => BitVec.ofNat 32 (a.toNat + b.toNat)), (.vsub, fun a b => BitVec.ofInt 32 (a.toNat - b.toNat)),
   (.vmul, fun a b => BitVec.ofNat 32 (a.toNat * b.toNat)), (.vmulh, fun a b => BitVec.ofInt 32 (a.toInt * b.toInt / 2 ^ 32)),
   (.vand, fun a b => BitVec.ofNat 32 (a.toNat &&& b.toNat)), (.vor, fun a b => BitVec.ofNat 32 (a.toNat ||| b.toNat)),
   (.vxor, fun a b => BitVec.ofNat 32 (a.toNat ^^^ b.toNat)),
   (.vsll, fun a b => BitVec.ofNat 32 (a.toNat * 2 ^ (b.toNat % 32))), (.vsrl, fun a b => BitVec.ofNat 32 (a.toNat / 2 ^ (b.toNat % 32))),
   (.vsra, fun a b => BitVec.ofInt 32 (a.toInt / 2 ^ (b.toNat % 32))),
   (.vmin, fun a b => BitVec.ofInt 32 (min a.toInt b.toInt)), (.vmax, fun a b => BitVec.ofInt 32 (max a.toInt b.toInt)),
   (.vminu, fun a b => BitVec.ofNat 32 (min a.toNat b.toNat)), (.vmaxu, fun a b => BitVec.ofNat 32 (max a.toNat b.toNat)),
   (fun vd va _ m => .vabs vd va m, fun a _ => BitVec.ofInt 32 |a.toInt|), (fun vd va _ m => .vmovv vd va m, fun a _ => a)]

/-- R95 and R96: the compares into a mask register. -/
def vcmpTable : List ((MReg → VReg → VReg → MReg → Instr) × (Word32 → Word32 → Bool)) :=
  [(.vcmpeq, fun a b => a.toNat = b.toNat), (.vcmplt, fun a b => a.toInt < b.toInt), (.vcmpltu, fun a b => a.toNat < b.toNat)]

/-- R112: the moves of three vector operands. The first 14 rows of valuTable and the first 9 of vfpTable have three too. -/
def shuffles : List VOp2 := [.vshuf, .vsel]

/-- R97 to R100, R102 and R103: the float lanes: whether vd is read, whether lanes round, the lane function of mode, XM, word, a, b and d. -/
def vfpTable : List (VOp2 × Bool × Bool × (Nat → Bool → Nat → Word32 → Word32 → Word32 → Word32 × Flags)) :=
  [(.vfadd, false, true, fun rm _ w a b _ => fAdd rm w a b), (.vfsub, false, true, fun rm _ w a b _ => fSub rm w a b),
   (.vfmul, false, true, fun rm _ w a b _ => fMul rm w a b), (.vfdiv, false, true, fun rm _ w a b _ => fDiv rm w a b),
   (.vffma, true, true, fun rm _ w a b d => fFma rm w a b d), (.vdot2, true, true, fun rm _ w a b d => dot2 rm w a b d),
   (.vfmin, false, false, fun _ _ _ a b _ => (extreme32 true a b, nvIf (isSNaN32 a || isSNaN32 b))),
   (.vfmax, false, false, fun _ _ _ a b _ => (extreme32 false a b, nvIf (isSNaN32 a || isSNaN32 b))),
   (.vfcmp, false, false, fun _ _ _ a b _ => (compare32 a b, nvIf (isSNaN32 a || isSNaN32 b))),
   (fun vd va _ m => .vfsqrt vd va m, false, true, fun rm _ w a _ _ => fSqrt rm w a),
   (fun vd va _ m => .vfrcp vd va m, false, true, fun rm _ w a _ _ => fRcp rm w a),
   (fun vd va _ m => .vfrsq vd va m, false, true, fun rm _ w a _ _ => fRsq rm w a),
   (fun vd va _ m => .vfexp2 vd va m, false, true, fun rm _ w a _ _ => fExp2 rm w a),
   (fun vd va _ m => .vflog2 vd va m, false, true, fun rm _ w a _ _ => fLog2 rm w a)] ++
  (List.range 20).map fun c =>
    (fun vd va _ m => .vcvt vd va (BitVec.ofNat 5 c) m, false, decide (c < 16), fun rm xm w a _ _ => cvtLane c rm xm w a)

/-- Active lanes below lane i: the number of the rounding of lane i (R50). -/
def rankOf (m : BitVec 16) (i : Nat) : Nat := ((List.range i).filter fun j => m.getLsbD j).length

end Sys2Proof.Claims

/-! ## Floating point -/

/-- R80, R50 and R53: the scalar instructions that round once write the rounded result over zeros, add its flags to FSTAT and draw one
word in mode SR; those that name no rounding compare and classify encodings and draw none. -/
def Sys2Proof.Claims.ScalarFloatsWriteResultAndFlags : Prop :=
  ∀ (s : State) (d a b : Reg) (x y : Bool), CanRead s a → CanRead s b → CanWrite s d →
    let va := low (s.me.readG a)
    let vb := low (s.me.readG b)
    (∀ p ∈ sfpTable, (p.2.1 → CanRead s d) →
      GivesF (p.1 d a b x y) s d 1 (p.2.2 s.me.rm.toNat (wordOf s.me 0) va vb (low (s.me.readG d)))) ∧
    (∀ p ∈ sfpExactTable, GivesF (p.1 d a b x y) s d 0 (p.2 va vb))

/-- R45, R46 and R80: a NaN operand gives the canonical NaN in every scalar operation that rounds, and NV exactly when an operand is
signalling; so do the invalid operations, and a division of a finite non-zero number by zero gives an infinity and DZ. -/
def Sys2Proof.Claims.FloatSpecialValues : Prop :=
  ∀ (rm w : Nat) (a b d : Word32),
    (isNaN32 a || isNaN32 b → ∀ f ∈ [fAdd, fSub, fMul, fDiv], f rm w a b = (0x7FC00000, nvIf (isSNaN32 a || isSNaN32 b))) ∧
    (isNaN32 a || isNaN32 b → !isNaN32 d → fFma rm w a b d = (0x7FC00000, nvIf (isSNaN32 a || isSNaN32 b))) ∧
    (isNaN32 a → fSqrt rm w a = (0x7FC00000, nvIf (isSNaN32 a))) ∧
    (fAdd rm w 0x7F800000 0xFF800000 = (0x7FC00000, 0x20)) ∧ (fMul rm w 0 0xFF800000 = (0x7FC00000, 0x20)) ∧
    (a.toNat % 2 ^ 31 = 0 → b.toNat % 2 ^ 31 = 0 → fDiv rm w a b = (0x7FC00000, 0x20)) ∧
    (0 < a.toNat % 2 ^ 31 → a.toNat % 2 ^ 31 < 0x7F800000 → b.toNat % 2 ^ 31 = 0 →
      fDiv rm w a b = (BitVec.ofNat 32 (0x7F800000 + 2 ^ 31 * (a.getLsbD 31 != b.getLsbD 31).toNat), 0x10)) ∧
    (0x80000000 < a.toNat → a.toNat ≤ 0xFF800000 → fSqrt rm w a = (0x7FC00000, 0x20)) ∧
    fSqrt rm w 0x80000000 = (0x80000000, 0)

/-- R81: FCVT takes its formats from gb; a code that does not convert traps FMTFAULT with gb, and else the value is decoded, rounded
once (drawing a word unless both formats are integers) and extended by its format. -/
def Sys2Proof.Claims.FcvtConverts : Prop :=
  ∀ (s : State) (d a b : Reg) (x y : Bool), CanRead s a → CanRead s b → CanWrite s d →
    let gb := s.me.readG b
    let src := gb.toNat % 32
    let dst := gb.toNat / 256 % 32
    let codes := (List.range 16).filter fun c => c ≠ 0 && c ≠ 11
    let n := if src < 8 && dst < 8 then 0 else 1
    (¬(src ∈ codes ∧ dst ∈ codes) → Traps (.fcvt d a b x y) s 5 gb) ∧
    (src ∈ codes → dst ∈ codes →
      let r := encodeVal dst s.me.xm s.me.rm.toNat (if n = 1 then wordOf s.me 0 else 0) (decodeVal src s.me.xm (s.me.readG a).toNat)
      ∃ t, exec (.fcvt d a b x y) s = .next t ∧ RegIs s.me t.me d (if dst ≤ 4 then int (idecode dst r.1) else num r.1) ∧
        OnlySlot s t { atNext s.me with g := t.me.g, gt := t.me.gt, fstat := withFlags s.me.fstat r.2, rngseed := seedAfter s.me n })

/-! ## Vectors -/

/-- R22 and R17 step 2: a vector operand of a lane operation, a compare or a shuffle whose index vi + k is negative or not below vcount traps
VREGBOUND with the index, before any source is looked at; the destination first, then a, then b. -/
def Sys2Proof.Claims.VectorOperandsAreBounded : Prop :=
  ∀ (s : State) (vd va vb : VReg) (md m : MReg),
    let index (r : VReg) : Int := if r.rel then s.me.vi.toInt + r.n.toNat else r.n.toNat
    let good (r : VReg) : Prop := 0 ≤ index r ∧ index r < (s.me.valloc.toNat / 256 : Nat)
    (∀ r, good r → s.me.vreg r = .ok (s.me.valloc.toNat % 256 + (index r).toNat)) ∧
    (∀ f ∈ valuTable.map (·.1) ++ vfpTable.map (·.1) ++ shuffles,
      (¬good vd → Traps (f vd va vb m) s 3 (int (index vd))) ∧ (good vd → ¬good va → Traps (f vd va vb m) s 3 (int (index va)))) ∧
    (∀ f ∈ (valuTable.take 14).map (·.1) ++ (vfpTable.take 9).map (·.1) ++ shuffles,
      good vd → good va → ¬good vb → Traps (f vd va vb m) s 3 (int (index vb))) ∧
    ∀ f ∈ vcmpTable.map (·.1),
      (¬good va → Traps (f md va vb m) s 3 (int (index va))) ∧ (good va → ¬good vb → Traps (f md va vb m) s 3 (int (index vb)))

/-- R92, R93 and R95: an integer lane operation writes its result to the active lanes of vd, the other lanes keep their values, and no
flag or mask changes. -/
def Sys2Proof.Claims.VectorIntegersWriteActiveLanes : Prop :=
  ∀ (s : State) (vd va vb : VReg) (m : MReg) (d a b : Nat), Names s vd d → Names s va a → Names s vb b → CanReadV s a → CanReadV s b →
    CanPut s d (m ≠ 0) →
    ∀ p ∈ valuTable, VecGives (p.1 vd va vb m) s d (fun i => if (s.me.readM m).getLsbD i then
      p.2 (lane (s.myCore.readV a) i) (lane (s.myCore.readV b) i) else lane (s.myCore.readV d) i) (atNext s.me)

/-- R96: a compare writes the whole mask register: bit i says that lane i is active and its comparison holds; a compare into m0
changes nothing. -/
def Sys2Proof.Claims.VectorComparesWriteAMask : Prop :=
  ∀ (s : State) (md : MReg) (va vb : VReg) (m : MReg) (a b : Nat), Names s va a → Names s vb b → CanReadV s a → CanReadV s b →
    ∀ p ∈ vcmpTable, ∃ t, exec (p.1 md va vb m) s = .next t ∧ OnlySlot s t { atNext s.me with m := t.me.m } ∧
      (∀ k, k ≠ md ∨ md = 0 → t.me.readM k = s.me.readM k) ∧
      (md ≠ 0 → ∀ i, i < 16 → (t.me.readM md).getLsbD i =
        ((s.me.readM m).getLsbD i && p.2 (lane (s.myCore.readV a) i) (lane (s.myCore.readV b) i)))

/-- R92, R97, R99, R100, R102, R103, R50 and R53: a float lane operation writes its active lanes; active lane number k uses word k of
the generator; the flags of the active lanes are added to FSTAT. -/
def Sys2Proof.Claims.VectorFloatsWriteActiveLanes : Prop :=
  ∀ (s : State) (vd va vb : VReg) (m : MReg) (d a b : Nat), Names s vd d → Names s va a → Names s vb b → CanReadV s a → CanReadV s b →
    ∀ p ∈ vfpTable, CanPut s d (p.2.1 || m ≠ 0) →
      let act := s.me.readM m
      let r (i : Nat) := p.2.2.2 s.me.rm.toNat s.me.xm (if p.2.2.1 then wordOf s.me (rankOf act i) else 0)
        (lane (s.myCore.readV a) i) (lane (s.myCore.readV b) i) (lane (s.myCore.readV d) i)
      VecGives (p.1 vd va vb m) s d (fun i => if act.getLsbD i then (r i).1 else lane (s.myCore.readV d) i)
        { atNext s.me with
            fstat := withFlags s.me.fstat (((List.range 16).filter fun i => act.getLsbD i).foldl (fun f i => f ||| (r i).2) 0),
            rngseed := if p.2.2.1 then seedAfter s.me (rankOf act 16) else s.me.rngseed }

/-- R101: VRED combines the sixteen lanes, an inactive one as the identity, in a fixed tree into lane 0 and clears the others; only
.FADD draws, 15 words; the integer reductions are the sum modulo 2^32 and the extremes of the active lanes. -/
def Sys2Proof.Claims.VredReducesInATree : Prop :=
  ∀ (s : State) (vd va : VReg) (m : MReg) (op : BitVec 5) (d a : Nat), Names s vd d → Names s va a → CanReadV s a → CanWriteV s d →
    op.toNat ≤ 5 →
    let act := s.me.readM m
    let xs := (List.range 16).map fun i => if act.getLsbD i then lane (s.myCore.readV a) i else redIdentity op.toNat
    let ints := ((List.range 16).filter fun i => act.getLsbD i).map fun i => (lane (s.myCore.readV a) i).toInt
    let r := redTree op.toNat s.me.rm.toNat (if op = 0 then (List.range 15).map (wordOf s.me) else []) xs
    VecGives (.vred vd va op m) s d (fun i => if i = 0 then r.1 else 0)
      { atNext s.me with fstat := withFlags s.me.fstat r.2, rngseed := if op = 0 then seedAfter s.me 15 else s.me.rngseed } ∧
    (op = 3 → r.1 = BitVec.ofInt 32 ints.sum) ∧
    (op = 4 → r.1 = BitVec.ofInt 32 (ints.foldl min (2 ^ 31 - 1))) ∧ (op = 5 → r.1 = BitVec.ofInt 32 (ints.foldl max (-2 ^ 31)))

/-- R102 and R104: a block conversion: 32 values of va and the next register become one padded record in vd, or a record becomes 32
values in vd and the next register. -/
def Sys2Proof.Claims.BlockConversionsUseRegisterPairs : Prop :=
  ∀ (s : State) (vd va : VReg) (c : BitVec 5) (d a : Nat), Names s vd d → Names s va a → 20 ≤ c.toNat → c.toNat ≤ 25 → CanReadV s a →
    CanWriteV s d →
    let fmt := 17 + (c.toNat - 20) / 2
    let val (n i : Nat) := f32 (lane (s.myCore.readV n) i)
    (c.toNat % 2 = 0 → ∀ a', vnext s.me va = .ok a' → a' < 128 → CanReadV s a' →
      let r := encodeRecord fmt s.me.xm s.me.rm.toNat ((List.range 32).map (wordOf s.me))
        ((List.range 16).map (val a) ++ (List.range 16).map (val a'))
      VecGives (.vcvt vd va c 0) s d (fun i => BitVec.ofNat 32 (leNat ((r.1.drop (4 * i)).take 4)))
        { atNext s.me with fstat := withFlags s.me.fstat r.2, rngseed := seedAfter s.me 32 }) ∧
    (c.toNat % 2 = 1 → ∀ d', vnext s.me vd = .ok d' → d' < 128 → CanWriteV s d' →
      let bytes := ((List.range 16).flatMap fun i => toBytes 4 (lane (s.myCore.readV a) i).toNat).take (packedSize fmt)
      let e (i : Nat) := pack32 s.me.rm.toNat (wordOf s.me i) (recElem fmt s.me.xm bytes i, 0)
      ∃ t, exec (.vcvt vd va c 0) s = .next t ∧
        (∀ i, i < 16 → lane (t.myCore.readV d) i = (e i).1 ∧ lane (t.myCore.readV d') i = (e (16 + i)).1) ∧
        (∀ k, k ≠ d → k ≠ d' → t.myCore.readV k = s.myCore.readV k ∧ t.myCore.tagV k = s.myCore.tagV k) ∧
        (∀ o, o ≠ s.cur → t.slot o = s.slot o) ∧ { t with cores := s.cores } = s ∧
        t.me = { atNext s.me with
          fstat := withFlags s.me.fstat ((List.range 32).foldl (fun f i => f ||| (e i).2) 0), rngseed := seedAfter s.me 32 })

/-- R112: the moves between registers, lanes and masks. -/
def Sys2Proof.Claims.VectorMovesMoveLanes : Prop :=
  ∀ (s : State) (vd va vb : VReg) (gd g : Reg) (md ma : MReg) (m : MReg) (l : BitVec 4) (d a b : Nat),
    Names s vd d → Names s va a → Names s vb b → CanReadV s a → CanReadV s b → CanRead s g →
    let v (n i : Nat) := lane (s.myCore.readV n) i
    let act := s.me.readM m
    let word := s.me.readG g
    (CanPut s d (m ≠ 0) →
      VecGives (.vbcast vd g m) s d (fun i => if act.getLsbD i then low word else v d i) (atNext s.me) ∧
      VecGives (.vshuf vd va vb m) s d (fun i => if act.getLsbD i then
        (if (v b i).toNat < 2 ^ 31 then v a ((v b i).toNat % 16) else 0) else v d i) (atNext s.me)) ∧
    (CanWriteV s d → VecGives (.vsel vd va vb m) s d (fun i => if m = 0 ∨ act.getLsbD i then v a i else v b i) (atNext s.me)) ∧
    (CanReadV s d → VecGives (.vins vd l g) s d (fun i => if i = l.toNat then low word else v d i) (atNext s.me)) ∧
    (CanWrite s gd → Gives (.vext gd va g) s gd (num (v a (word.toNat % 16)).toNat) ∧
      Gives (.vmovgFromMask gd ma) s gd (num (s.me.readM ma).toNat)) ∧
    ∃ t, exec (.vmovgToMask md g) s = .next t ∧ OnlySlot s t { atNext s.me with m := t.me.m } ∧
      ∀ k, t.me.readM k = if k = md ∧ md ≠ 0 then BitVec.ofNat 16 word.toNat else s.me.readM k

/-- R112 and R113: the operations on masks, and VIADD, which wraps vi by W unless W is 0. -/
def Sys2Proof.Claims.MasksAndViadd : Prop :=
  ∀ (s : State) (md ma mb : MReg) (gd g : Reg) (w : BitVec 5),
    let bit (m : MReg) (i : Nat) : Bool := m = 0 || (s.me.m[m.toNat]'m.isLt).getLsbD i
    (∀ p ∈ [(Instr.mand md ma mb, fun i => bit ma i && bit mb i), (.mor md ma mb, fun i => bit ma i || bit mb i), (.mnot md ma, fun i => !bit ma i)],
      ∃ t, exec p.1 s = .next t ∧ OnlySlot s t { atNext s.me with m := t.me.m } ∧ (∀ k, k ≠ md ∨ md = 0 → t.me.readM k = s.me.readM k) ∧
        (md ≠ 0 → ∀ i, i < 16 → (t.me.readM md).getLsbD i = p.2 i)) ∧
    (CanWrite s gd → Gives (.mpop gd ma) s gd (num ((List.range 16).filter (bit ma)).length)) ∧
    (CanRead s g → Makes (.viadd w g) s { atNext s.me with
      vi := BitVec.ofInt 8 (if w = 0 then s.me.vi.toInt + (s.me.readG g).toInt else (s.me.vi.toInt + (s.me.readG g).toInt) % w.toNat) })

namespace Sys2Proof.Claims

/-! ## Vector memory -/

/-- A vector access of elements es (number and address) that nothing holds up: R43, R105 to R107, R78, R156 and R39 let it issue, and the
peers it names are reachable. -/
def VecReady (s : State) (p : Word) (m : MReg) (perm : Perm) (off : Nat → Int) (es : List (Nat × Nat)) : Prop :=
  let fmt := ptrFmt p
  let w := vecWidth fmt
  s.me.acquiring = false ∧ (perm.w → s.releasing s.cur = false) ∧
  GoodPointer p ∧ (w = 0 → m = 0) ∧ es = vecElems w (s.me.readM m) p off ∧ vecMisaligned w es = none ∧
    (∀ e ∈ es, s.ownDevice e.2 = false ∧ s.me.waitsFor e.2 (vecBytes fmt w e.2) = false ∧ s.me.parkedOver e.2 (vecBytes fmt w e.2) = false) ∧
    vecFault s fmt w perm es = none ∧
    ((∃ e ∈ es, ownPad s.cur.core e.2 (vecBytes fmt w e.2) = false) → s.myCore.outstFull = false) ∧
    ∀ e ∈ es, isPeer e.2 → s.fab.reaches (peerDev e.2)

/-- The request of a vector access: counted unless all its elements lie in the own scratchpad. -/
def vecReq (s : State) (p : Word) (k : ReqKind) (es : List (Nat × Nat)) : Req :=
  let peer := es.any fun e => isPeer e.2
  ⟨s.nextReq, k, !es.all fun e => ownPad s.cur.core e.2 (vecBytes (ptrFmt p) (vecWidth (ptrFmt p)) e.2), peer, peer && s.me.region.isSome, false, s.time,
    s.ctxidOf s.cur, false⟩

/-- One frame per peer element, in element order, joins the send queues. -/
def FramesFor (s t : State) (es : List (Nat × Nat)) (op : Nat × Nat → PeerOp) : Prop :=
  t.fab.queue = s.fab.queue ++ (es.filter fun e => isPeer e.2).map fun e =>
    frameTo s (peerDev e.2) e.1 (.access (op e))

/-- A vector load issues: register d of the core is empty, its lanes and every other register are as before, the slot goes on with one request
more and `acq` as the loads that its later accesses wait for; memory is as before. -/
def VecLoads (i : Instr) (s : State) (d : Nat) (r : Req) (acq : List Nat) (frames : State → Prop) : Prop :=
  ∃ t, exec i s = .next t ∧ frames t ∧ t.myCore.tagV d = .empty ∧ (∀ k, t.myCore.readV k = s.myCore.readV k) ∧
    (∀ k, k ≠ d → t.myCore.tagV k = s.myCore.tagV k) ∧ t.me = { atNext s.me with reqs := s.me.reqs ++ [r], acq := acq } ∧ t.cur = s.cur ∧
    (∀ o, o ≠ s.cur → t.slot o = s.slot o) ∧ (∀ c, { t.core c with slots := (s.core c).slots, vt := (s.core c).vt } = s.core c) ∧
    t.nextReq = s.nextReq + 1 ∧
    { t with cores := s.cores, xlats := s.xlats, nextReq := s.nextReq, waiters := s.waiters, fab := { t.fab with queue := s.fab.queue } } = s

/-- A vector store issues: its data leave the register, and the slot goes on with one request more. -/
def VecStores (i : Instr) (s : State) (r : Req) (frames : State → Prop) : Prop :=
  ∃ t, exec i s = .next t ∧ frames t ∧ SlotIs s t { atNext s.me with reqs := s.me.reqs ++ [r] } ∧ t.nextReq = s.nextReq + 1 ∧
    { t with cores := s.cores, xlats := s.xlats, nextReq := s.nextReq, fab := { t.fab with queue := s.fab.queue } } = s

end Sys2Proof.Claims

/-! ## Vector memory -/

/-- R105, R106 and R108: VLD, VLDS and VGATH empty vd and leave one request that holds the address of each active element; with no
active element they change nothing. Element i of VLD lies at p + i * w, of VLDS at p + i * stride, of VGATH at p + lane i * w. -/
def Sys2Proof.Claims.VectorLoadsLeaveARequest : Prop :=
  ∀ (s : State) (vd va : VReg) (st g : Reg) (m : MReg) (d a : Nat) (es : List (Nat × Nat)), Names s vd d → Names s va a →
    CanPut s d (m ≠ 0) → CanReadV s a → CanRead s g → CanRead s st →
    let p := s.me.readG g
    let w := vecWidth (ptrFmt p)
    let loads (i : Instr) : Prop := (es = [] → Makes i s (atNext s.me)) ∧ (es ≠ [] →
      VecLoads i s d (vecReq s p (.vld d w (BitVec.ofNat 5 (ptrFmt p)) (es.map fun e => (e.1, num e.2)) []) es) s.me.acq fun t =>
        t.waiters = s.waiters ∧ FramesFor s t es fun e => .read (peerOff e.2) (vecBytes (ptrFmt p) w e.2))
    (¬GoodPointer p → Traps (.vld vd g m) s 5 p ∧ Traps (.vlds vd st g m) s 5 p ∧ Traps (.vgath vd va g m) s 5 p) ∧
    (VecReady s p m permR (fun i => i * w) es → loads (.vld vd g m)) ∧
    (w ∈ [1, 2, 4] → VecReady s p m permR (fun i => i * (s.me.readG st).toInt) es → loads (.vlds vd st g m)) ∧
    (w ∈ [1, 2, 4] → VecReady s p m permR (fun i => (lane (s.myCore.readV a) i).toInt * w) es → loads (.vgath vd va g m))

/-- R105, R106, R109 and R41: VST, VSTS and VSCAT read their data at issue and leave one request that holds, for each active element, its
address and bytes, with the unused bits of an E3M2 or E2M1 byte 0; with no active element they change nothing. -/
def Sys2Proof.Claims.VectorStoresLeaveARequest : Prop :=
  ∀ (s : State) (vd va : VReg) (st g : Reg) (m : MReg) (d a : Nat) (es : List (Nat × Nat)), Names s vd d → Names s va a →
    CanReadV s d → CanReadV s a → CanRead s g → CanRead s st →
    let p := s.me.readG g
    let fmt := ptrFmt p
    let w := vecWidth fmt
    let x (i : Nat) := (lane (s.myCore.readV d) i).toNat
    let data (e : Nat × Nat) : List Byte :=
      if w = 0 then ((List.range 16).flatMap fun i => toBytes 4 (x i)).take (packedSize fmt) ++ (if inWin e.2 then [0, 0, 0] else [])
      else if w = 8 then toBytes 4 (x (2 * e.1)) ++ toBytes 4 (x (2 * e.1 + 1))
      else toBytes w (if fmt = 14 then x e.1 % 64 else if fmt = 15 then x e.1 % 16 else x e.1)
    let stores (i : Instr) : Prop := (es = [] → Makes i s (atNext s.me)) ∧ (es ≠ [] →
      VecStores i s (vecReq s p (.vst (es.map fun e => (e.1, num e.2, data e))) es) fun t =>
        FramesFor s t es fun e => .write (peerOff e.2) (data e))
    (¬GoodPointer p → Traps (.vst vd g m) s 5 p ∧ Traps (.vsts vd st g m) s 5 p ∧ Traps (.vscat vd va g m) s 5 p) ∧
    (VecReady s p m permW (fun i => i * w) es → stores (.vst vd g m)) ∧
    (w ∈ [1, 2, 4] → VecReady s p m permW (fun i => i * (s.me.readG st).toInt) es → stores (.vsts vd st g m)) ∧
    (w ∈ [1, 2, 4] → VecReady s p m permW (fun i => (lane (s.myCore.readV a) i).toInt * w) es → stores (.vscat vd va g m))

/-- R111 and R157: VLDF takes 32-bit formats, empties vd and leaves a request: every local active element on a page with live tags waits on
the tag of its word, the key that its address resolves to, in lane order; one on a page without them is always full and waits for none.
The slot's later accesses wait for its loads, this one among them, which is the model's reading of the acquire (log 32). -/
def Sys2Proof.Claims.VldfLanesWaitOnTheirWords : Prop :=
  ∀ (s : State) (vd : VReg) (g : Reg) (m : MReg) (d : Nat) (es : List (Nat × Nat)), Names s vd d → CanPut s d (m ≠ 0) → CanRead s g →
    let p := s.me.readG g
    (ptrFmt p ∉ [0, 3, 7, 10] → Traps (.vldf vd g m) s 5 p) ∧
    (GoodPointer p → ptrFmt p ∈ [0, 3, 7, 10] → VecReady s p m permR (fun i => i * 4) es → (es = [] → Makes (.vldf vd g m) s (atNext s.me)) ∧
      (es ≠ [] → VecLoads (.vldf vd g m) s d (vecReq s p (.vldf d p (s.me.readM m) (es.map fun e => (e.1, num e.2)) [] []) es)
        (loading s.me ++ [s.nextReq]) fun t =>
        FramesFor s t es (fun e => .syncLoad (peerOff e.2) 4 false) ∧
        t.waiters = s.waiters ++ es.filterMap fun e =>
          if isPeer e.2 then none
          else match t.resolve (t.agent t.cur) e.2 4 permR with
            | .ok l => if l.tagged then some ⟨s.cur, s.nextReq, l.keys.headD 0, 4, .lane e.1⟩ else none
            | .error _ => none))

namespace Sys2Proof.Claims

/-! ## Messages, channels and tasks -/

/-- R123 and R133: what a destination word must be: reserved bits 0, a local die that exists or another device, a cluster below 100. -/
def GoodDest (s : State) (w : Word) : Prop :=
  w.toNat / 2 ^ 56 = 0 ∧ w.toNat / 2 ^ 32 % 256 = 0 ∧ w.toNat % 4 = 0 ∧ w.toNat / 2 ^ 9 % 128 < 100 ∧
    if w.toNat / 2 ^ 55 % 2 = 1 then w.toNat / 2 ^ 40 % 2 ^ 15 ≠ s.fab.devno.toNat
    else w.toNat / 2 ^ 40 % 2 ^ 15 = 0 ∧ w.toNat / 2 ^ 16 % 8 ≤ (s.diemaxOf s.cur).toNat

/-- The core a destination word names (R8, R123). -/
def coreOf (w : Word) : Nat := w.toNat / 2 ^ 16 % 8 * 12800 + w.toNat / 2 ^ 9 % 128 * 128 + w.toNat / 4 % 128

/-- The outbound queue of the issuing core has taken the message m, the issuing slot is now x, and nothing else changed but the counter
of requests. -/
def Sends (s t : State) (m : Msg) (x : Slot) : Prop :=
  t.me = x ∧ t.cur = s.cur ∧ (∀ o, o ≠ s.cur → t.slot o = s.slot o) ∧ t.myCore.outq = s.myCore.outq ++ [m] ∧
    (∀ c, { t.core c with slots := (s.core c).slots, outq := (s.core c).outq } = s.core c) ∧
    (∀ c, c ≠ s.cur.core → (t.core c).outq = (s.core c).outq) ∧ { t with cores := s.cores, nextReq := s.nextReq } = s

/-- The message of R124 from the issuing slot; it follows the stores that the slot has issued or may have read (R127). -/
def message (s : State) (w : Word) (dec : Option (BitVec 16)) (body : List Word32) (targets : List Nat)
    (region : Option (SlotId × Nat)) : Msg :=
  ⟨w, s.slotid s.cur, s.me.fstat.getLsbD 3, s.ctxOf s.cur, dec, body, targets, false, false, none, region, s.storesBefore s.cur⟩

/-- The instruction sends; a message to a peer is a remote access from its issue on, inside an open remote region one of its remote operations
(R281, R282). -/
def SendsMsg (i : Instr) (s : State) (w : Word) (dec : Option (BitVec 16)) (body : List Word32) (targets : List Nat) : Prop :=
  ∃ t, exec i s = .next t ∧
    if w.toNat / 2 ^ 55 % 2 = 1 then
      Sends s t (message s w dec body targets (some (s.cur, s.nextReq)))
        { atNext s.me with reqs := s.me.reqs ++ [⟨s.nextReq, .post, false, true, s.me.region.isSome, false, s.time, s.ctxidOf s.cur, false⟩] } ∧ t.nextReq = s.nextReq + 1
    else Sends s t (message s w dec body targets none) (atNext s.me) ∧ t.nextReq = s.nextReq

/-- A body of n words at pointer p that the issuing core may send: a good pointer, 8-aligned, in its own scratchpad, no earlier store of the
slot unperformed over it, no acquire outstanding, no word poisoned. -/
def GoodBody (s : State) (p : Word) (n : Nat) : Prop :=
  let ea := p.toNat % 2 ^ 56
  GoodPointer p ∧ ea % 8 = 0 ∧ s.cur.core < 102400 ∧ winAddr s.cur.core 0 ≤ ea ∧ ea + 4 * n ≤ winAddr s.cur.core 0 + 65536 ∧
    s.me.waitsFor ea (4 * n) = false ∧ s.me.acquiring = false ∧
    s.isPoisoned (keysFrom (padKey s.cur.core (ea - winAddr s.cur.core 0)) (4 * n)) = false

/-- Word i of a body: four bytes of the own scratchpad, low byte first. -/
def bodyWord (s : State) (p : Word) (i : Nat) : Word32 :=
  BitVec.ofNat 32 (s.read (padKey s.cur.core (p.toNat % 2 ^ 56 - winAddr s.cur.core 0) + 4 * i) 4)

/-- The slot when its activation has ended: what it left outstanding belongs to no region and to no later activation (R119, R284, R329). -/
def ended (x : Slot) : Slot :=
  { x with pc := x.pc + 4, wait := .ready, act := none, region := none,
           reqs := x.reqs.map fun r => { r with region := false, ended := true } }

/-- Channel c of the issuing core is now e, also in the channel area of its scratchpad (R120); the issuing slot is x; nothing else changed but the
core's notes of where the decrements of its channels came from (R157). -/
def ChanStep (s t : State) (c : BitVec 5) (e : Channel) (x : Slot) : Prop :=
  let k := s.myCore.areaKey s.cur.core (32 * c.toNat)
  t.me = x ∧ t.cur = s.cur ∧ (∀ o, o ≠ s.cur → t.slot o = s.slot o) ∧ t.myCore.chan c = e ∧
    (∀ j, j ≠ c → t.myCore.chan j = s.myCore.chan j) ∧
    (∀ n, { t.core n with slots := (s.core n).slots, ch := (s.core n).ch, far := (s.core n).far, farFired := (s.core n).farFired } = s.core n) ∧
    (∀ n, n ≠ s.cur.core → { t.core n with slots := (s.core n).slots } = s.core n) ∧
    t.read k 8 = e.haddr.toNat ∧ t.read (k + 8) 8 = e.ctrl.toNat ∧ t.read (k + 16) 8 = e.regionWord.toNat ∧
    (∀ b, b < k ∨ k + 32 ≤ b → t.byte b = s.byte b) ∧
    { t with cores := s.cores, mem := s.mem, poison := s.poison } = s

/-- R122: the firing rule, with the XM of the cause. -/
def fired (e : Channel) (xm : Bool) : Channel :=
  if e.armed = true ∧ e.count = 0 then
    { e with pnum := BitVec.ofNat 8 (min 255 (e.pnum.toNat + 1)), loss := e.loss || e.pnum.toNat = 255, count := e.reload,
             armed := e.reload.toNat ≠ 0, xmbad := e.xmbad || e.pnum.toNat ≠ 255 && xm ≠ e.xm }
  else e

/-- Channel c of the issuing core when its activation has ended: not BUSY, and the firing rule follows, with the channel's own XM (log 33). -/
def endedChan (s : State) (c : BitVec 5) : Channel := fired { s.myCore.chan c with busy := false } (s.myCore.chan c).xm

/-- The deque of the issuing core has one task more at BOTTOM (R135, R139); the issuing slot is x; nothing else changed. -/
def Pushes (s t : State) (e : Task) (x : Slot) : Prop :=
  let k := s.myCore.taskKey s.cur.core s.myCore.bottom
  let b := s.myCore.areaKey s.cur.core 0x400
  t.me = x ∧ t.cur = s.cur ∧ (∀ o, o ≠ s.cur → t.slot o = s.slot o) ∧
    t.myCore.bottom = s.myCore.bottom + 1 ∧ t.taskAt s.cur.core s.myCore.bottom = e ∧
    t.read b 8 = s.myCore.top.toNat ∧ t.read (b + 8) 8 = (s.myCore.bottom + 1).toNat ∧
    (∀ n, { t.core n with slots := (s.core n).slots, bottom := (s.core n).bottom } = s.core n) ∧
    (∀ n, n ≠ s.cur.core → (t.core n).bottom = (s.core n).bottom) ∧
    (∀ j, (j < k ∨ k + 32 ≤ j) → (j < b ∨ b + 16 ≤ j) → t.byte j = s.byte j) ∧
    { t with cores := s.cores, mem := s.mem, poison := s.poison } = s

/-- The fields of a task's third doubleword (R135). -/
def taskWord (core : Nat) (ch : BitVec 5) (xm joinXm range : Bool) : Word :=
  num (coordOf core + ch.toNat * 2 ^ 19 + xm.toNat * 2 ^ 24 + joinXm.toNat * 2 ^ 25 + range.toNat * 2 ^ 26)

end Sys2Proof.Claims

/-! ## Messages, channels and tasks -/

/-- R133: a destination word that R123 does not allow traps ACCESS: a die that does not exist with its number, anything else with the word;
a counter message has no body length, and an active message has 2 to 64 words. -/
def Sys2Proof.Claims.DestinationsAreChecked : Prop :=
  ∀ (s : State) (d a b : Reg) (x y : Bool), CanRead s a → CanRead s b → CanRead s d →
    let w := s.me.readG a
    let n := w.toNat / 2 ^ 24 % 256
    (∀ i ∈ [Instr.send a b x y, .sendc a b x y, .sendb d a b x y],
      (¬GoodDest s w → Traps i s 7 (if w.toNat / 2 ^ 56 = 0 ∧ w.toNat / 2 ^ 32 % 256 = 0 ∧ w.toNat % 4 = 0 ∧ w.toNat / 2 ^ 55 % 2 = 0 ∧
        w.toNat / 2 ^ 40 % 2 ^ 15 = 0 ∧ (s.diemaxOf s.cur).toNat < w.toNat / 2 ^ 16 % 8 then num (w.toNat / 2 ^ 16 % 8) else w))) ∧
    (GoodDest s w → (n ≠ 0 → Traps (.sendc a b x y) s 7 w) ∧
      (n < 2 ∨ 64 < n → Traps (.send a b x y) s 7 w ∧ Traps (.sendb d a b x y) s 7 w))

/-- R124, R125 and R133: SEND reads its body from the own scratchpad and puts one message into the outbound queue of the core; SENDC a
counter message with decrement gb[15:0]; SENDB one message to the set of cores gd names. A full queue makes
the slot wait; that SENDB of an empty set, which sends nothing, completes even then is the model's reading of R133 (log 34). -/
def Sys2Proof.Claims.SendsQueueOneMessage : Prop :=
  ∀ (s : State) (d a b : Reg) (x y : Bool), CanRead s a → CanRead s b → CanRead s d →
    let w := s.me.readG a
    let p := s.me.readG b
    let n := w.toNat / 2 ^ 24 % 256
    let body := (List.range n).map (bodyWord s p)
    let set := ((List.range 128).filter fun k => (s.me.readG d).getLsbD (k / 8) && (s.me.readG d).getLsbD (16 + k % 8)).map
      (w.toNat / 2 ^ 16 % 8 * 12800 + w.toNat / 2 ^ 9 % 128 * 128 + ·)
    GoodDest s w →
    (2 ≤ n → n ≤ 64 → GoodBody s p n →
      (s.myCore.outq.length < 16 → SendsMsg (.send a b x y) s w none body [coreOf w]) ∧
      (¬s.myCore.outq.length < 16 → Waits (.send a b x y) s) ∧
      (set ≠ [] → s.myCore.outq.length < 16 → SendsMsg (.sendb d a b x y) s w none body set) ∧
      (set = [] → Makes (.sendb d a b x y) s (atNext s.me))) ∧
    (n = 0 →
      (s.myCore.outq.length < 16 → SendsMsg (.sendc a b x y) s w (some (BitVec.ofNat 16 p.toNat)) [] [coreOf w]) ∧
      (¬s.myCore.outq.length < 16 → Waits (.sendc a b x y) s))

/-- R119, R134 and R139: HRET, HYIELD and TASKEND end the activation, which clears BUSY of the channel that started it; HYIELD first sets
its handler address; TASKEND first sends the join a counter message of ga[15:0], or 1 for 0. None of them waits for a posted store. That a
firing due at the end has the channel's own XM is the model's choice (log 33). -/
def Sys2Proof.Claims.ActivationsEnd : Prop :=
  ∀ (s : State) (a : Reg) (x : Bool), Memory.wf s.mem = true → CanRead s a →
    let v := s.me.readG a
    (∀ act c, s.me.act = some act → act.src = .channel c →
      (∃ t, exec .hret s = .next t ∧ ChanStep s t c (endedChan s c) (ended s.me)) ∧
      (v.toNat % 4 = 0 → ∃ t, exec (.hyield a x) s = .next t ∧
        ChanStep s t c { endedChan s c with haddr := v } (ended s.me)) ∧
      (v.toNat % 4 ≠ 0 → Traps (.hyield a x) s 4 v)) ∧
    (∀ act, s.me.act = some act → (∀ c, act.src ≠ .channel c) →
      Makes .hret s (ended s.me) ∧ (v.toNat % 4 = 0 → Traps (.hyield a x) s 7 v)) ∧
    (¬s.myCore.outq.length < 16 → Waits (.taskend a x) s) ∧
    (∀ act jc jch jxm, s.me.act = some act → act.src = .task jc jch jxm → s.myCore.outq.length < 16 →
      ∃ t, exec (.taskend a x) s = .next t ∧
        Sends s t (message s (num (coordOf jc + jch.toNat * 2 ^ 19)) (some (if v.toNat % 2 ^ 16 = 0 then 1 else BitVec.ofNat 16 v.toNat))
          [] [jc] none) (ended s.me)) ∧
    (∀ act, s.me.act = some act → (∀ jc jch jxm, act.src ≠ .task jc jch jxm) → s.myCore.outq.length < 16 →
      ∃ t, exec (.taskend a x) s = .next t ∧ t.me = ended s.me ∧ (∀ o, o ≠ s.cur → t.slot o = s.slot o) ∧
        t.myCore.outq = s.myCore.outq ++ [message s (num (coordOf s.cur.core + s.me.joinch.toNat * 2 ^ 19))
          (some (if v.toNat % 2 ^ 16 = 0 then 1 else BitVec.ofNat 16 v.toNat)) [] [s.cur.core] none] ∧
        (∀ c, t.myCore.chan c = if act.src = .channel c then endedChan s c else s.myCore.chan c) ∧
        (∀ n, { t.core n with slots := (s.core n).slots, outq := (s.core n).outq, ch := (s.core n).ch, far := (s.core n).far,
                              farFired := (s.core n).farFired } = s.core n) ∧
        (∀ n, n ≠ s.cur.core → t.core n = s.core n) ∧
        { t with cores := s.cores, mem := s.mem, poison := s.poison } = s)

/-- R134 and R122: CHSET reads a field of a channel entry into gd and, unless gc[15] says read only, writes it; a written entry that is
armed with COUNT 0 fires. CHARM sets COUNT, or takes RELOAD, arms the channel and applies the firing rule. -/
def Sys2Proof.Claims.ChannelEntriesAreReadAndWritten : Prop :=
  ∀ (s : State) (d a b : Reg) (x y : Bool), Memory.wf s.mem = true → CanRead s a → CanRead s b → CanWrite s d →
    let ga := s.me.readG a
    let gb := s.me.readG b
    let c := BitVec.ofNat 5 ga.toNat
    let e := s.myCore.chan c
    let f := ga.toNat / 256 % 4
    let readOnly := ga.getLsbD 15
    let old : Word := if f = 0 then e.haddr else if f = 1 then e.ctrl else e.regionWord
    let new : Channel :=
      if f = 0 then { e with haddr := num (gb.toNat / 4 * 4) }
      else if f = 1 then { e with reload := BitVec.ofNat 16 (gb.toNat / 2 ^ 32), count := BitVec.ofNat 16 (gb.toNat / 2 ^ 16), loss := gb.getLsbD 6,
                                  xm := gb.getLsbD 4, mask := gb.getLsbD 3, armed := gb.getLsbD 2, prio := BitVec.ofNat 2 gb.toNat }
      else { e with rlen := BitVec.ofNat 15 (gb.toNat / 2 ^ 32), rbase := BitVec.ofNat 16 gb.toNat }
    let badRegion := f = 2 ∧ readOnly = false ∧ (gb.toNat % 4 ≠ 0 ∨ 65536 < gb.toNat % 65536 + 4 * (gb.toNat / 2 ^ 32 % 2 ^ 15))
    (f = 3 → Traps (.chset d a b x y) s 7 ga) ∧
    (badRegion → Traps (.chset d a b x y) s 7 gb) ∧
    (f < 3 → readOnly = true → Gives (.chset d a b x y) s d old) ∧
    (f < 3 → readOnly = false → ¬badRegion → ∃ t, exec (.chset d a b x y) s = .next t ∧ RegIs s.me t.me d old ∧
      ChanStep s t c (fired new (s.me.fstat.getLsbD 3)) { atNext s.me with g := t.me.g, gt := t.me.gt }) ∧
    ∃ t, exec (.charm d a b x y) s = .next t ∧ RegIs s.me t.me d (num e.count.toNat) ∧
      ChanStep s t c (fired { e with count := if gb.getLsbD 16 then e.reload else BitVec.ofNat 16 gb.toNat, armed := true }
        (s.me.fstat.getLsbD 3)) { atNext s.me with g := t.me.g, gt := t.me.gt }

/-- R134 and R122: CHMASK masks the channels of ga, then unmasks those of gb, and gives the mask vector as it was; a change of an entry that is
armed with COUNT 0 makes it fire, with its own XM (log 33, the model's choice). -/
def Sys2Proof.Claims.ChmaskMasksThenUnmasks : Prop :=
  ∀ (s : State) (d a b : Reg) (x y : Bool), CanRead s a → CanRead s b → CanWrite s d →
    Memory.wf s.mem = true → ∃ t, exec (.chmask d a b x y) s = .next t ∧
      RegIs s.me t.me d (num ((List.range 32).map fun i => (s.myCore.chan (BitVec.ofNat 5 i)).mask.toNat * 2 ^ i).sum) ∧
      (∀ c : BitVec 5, let e := s.myCore.chan c
        t.myCore.chan c = if (s.me.readG b).getLsbD c.toNat then fired { e with mask := false } e.xm
          else if (s.me.readG a).getLsbD c.toNat then fired { e with mask := true } e.xm else e) ∧
      t.me = { atNext s.me with g := t.me.g, gt := t.me.gt } ∧ (∀ o, o ≠ s.cur → t.slot o = s.slot o) ∧
      (∀ n, { t.core n with slots := (s.core n).slots, ch := (s.core n).ch, far := (s.core n).far, farFired := (s.core n).farFired } = s.core n) ∧
      (∀ n, n ≠ s.cur.core → t.core n = s.core n) ∧
      (∀ k, k < s.myCore.areaKey s.cur.core 0 ∨ s.myCore.areaKey s.cur.core 0x400 ≤ k → t.byte k = s.byte k) ∧
      { t with cores := s.cores, mem := s.mem, poison := s.poison } = s

/-- R139 and R127: FORK and REJOIN push a task with its join and give 1, once every earlier store of the slot is visible on its die; a full
deque, or an empty range, gives 0 and changes nothing else. -/
def Sys2Proof.Claims.TasksArePushed : Prop :=
  ∀ (s : State) (d a b : Reg) (x y : Bool), Memory.wf s.mem = true → CanRead s a → CanRead s b →
    let ga := s.me.readG a
    let gb := s.me.readG b
    let xm := s.me.fstat.getLsbD 3
    let count := (s.myCore.bottom - s.myCore.top).toNat
    let empty := gb.toNat / 2 ^ 32 ≤ gb.toNat % 2 ^ 32
    (CanWrite s d → ga.toNat % 4 ≠ 0 → Traps (.fork d a b x y) s 4 ga) ∧
    (CanRead s d → ga.toNat % 4 ≠ 0 → Traps (.rejoin d a b x y) s 4 ga) ∧
    (ga.toNat % 4 = 0 → s.me.storesSeen = false →
      (CanWrite s d → Waits (.fork d a b x y) s) ∧ (CanRead s d → Waits (.rejoin d a b x y) s)) ∧
    (ga.toNat % 4 = 0 → s.me.storesSeen = true →
      (CanWrite s d → 64 ≤ count → Gives (.fork d a b x y) s d 0) ∧
      (CanRead s d → 64 ≤ count ∨ empty → Gives (.rejoin d a b x y) s d 0) ∧
      (CanWrite s d → count < 64 → ∃ t, exec (.fork d a b x y) s = .next t ∧ RegIs s.me t.me d 1 ∧
        Pushes s t ⟨ga, gb, taskWord s.cur.core s.me.joinch xm (s.myCore.chan s.me.joinch).xm false, 0⟩
          { atNext s.me with g := t.me.g, gt := t.me.gt }) ∧
      (CanRead s d → count < 64 → ¬empty → ∀ jc jch jxm,
        (if let some ⟨.task c h m, _, _⟩ := s.me.act then (c, h, m) = (jc, jch, jxm)
          else (s.cur.core, s.me.joinch, (s.myCore.chan s.me.joinch).xm) = (jc, jch, jxm)) →
        ∃ t, exec (.rejoin d a b x y) s = .next t ∧ RegIs s.me t.me d 1 ∧
          Pushes s t ⟨ga, s.me.readG d, taskWord jc jch xm jxm true, gb⟩ { atNext s.me with g := t.me.g, gt := t.me.gt }))

/-- R139: JOINCH swaps the slot's join channel; TRIG, a release at package scope of the slot's accesses and of what its die's slices hold, marks
the group of the activation triggered, after which the launch takes the transitions its groups allow, and does nothing more for an activation without a
launch. -/
def Sys2Proof.Claims.JoinchSwapsAndTrigMarksTheGroup : Prop :=
  ∀ (s : State) (d a : Reg) (x : Bool),
    (CanRead s a → CanWrite s d → ∃ t, exec (.joinch d a x) s = .next t ∧ RegIs s.me t.me d (num s.me.joinch.toNat) ∧
      OnlySlot s t { atNext s.me with g := t.me.g, gt := t.me.gt, joinch := BitVec.ofNat 5 (s.me.readG a).toNat }) ∧
    (s.ordered 4 = false → Waits .trig s) ∧
    (s.ordered 4 = true → ((∀ act, s.me.act = some act → act.launch = none) → Makes .trig s (atNext s.me)) ∧
      ∀ act l k, s.me.act = some act → act.launch = some (l, k) →
        ∃ u t : State, exec .trig s = .next t ∧ OnlySlot (u.settle l) t (atNext s.me) ∧
          u.sched.groups = s.sched.groups.map (fun h => if h.launch = l ∧ h.idx = k then { h with triggered := true } else h) ∧
          { u with sched := { u.sched with groups := s.sched.groups } } = s)

/-! ## Fences, regions and counters -/

/-- R156, R154 and R36: a fence waits for the accesses it orders. An acquire waits until the slot's loads have their values; a release until its
accesses are performed at the scope, and beyond the die it puts what the die's store slices hold before the slot's later stores; FENCESC waits
until those stores are performed too. With an acquire at cluster scope or wider a fence empties the data cache of the core; with .I it
discards fetched words, and at core scope or wider fetch of the core sees from then on what the core sees; after a release at package scope a
walk reads memory as it is (R257); it changes nothing else. -/
def Sys2Proof.Claims.FencesWaitAndInvalidate : Prop :=
  ∀ (s : State) (c : BitVec 3) (f : Bool),
    let done (i : Instr) (waits acquire release fetched : Prop) (x : Slot) : Prop :=
      (waits → Waits i s) ∧ (¬waits → ∃ t, exec i s = .next t ∧ t.me = x ∧ t.cur = s.cur ∧ (∀ o, o ≠ s.cur → t.slot o = s.slot o) ∧
        (acquire ∧ 2 ≤ c.toNat → t.myCore.dcache = []) ∧ (¬(acquire ∧ 2 ≤ c.toNat) → t.myCore.dcache = s.myCore.dcache) ∧
        (fetched → t.myCore.icache = []) ∧ (¬fetched → t.myCore.icache = s.myCore.icache) ∧
        (∀ n, { t.core n with slots := (s.core n).slots, dcache := (s.core n).dcache, icache := (s.core n).icache } = s.core n) ∧
        (∀ n, n ≠ s.cur.core → (t.core n).dcache = (s.core n).dcache ∧ (t.core n).icache = (s.core n).icache) ∧
        (fetched → 1 ≤ c.toNat → ∀ keys, t.fetched s.cur.core keys = s.seen s.cur.core keys) ∧ (release → 4 ≤ c.toNat → t.unseen = t) ∧
        { t with cores := s.cores, past := s.past } = s)
    let loads := s.me.loadsDone = false
    let all := s.me.performedAt c.toNat = false
    let behind : Slot := { atNext s.me with
      rel := if 4 ≤ c.toNat then (s.slices.filter fun e => dieOf e.sl.core = dieOf s.cur.core).map (·.num) else s.me.rel }
    done (.fenceAcq c f) loads True False (f = true) (atNext s.me) ∧ done (.fenceRel c f) all False True (f = true) behind ∧
      done (.fenceFull c f) (loads ∨ all) True True (f = true) behind ∧
      done (.fencesc c) (loads ∨ s.ordered c.toNat = false) True True False (atNext s.me)

/-- R282 and R283: RBEGIN writes 0 to gd and keeps a checkpoint of the registers and of the next pc; RCOMMIT closes the region once its remote
operations are complete; RABORT restores the checkpoint at once when nothing of the slot is in flight and its context is not being saved, and
gives its code in the gd of the RBEGIN; each traps ACCESS where R282 says. -/
def Sys2Proof.Claims.RemoteRegionsOpenCommitAndAbort : Prop :=
  ∀ (s : State) (d a : Reg) (x : Bool),
    (¬CanWrite s d → Waits (.rbegin d) s) ∧ (s.me.region ≠ none → CanWrite s d → Traps (.rbegin d) s 7 s.me.pc) ∧
    (s.me.region = none → (∀ r : Reg, s.me.gt[r.toNat]'r.isLt ≠ .empty) → ∃ t g, exec (.rbegin d) s = .next t ∧ RegIs s.me t.me d 0 ∧
      g.rd = d ∧ g.rpc = s.me.pc + 4 ∧ g.regs = t.me.g ∧ g.tags = t.me.gt ∧ g.failed = none ∧
      OnlySlot s t { atNext s.me with g := t.me.g, gt := t.me.gt, region := some g }) ∧
    (s.me.region = none → Makes .rcommit s (atNext s.me)) ∧
    (∀ g, s.me.region = some g → g.failed = none →
      ((∀ r ∈ s.me.reqs, r.region = false) → Makes .rcommit s { atNext s.me with region := none }) ∧
      ((∃ r ∈ s.me.reqs, r.region = true) → Waits .rcommit s)) ∧
    (CanRead s a → let code := (s.me.readG a).toNat % 2 ^ 16
      (s.me.region = none ∨ code < 256 → Traps (.rabort a x) s 7 (s.me.readG a)) ∧
      (∀ g, s.me.region = some g → g.failed = none → 256 ≤ code → s.me.settled = true → (∀ r ∈ s.me.reqs, r.region = false) →
        (s.ctx (s.ctxOf s.cur)).st ≠ .saving →
        ∃ t, exec (.rabort a x) s = .next t ∧ RegIs { s.me with g := g.regs, gt := g.tags } t.me g.rd (num code) ∧
          OnlySlot s t { s.me with g := t.me.g, gt := t.me.gt, pc := g.rpc, region := none, wait := .ready }))

/-- R164 and R157: WAITC waits while counter c is at or above ga, and while ga is empty, which it reads in block mode; then it empties the data
cache of the core and orders the slot's earlier loads before its later accesses. -/
def Sys2Proof.Claims.WaitcWaitsBelowItsThreshold : Prop :=
  ∀ (s : State) (c : BitVec 4) (a : Reg) (x : Bool),
    let n := (s.me.c[c.toNat]'c.isLt).toNat
    (s.me.tagG a = .empty → Waits (.waitc c a x) s) ∧
    (CanRead s a → (s.me.readG a).toNat ≤ n → Waits (.waitc c a x) s) ∧
    (CanRead s a → n < (s.me.readG a).toNat → ∃ t, exec (.waitc c a x) s = .next t ∧ t.myCore.dcache = [] ∧ SameMemory s t ∧
      MemoryStep s t { atNext s.me with acq := loading s.me })

namespace Sys2Proof.Claims

/-! ## The Carafe -/

/-- The issuing slot is now x; beside it changed at most the tables of the Carafe, the context of the issuing slot, the cached translations
and the lines of the Crema. -/
def CarafeStep (s t : State) (x : Slot) : Prop :=
  SlotIs s t x ∧ (∀ k, k ≠ s.ctxOf s.cur → t.ctx k = s.ctx k) ∧
    { t with cores := s.cores, carafe := s.carafe, ctxs := s.ctxs, xlats := s.xlats, crema := s.crema } = s

/-- R213: the local row address ga is good and readable, and its byte lies at l. -/
def RowAt (s : State) (ga : Word) (l : Loc) : Prop :=
  GoodPointer ga ∧ ga.toNat % 2 ^ 56 < winBase ∧ s.resolve (s.agent s.cur) (ga.toNat % 2 ^ 56) 1 permR = .ok l

/-- R213: the result word of ROWHOLD and ROWQ. -/
def rowResult (stat va handle : Nat) : Word := num (stat * 2 ^ 61 + va / 2048 % 2 ^ 44 * 2 ^ 16 + handle % 2 ^ 16)

/-- A pointer to n bytes of the own scratchpad, 8-aligned, that no earlier store of the slot still changes and no error has hit, with
no acquire outstanding. -/
def OwnList (s : State) (p : Word) (n : Nat) : Prop :=
  ownBytes s p n = .ok (ownKeys s p n) ∧ s.me.waitsFor (p.toNat % 2 ^ 56) n = false ∧ s.me.acquiring = false ∧
    s.isPoisoned (ownKeys s p n) = false

/-- The number of n bytes at offset o of a list. -/
def listNat (s : State) (p : Word) (o n : Nat) : Nat := s.read ((ownKeys s p 1).headD 0 + o) n

end Sys2Proof.Claims

/-! ## The Carafe -/

/-- R202, R203 and R144: SHIP leaves one request with the routine, its operands and the bits the core holds for its entry, and to a peer one
frame; gd goes empty for a routine that replies, and the core's line for a local address goes. Built-in entries 0 to 15 reply and the 8-byte
ones need 8-byte alignment. -/
def Sys2Proof.Claims.ShippedCallsAreRequests : Prop :=
  ∀ (s : State) (d a b : Reg) (x y : Bool) (e : BitVec 8), CanRead s d → CanRead s a → CanRead s b →
    let p := s.me.readG a
    let ea := p.toNat % 2 ^ 56
    let reply := if e.toNat < 32 then decide (e.toNat < 16) else (s.shipBits e.toNat).1
    let wide := if e.toNat < 32 then decide (e.toNat % 16 ∉ [0, 5, 6, 11, 12]) else (s.shipBits e.toNat).2
    let size := if wide then 8 else 4
    let first := if e.toNat < 32 then ea else ea / 64 * 64
    let bytes := if e.toNat < 32 then size else 64
    let held := s.me.acquiring = true ∨ s.releasing s.cur = true ∨ s.me.waitsFor first bytes = true ∨ s.me.parkedOver first bytes = true ∨
      s.myCore.outstFull = true
    let kind : ReqKind := .ship e.toNat d reply wide p (s.me.readG b) (s.me.readG d)
    let emptied (t : State) : Prop := ∀ r, t.me.tagG r = if reply = true ∧ r = d ∧ d ≠ 0 then .empty else s.me.tagG r
    (¬GoodPointer p → Traps (.ship d a b x y e) s 5 p) ∧
    (GoodPointer p → ea % size ≠ 0 → Traps (.ship d a b x y e) s 4 p) ∧
    (GoodPointer p → ea % size = 0 → ea < 2 ^ 55 → touchesWin ea size = true → Traps (.ship d a b x y e) s 7 p) ∧
    (GoodPointer p → ea % size = 0 → ea < 2 ^ 55 → touchesWin ea size = false →
      (held → Waits (.ship d a b x y e) s) ∧
      (¬held → ∃ u : State, exec (.ship d a b x y e) s = .next (u.dropLine s.cur.core first) ∧ emptied u ∧
        Issues s u { atNext s.me with gt := u.me.gt, reqs := s.me.reqs ++ [local_ s kind true] })) ∧
    (GoodPointer p → ea % size = 0 → 2 ^ 55 ≤ ea → ea / 2 ^ 40 % 2 ^ 15 = s.fab.devno.toNat → Traps (.ship d a b x y e) s 7 p) ∧
    (GoodPointer p → ea % size = 0 → 2 ^ 55 ≤ ea → ea / 2 ^ 40 % 2 ^ 15 ≠ s.fab.devno.toNat → s.fab.reaches (ea / 2 ^ 40 % 2 ^ 15) = true →
      ¬held → ∃ t, exec (.ship d a b x y e) s = .next t ∧ emptied t ∧
          t.fab.queue = s.fab.queue ++ [frameTo s (ea / 2 ^ 40 % 2 ^ 15) 0
            (.access (.ship e.toNat reply wide (ea % 2 ^ 40) (s.me.readG b) (s.me.readG d)))] ∧
          { t.fab with queue := s.fab.queue } = s.fab ∧
          Issues s { t with fab := s.fab } { atNext s.me with gt := t.me.gt, reqs := s.me.reqs ++ [remote s kind] })

/-- R208: CHAIN checks its pointer, its list and the list's count and reserved bits; then it empties gd and leaves one request with the
steps of the list. A request with any step list counts in an open remote region, also one whose first step is local: R209 and R282 speak of the
peer pointer, and a later step may go to a peer, so this is the model's choice (log 63). -/
def Sys2Proof.Claims.ChainsAreRequests : Prop :=
  ∀ (s : State) (d a b : Reg) (x y : Bool), CanRead s a → CanRead s b → CanWrite s d →
    let p := s.me.readG a
    let q := s.me.readG b
    let n := listNat s q 0 8 % 8
    let off (i : Nat) : Word32 := BitVec.ofNat 32 (listNat s q (8 + 16 * i) 4)
    let steps := (List.range n).map fun i => (off i, num (listNat s q (16 + 16 * i) 8))
    let first := ((p.toNat % 2 ^ 56 + (off 0).toInt) % 2 ^ 56).toNat
    (¬GoodPointer p → Traps (.chain d a b x y) s 5 p) ∧
    (GoodPointer p → s.ownDevice (p.toNat % 2 ^ 56) = true → Traps (.chain d a b x y) s 7 p) ∧
    (GoodPointer p → s.ownDevice (p.toNat % 2 ^ 56) = false → ∀ c t, (ownBytes s q 8 = .error (c, t) ∨
      OwnList s q 8 ∧ ownBytes s q (8 + 16 * n) = .error (c, t)) → Traps (.chain d a b x y) s c.toNat t) ∧
    (GoodPointer p → s.ownDevice (p.toNat % 2 ^ 56) = false → OwnList s q 8 → OwnList s q (8 + 16 * n) →
      let bad := 7 ≤ n ∨ n = 0 ∨ listNat s q 0 8 ≠ n ∨ ∃ i < n, listNat s q (12 + 16 * i) 4 ≠ 0
      (bad → Traps (.chain d a b x y) s 7 q) ∧
      (¬bad → s.me.waitsFor first 8 = false → s.me.parkedOver first 8 = false → s.myCore.outstFull = false →
        ∃ t, exec (.chain d a b x y) s = .next t ∧ (∀ r, t.me.tagG r = if r = d ∧ d ≠ 0 then .empty else s.me.tagG r) ∧
          Issues s t { atNext s.me with gt := t.me.gt, reqs := s.me.reqs ++
            [{ local_ s (.chain d p 0 0 steps none) true with region := s.me.region.isSome }] }))

/-- R213: ROWOPEN opens a row whose buffer is free and else does nothing; ROWHOLD takes the lowest free place, or answers busy, limit or
already held; a row is being retired until TIME passes from its retirement, which is the model's choice (log 58); ROWQ reports a handle; ROWREL frees its place, whose generation advances through 1 to 15, or traps ACCESS. -/
def Sys2Proof.Claims.RowsAreHeldAndReleased : Prop :=
  ∀ (s : State) (d a : Reg) (x : Bool), CanRead s a →
    let ga := s.me.readG a
    let c := s.ctx (s.ctxOf s.cur)
    let va := ga.toNat % 2 ^ 56 / 2048 * 2048
    let i := ga.toNat % 4096
    (¬GoodPointer ga → Traps (.rowopen a x) s 5 ga ∧ (CanWrite s d → Traps (.rowhold d a x) s 5 ga)) ∧
    (∀ c, GoodPointer ga → ga.toNat % 2 ^ 56 < winBase → s.resolve (s.agent s.cur) (ga.toNat % 2 ^ 56) 1 permR = .error c →
      Makes (.rowopen a x) s (atNext s.me) ∧
      (CanWrite s d → s.myCore.outstFull = false → Faults (.rowhold d a x) s c (ga.toNat % 2 ^ 56))) ∧
    (∀ l, RowAt s ga l →
      let pa := l.keys.headD 0
      let free := s.bufferHeld pa = none ∧ mfind s.carafe.openRows (subarrayOf pa) = none
      (¬free → Makes (.rowopen a x) s (atNext s.me)) ∧
      (free → ∃ t, exec (.rowopen a x) s = .next t ∧ CarafeStep s t (atNext s.me) ∧ t.ctxs = s.ctxs ∧ t.xlats = s.xlats ∧
        mfind t.carafe.openRows (subarrayOf pa) = some (rowOf pa) ∧ { t.carafe with openRows := s.carafe.openRows } = s.carafe) ∧
      (CanWrite s d → s.myCore.outstFull = false →
        let answers (v : Word) (holds : State → Prop) : Prop := ∃ t, exec (.rowhold d a x) s = .next t ∧ RegIs s.me t.me d v ∧
          CarafeStep s t { atNext s.me with g := t.me.g, gt := t.me.gt } ∧ holds t
        let free := s.bufferHeld (pa / 2048 * 2048) = none ∧ s.rowRetiring (pa / 2048 * 2048) = false
        (s.bufferHeld (pa / 2048 * 2048) = none → s.rowRetiring (pa / 2048 * 2048) = true → answers (rowResult 1 va 0) fun t => t.ctxs = s.ctxs) ∧
        (free → c.freePlace = none → answers (rowResult 2 va 0) fun t => t.ctxs = s.ctxs) ∧
        (∀ j, free → c.freePlace = some j →
          answers (rowResult 0 va ((c.hold j).gen.toNat * 4096 + j)) fun t =>
            (t.ctx (s.ctxOf s.cur)).hold j = { c.hold j with row := some (va, pa / 2048 * 2048) } ∧
            ∀ k, k ≠ j → (t.ctx (s.ctxOf s.cur)).hold k = c.hold k) ∧
        (∀ m j r, s.bufferHeld (pa / 2048 * 2048) = some (m, j, r) →
          answers (if m = s.ctxOf s.cur ∧ r = pa / 2048 * 2048 then rowResult 3 va ((c.hold j).gen.toNat * 4096 + j) else rowResult 1 va 0)
            fun t => t.ctxs = s.ctxs))) ∧
    (s.myCore.outstFull = false → ∀ held, (c.hold i).row = held →
      let live := held ≠ none ∧ (c.hold i).gen.toNat = ga.toNat / 4096 % 16
      (CanWrite s d → Gives (.rowq d a x) s d (if live then
        rowResult (if (c.hold i).dropped then 2 else 1) ((held.map (·.1)).getD 0) (ga.toNat % 2 ^ 16) else 0)) ∧
      (¬live → Traps (.rowrel a x) s 7 ga) ∧
      (live → ∃ t, exec (.rowrel a x) s = .next t ∧ CarafeStep s t (atNext s.me) ∧ t.carafe = s.carafe ∧ t.xlats = s.xlats ∧
        (t.ctx (s.ctxOf s.cur)).hold i = ⟨if (c.hold i).gen = 15 then 1 else (c.hold i).gen + 1, none, false, false⟩ ∧
        ∀ k, k ≠ i → (t.ctx (s.ctxOf s.cur)).hold k = c.hold k))

/-- R215, R217 and R221: NBPROG reads its parameter block, queues the program on every bank of its set and gives its id, or BUSY where a
bank's queue is full; NBSTAT reports where a program stands on a bank. -/
def Sys2Proof.Claims.NearBankProgramsAreQueuedAndReported : Prop :=
  ∀ (s : State) (d a : Reg) (x : Bool), CanRead s a → CanWrite s d →
    let ga := s.me.readG a
    let n := s.ctxOf s.cur
    let w0 := listNat s ga 0 8
    let base (i : Nat) : Word := num (listNat s ga (8 + 8 * i) 8)
    let banks := listNat s ga 48 8
    let set := (List.range 32).filter fun k => banks.testBit k
    let va := (base 0).toNat % 2 ^ 56 / 2 ^ 21 * 2 ^ 21 + set.headD 0 * 65536 + (base 0).toNat % 65536
    let goodBase (b : Word) := GoodPointer b ∧ (b.toNat / 2 ^ 59 = 10 ∨ b.toNat / 2 ^ 59 = 0) ∧ b.toNat % 2 ^ 56 < winBase ∧ b.toNat % 2048 = 0
    (OwnList s ga 64 → w0 / 64 % 1024 = 0 → w0 / 2 ^ 32 % 2 ^ 16 = 0 → w0 / 2 ^ 54 = 0 → banks < 2 ^ 32 → listNat s ga 56 8 = 0 →
      w0 / 2 ^ 16 % 2 ^ 16 ≠ 0 → banks ≠ 0 → (s.microWords (w0 % 64)).isSome → (w0 % 64 < 4 ∨ 8 ≤ w0 % 64) →
      goodBase (base 0) → goodBase (base 1) → goodBase (base 2) → listNat s ga 32 8 % 2 ^ 21 = 0 → s.myCore.outstFull = false →
      ∀ l tr, s.resolve (s.agent s.cur) va 1 permR = .ok l → s.xlat n va = .ok tr → tr.entry.getLsbD 5 = true → 2 ^ 21 ≤ tr.size →
      let first := (tr.pa + (va - tr.va)) / 2 ^ 37 % 8 * 1024 + va / 2 ^ 11 % 32 * 32
      let id := (s.ctx n).nbNext
      let full := ∃ k ∈ set, 4 ≤ (s.nbQueue (first + k)).length
      let prog (bank : Nat) : NbProg :=
        { id := id, ctx := n, slot := s.cur, sender := s.slotid s.cur, xm := s.me.fstat.getLsbD 3, entry := BitVec.ofNat 6 w0, words := [],
          iters := w0 / 2 ^ 16 % 2 ^ 16, ch := BitVec.ofNat 5 (w0 / 2 ^ 48), notify := w0.testBit 53, bases := [base 0, base 1, base 2],
          rstride := num (listNat s ga 32 8), s0 := BitVec.ofNat 32 (listNat s ga 40 4), s1 := BitVec.ofNat 32 (listNat s ga 44 4),
          banks := BitVec.ofNat 32 banks, bank := bank, i := 0, mpc := 0, ba0 := [], ba1 := [], tagged := false, st := .queued, cause := 0 }
      ∃ t, exec (.nbprog d a x) s = .next t ∧ RegIs s.me t.me d (if full then num (2 ^ 61) else num id.toNat) ∧
        CarafeStep s t { atNext s.me with g := t.me.g, gt := t.me.gt } ∧
        (full → t.carafe = s.carafe ∧ t.ctxs = s.ctxs) ∧
        (¬full → t.ctx n = { s.ctx n with nbNext := id + 1 } ∧
          ∀ k, t.nbQueue k = if ∃ j ∈ set, k = first + j then s.nbQueue k ++ [prog k] else s.nbQueue k)) ∧
    (s.myCore.outstFull = false →
      (s.nbFind n (BitVec.ofNat 16 ga.toNat) (ga.toNat / 2 ^ 16 % 32) = none → Gives (.nbstat d a x) s d 0) ∧
      (∀ p, s.nbFind n (BitVec.ofNat 16 ga.toNat) (ga.toNat / 2 ^ 16 % 32) = some p →
        Gives (.nbstat d a x) s d (num (p.st.code * 2 ^ 60 + (if p.st = .stopped then p.cause.toNat else 0) * 2 ^ 48 + p.i % 2 ^ 16 * 2 ^ 32 +
          p.mpc % 16 * 2 ^ 16 + p.entry.toNat))))

namespace Sys2Proof.Claims

/-! ## The matrix engine and the copy and pour jobs -/

/-- R169, R170 and R172: the instruction puts a job into the queue of its octet: it starts the remaps it requires, takes the snapshot of the
engine registers and descriptors, latches the modes, seed and code-table bank, raises its counter by 1 and writes the job id to gd. -/
def Enters (i : Instr) (s : State) (d : Reg) (opc : Nat) (a b : Word) (remaps : List Remap) (list : List Word) : Prop :=
  let oct := s.cur.core / 8
  let n := s.ctxOf s.cur
  let e := s.eng oct n
  let cnt := BitVec.ofNat 4 (b.toNat / 2 ^ 44)
  let ds := (s.me.startRemaps remaps).d
  ∃ t, exec i s = .next t ∧ RegIs s.me t.me d (num e.nextId.toNat) ∧
    SlotIs s t { atNext s.me with g := t.me.g, gt := t.me.gt, d := ds, c := t.me.c, rngseed := seedAfter s.me 1 } ∧
    (∀ m, t.me.counter m = if m = cnt then s.me.counter m + 1 else s.me.counter m) ∧
    t.jobsOf oct = s.jobsOf oct ++
      [{ id := e.nextId, ctx := n, owner := s.cur, phys := (s.agent s.cur).phys, opc := BitVec.ofNat 8 opc, a := a, b := b, dval := s.me.readG d,
         k := s.me.k, d := ds, rm := BitVec.ofNat 3 s.me.fstat.toNat, xm := s.me.fstat.getLsbD 3, seed := s.me.rngseed, bank := e.bank,
         st := .queued, progress := 0, flags := 0, cause := 0, fault := 0, remaps := remaps, list := list, part := [], ask := none,
         got := [], pend := [], sends := [], pour := none, inRemap := false }] ∧
    (∀ o, o ≠ oct → t.jobsOf o = s.jobsOf o) ∧ t.eng oct n = { e with nextId := e.nextId + 1 } ∧
    (∀ k, k ≠ engKey oct n → mget EngCtx.init t.engs k = mget EngCtx.init s.engs k) ∧
    { t with cores := s.cores, jobs := s.jobs, engs := s.engs } = s

/-- R169, R19 and R159: the queue has room, the counter of the control word is below 0xFFFF, and every earlier store that the job must observe,
of the slot or one it may have read, is performed. -/
def MayEnter (s : State) (b : Word) : Prop :=
  (s.jobsOf (s.cur.core / 8)).length < 64 ∧ s.me.counter (BitVec.ofNat 4 (b.toNat / 2 ^ 44)) ≠ 0xFFFF ∧ s.released s.cur = true

/-- R170: the control word of a matrix job without a remap: CNT in [47:44] and nothing else. -/
def GoodControl (b : Word) : Prop := b.toNat / 2 ^ 48 = 0 ∧ b.toNat % 2 ^ 44 = 0

/-- R170 and R192: with INPLACE in [42] and DESC in [3:0]. -/
def GoodRemapControl (b : Word) : Prop := b.toNat / 2 ^ 48 = 0 ∧ b.toNat / 2 ^ 43 % 2 = 0 ∧ b.toNat / 16 % 2 ^ 38 = 0

def regK (s : State) (n : Nat) : Word := s.me.kreg (BitVec.ofNat 6 n)
def fmtOf (p : Word) : Nat := p.toNat / 2 ^ 59

/-- R180: k.fmt. -/
def GoodFmt (k : Word) : Prop :=
  k.toNat / 2 ^ 16 = 0 ∧ k.toNat / 8 % 2 ^ 8 = 0 ∧ (k.toNat / 4 % 2 = 1 → k.toNat / 2 ^ 11 = 10 ∨ k.toNat / 2 ^ 11 = 11)

/-- R179: n bytes of accumulator memory from off. -/
def AccRange (s : State) (off : Word) (n : Nat) : Prop := off.toNat % 4 = 0 ∧ off.toNat + n ≤ (s.ctx (s.ctxOf s.cur)).accw * 16384

/-- R165, R182 and R194: a pointer does not lie on a multiple of its element size, or of 4 for a record in a scratchpad. -/
def OffElement (p : Word) : Prop := p.toNat % 2 ^ 56 % alignOf (fmtOf p) (p.toNat % 2 ^ 56) ≠ 0

/-- The stride of a pointer, which is used where there is more than one row, is no such multiple. -/
def OffStride (p stride : Word) (rows : Nat) : Prop := 1 < rows ∧ stride.toInt % alignOf (fmtOf p) (p.toNat % 2 ^ 56) ≠ 0

/-- A pointer into a peer package. -/
def Peer (p : Word) : Prop := p.toNat / 2 ^ 55 % 2 = 1

/-- R274: a pointer names the package's own device. -/
def Own (s : State) (p : Word) : Prop := Peer p ∧ p.toNat / 2 ^ 40 % 2 ^ 15 = s.fab.devno.toNat

/-- R181: formats of an A operand, of a B operand beside it, and what k must be a multiple of. -/
def aFormats : List Nat := [8, 9, 10, 11, 12, 13, 14, 15, 17, 18, 19]
def BesideA (fa fb : Nat) : Prop := if fa ∈ [8, 9, 10, 11] then fb = fa else fb ∈ [12, 13, 14, 15, 16, 17, 18, 19, 20]
def Divides (fa fb k : Nat) : Prop :=
  (fa ∈ [17, 18, 19] ∨ fb ∈ [17, 18, 19] → k % 32 = 0) ∧ (fb = 20 → k % 64 = 0) ∧ (fb = 16 → k % 8 = 0)

/-- R182: the checks of an MMA after gb. -/
def mmaChecks (s : State) : List (Prop × Nat × Word) :=
  let k := regK s
  [(¬GoodFmt (k 8), 7, k 8), (¬GoodPointer (k 0), 5, k 0), (¬GoodPointer (k 2), 5, k 2), (fmtOf (k 0) ∉ aFormats, 5, k 0),
   (¬BesideA (fmtOf (k 0)) (fmtOf (k 2)), 5, k 2), (Peer (k 0), 7, k 0), (Peer (k 2), 7, k 2), (2 ^ 16 ≤ (k 4).toNat, 7, k 4),
   (2 ^ 16 ≤ (k 5).toNat, 7, k 5), (2 ^ 32 ≤ (k 6).toNat ∨ ¬Divides (fmtOf (k 0)) (fmtOf (k 2)) (k 6).toNat, 7, k 6),
   (¬AccRange s (k 7) ((k 4).toNat * (k 5).toNat * if fmtOf (k 0) = 11 then 8 else 4), 7, k 7), (OffElement (k 0), 4, k 0),
   (OffElement (k 2), 4, k 2), (OffStride (k 0) (k 1) (k 4).toNat, 4, k 1), (OffStride (k 2) (k 3) (k 5).toNat, 4, k 3)]

/-- R194: the checks of ACCLD and ACCST after gb, for the formats they take, and those of ACCZ. -/
def transferChecks (s : State) (formats : List Nat) (store : Bool) : List (Prop × Nat × Word) :=
  let k := regK s
  let f := fmtOf (k 12)
  [(¬GoodPointer (k 12), 5, k 12), (f ∉ formats, 5, k 12), (2 ^ 16 ≤ (k 4).toNat, 7, k 4), (2 ^ 16 ≤ (k 5).toNat, 7, k 5),
   (store = true ∧ f ∈ [17, 18, 19] ∧ (k 5).toNat % 32 ≠ 0, 7, k 5), (¬AccRange s (k 7) ((k 4).toNat * (k 5).toNat * if f = 11 then 8 else 4), 7, k 7),
   (OffElement (k 12), 4, k 12), (OffStride (k 12) (k 13) (k 4).toNat, 4, k 13)]
def zeroChecks (s : State) : List (Prop × Nat × Word) :=
  let k := regK s
  [(2 ^ 16 ≤ (k 4).toNat, 7, k 4), (2 ^ 16 ≤ (k 5).toNat, 7, k 5), (¬AccRange s (k 7) ((k 4).toNat * (k 5).toNat * 4), 7, k 7)]

/-- R190 and R192: the checks of PREMAP, with its mask, and MATL after that of the descriptor, which has number n and is e. -/
def remapChecks (e : BitVec 512) (n : BitVec 4) (inplace : Bool) (mask : Option Word) : List (Prop × Nat × Word) :=
  let size := sizeColumn.getD (fmtOf (dBase e)) 0
  let base := (dBase e).toNat % 2 ^ 55
  (match mask with | some ga => [(ga.toNat / 2 ^ 40 ≠ 0 ∨ ga.toNat / 2 ^ dN e ≠ 0, 7, ga)] | none => []) ++
  [(17 ≤ fmtOf (dBase e) ∧ fmtOf (dBase e) ≤ 20, 5, dBase e), (inplace = true ∧ size ≠ 4 ∧ size ≠ 8, 5, dBase e),
   (inplace = false ∧ (dShadow e = 0 ∨ (base < dShadow e + 2 ^ dN e * size ∧ dShadow e < base + 2 ^ dN e * size)), 7, num n.toNat)]

/-- R166 and R165: the formats a copy converts between. -/
def converted : List Nat := [1, 2, 3, 4, 5, 6, 7, 8, 9, 10, 12, 13, 14, 15]

/-- R165: the checks of LCOPY and PCOPY. That all pointers come before all strides is R182's order, which R165 does not repeat. -/
def copyChecks (s : State) (ga gb : Word) (peers : Bool) : List (Prop × Nat × Word) :=
  let dst := regK s 12
  let rows := gb.toNat / 2 ^ 48
  [(¬GoodPointer ga, 5, ga), (¬GoodPointer dst, 5, dst), (gb.toNat / 2 ^ 32 % 2 ^ 11 ≠ 0, 7, gb),
   (if peers then Own s ga else Peer ga, 7, ga), (if peers then Own s dst else Peer dst, 7, dst),
   (fmtOf ga ≠ fmtOf dst ∧ ¬(fmtOf ga ∈ converted ∧ fmtOf dst ∈ converted), 5, dst),
   (OffElement ga, 4, ga), (OffElement dst, 4, dst), (OffStride ga (regK s 1) rows, 4, regK s 1), (OffStride dst (regK s 13) rows, 4, regK s 13)]

end Sys2Proof.Claims

/-! ## Engine registers -/

/-- R174 and R15: ECFG writes an engine register and FLDSET a doubleword of a descriptor at issue; EREAD and FLDGET empty gd and leave an
engine read of the value of that moment, which counts in OUTST, and wait while OUTST is at its limit (R39). FLDSET waits while a remap runs on
the descriptor. -/
def Sys2Proof.Claims.EngineRegistersAreReadAndWritten : Prop :=
  ∀ (s : State) (d a : Reg) (x : Bool) (k : BitVec 6) (n : BitVec 4) (w : BitVec 3),
    let reads (i : Instr) (v : Word) : Prop := (s.myCore.outstFull = true → Waits i s) ∧ (s.myCore.outstFull = false →
      ∃ t, exec i s = .next t ∧ (∀ r, t.me.tagG r = if r = d ∧ d ≠ 0 then .empty else s.me.tagG r) ∧
        Issues s t { atNext s.me with gt := t.me.gt, reqs := s.me.reqs ++ [local_ s (.eng d v) true] })
    (CanRead s a → Makes (.ecfg k a x) s { atNext s.me with k := s.me.k.set k.toNat (s.me.readG a) k.isLt } ∧
      (dState (s.me.desc n) ≠ 0 → Waits (.fldset n a w x) s) ∧
      (dState (s.me.desc n) = 0 → ∃ t, exec (.fldset n a w x) s = .next t ∧ OnlySlot s t { atNext s.me with d := t.me.d } ∧
        (∀ m, m ≠ n → t.me.desc m = s.me.desc m) ∧
        ∀ v < 8, dbits (t.me.desc n) (64 * v) 64 = if v = w.toNat then (s.me.readG a).toNat else dbits (s.me.desc n) (64 * v) 64)) ∧
    (CanRead s d → reads (.eread d k) (s.me.kreg k) ∧ reads (.fldget d n w) (num (dbits (s.me.desc n) (64 * w.toNat) 64)))

/-- R170, R182, R184, R185 and R194: MMA, APPLY, DIAG, ACCLD, ACCST and ACCZ put their job into the queue when its registers pass the checks;
the first check that fails traps. APPLY first starts the shadow remaps it asks for. An empty accumulator range past the window traps too, which is
the model's choice (log 80). -/
def Sys2Proof.Claims.MatrixJobsEnterTheQueue : Prop :=
  ∀ (s : State) (d b : Reg) (y : Bool), CanRead s d → CanRead s b →
    let gb := s.me.readG b
    let first : List (Prop × Nat × Word) := [(¬GoodControl gb, 7, gb)]
    let enters (i : Instr) (opc : Nat) (remaps : List Remap) : Prop := MayEnter s gb → Enters i s d opc 0 gb remaps []
    Checks (.mma d b y) s (first ++ mmaChecks s) (enters (.mma d b y) 4 []) ∧
    Checks (.apply d b y) s first ((∀ c t, fieldOpFault s 4 = some (c, t) → Traps (.apply d b y) s c.toNat t) ∧
      (fieldOpFault s 4 = none → ((regK s 11).toNat = 1 → ∀ n ∈ applyDescs s.me, dState (s.me.desc n) = 0) →
        enters (.apply d b y) 5 (applyRemaps s.me))) ∧
    Checks (.diag d b y) s first ((∀ c t, fieldOpFault s 8 = some (c, t) → Traps (.diag d b y) s c.toNat t) ∧
      (fieldOpFault s 8 = none → enters (.diag d b y) 6 [])) ∧
    Checks (.accld d b y) s (first ++ transferChecks s [8, 9, 10, 11] false) (enters (.accld d b y) 9 []) ∧
    Checks (.accst d b y) s (first ++ transferChecks s [1, 2, 3, 4, 5, 6, 7, 8, 9, 10, 11, 12, 13, 14, 15, 17, 18, 19] true)
      (enters (.accst d b y) 10 []) ∧
    Checks (.accz d b y) s (first ++ zeroChecks s) (enters (.accz d b y) 11 [])

/-- R186 to R192: PERM relabels the bits of a descriptor by its permutation and changes nothing else; MATL and PREMAP put a remap job into the
queue, to the identity and to the map of a mask; the first check that fails traps. -/
def Sys2Proof.Claims.FieldsArePermutedAndRemapped : Prop :=
  ∀ (s : State) (n : BitVec 4) (d a b : Reg) (x y : Bool),
    let ga := s.me.readG a
    let gb := s.me.readG b
    let e := s.me.desc n
    let A := ga.toNat % 64
    let W := ga.toNat / 2 ^ 8 % 64
    let B := ga.toNat / 2 ^ 16 % 64
    let old (i : Nat) : Nat :=
      if ga.toNat / 2 ^ 24 = 1 then (if A ≤ i ∧ i < A + W then 2 * A + W - 1 - i else i)
      else if ga.toNat / 2 ^ 24 = 2 then (if A ≤ i ∧ i < A + W then A + (i + W - A - B) % W else i)
      else if A ≤ i ∧ i < A + W then B + i - A else if B ≤ i ∧ i < B + W then A + i - B else i
    (CanRead s a →
      (∀ c t, permFault e n ga = some (c, t) → Traps (.perm n a x) s c.toNat t) ∧
      (permFault e n ga = none → ∃ t, exec (.perm n a x) s = .next t ∧ OnlySlot s t { atNext s.me with d := t.me.d } ∧
        (∀ m, m ≠ n → t.me.desc m = s.me.desc m) ∧
        (∀ i < dN e, dMap (t.me.desc n) i = dMap e (old i) ∧ (dLast (t.me.desc n)).testBit i = (dLast e).testBit (old i)) ∧
        dLast (t.me.desc n) < 2 ^ dN e ∧ dBase (t.me.desc n) = dBase e ∧ dShadow (t.me.desc n) = dShadow e ∧ dN (t.me.desc n) = dN e ∧
        dState (t.me.desc n) = dState e ∧ dWmark (t.me.desc n) = dWmark e ∧ ∀ k < 8, dWidth (t.me.desc n) k = dWidth e k)) ∧
    (CanRead s d → CanRead s b →
      let m := BitVec.ofNat 4 gb.toNat
      let inplace := gb.getLsbD 42
      let f := s.me.desc m
      let remaps (i : Instr) (mask : Option Word) (opc : Nat) (target : Nat → Nat) : Prop :=
        Checks i s [(¬GoodRemapControl gb, 7, gb)] ((∀ c t, descFault f m.toNat = some (c, t) → Traps i s c.toNat t) ∧
          (descFault f m.toNat = none → Checks i s (remapChecks f m inplace mask) ((dState f ≠ 0 → Waits i s) ∧
            (dState f = 0 → MayEnter s gb → Enters i s d opc (mask.getD 0) gb [newRemap m f inplace target] []))))
      remaps (.matl d b y) none 8 (fun i => i) ∧
      (CanRead s a → remaps (.premap d a b x y) (some ga) 0x84 (remapMap f fun i => ga.getLsbD i)))

/-- R165, R300, R285 and R274: LCOPY, PCOPY, PFILL, PTAG, PSCRUB and PCOLL put their job into the queue when their operands pass the checks;
the first check that fails traps. LCOPY takes local pointers; PCOLL takes its list with it and starts the remaps that its fields need; a field
whose map is the identity needs none, which is the model's choice (log 81). -/
def Obligations.PourJobsEnterTheQueue : Prop :=
  ∀ (s : State) (d a b : Reg) (x y : Bool), CanRead s d → CanRead s a → CanRead s b →
    let ga := s.me.readG a
    let gb := s.me.readG b
    let dst := regK s 12
    let rows := gb.toNat / 2 ^ 48
    let enters (i : Instr) (opc : Nat) (remaps : List Remap) (list : List Word) : Prop := MayEnter s gb → Enters i s d opc ga gb remaps list
    Checks (.lcopy d a b x y) s (copyChecks s ga gb false) (enters (.lcopy d a b x y) 0x80 [] []) ∧
    Checks (.pcopy d a b x y) s (copyChecks s ga gb true) (enters (.pcopy d a b x y) 0x81 [] []) ∧
    Checks (.pfill d a b x y) s [(¬GoodPointer ga, 5, ga), (gb.toNat / 2 ^ 32 % 2 ^ 12 ≠ 0, 7, gb), (Own s ga, 7, ga), (17 ≤ fmtOf ga, 5, ga),
      (OffElement ga, 4, ga), (OffStride ga (regK s 13) rows, 4, regK s 13)] (enters (.pfill d a b x y) 0x82 [] []) ∧
    Checks (.ptag d a b x y) s [(¬GoodPointer ga, 5, ga), (gb.toNat / 2 ^ 33 % 2 ^ 11 ≠ 0, 7, gb), (Own s ga, 7, ga), (ga.toNat % 4 ≠ 0, 4, ga),
      (1 < rows ∧ (regK s 13).toNat % 4 ≠ 0, 4, regK s 13)] (enters (.ptag d a b x y) 0x83 [] []) ∧
    (let lo := ga.toNat % 2 ^ 56
     let hi := lo + 128 * (gb.toNat % 2 ^ 32)
     Checks (.pscrub d a b x y) s [(¬GoodPointer ga, 5, ga), (¬GoodPointer dst, 5, dst), (rows ≠ 0 ∨ gb.toNat / 2 ^ 32 % 2 ^ 12 ≠ 0, 7, gb),
       (Peer ga, 7, ga), (Peer dst, 7, dst), (ga.toNat % 128 ≠ 0, 4, ga), (dst.toNat % 4 ≠ 0, 4, dst),
       (lo < hi ∧ winBase < hi ∧ lo < 2 ^ 55 ∧ ¬(winBase ≤ lo ∧ hi ≤ 2 ^ 55), 7, ga)] (enters (.pscrub d a b x y) 0x85 [] [])) ∧
    (let m := gb.toNat % 128
     let es := (List.range m).map fun i => Block.mk (num (listNat s ga (32 * i) 8)) (num (listNat s ga (32 * i + 8) 8))
       (num (listNat s ga (32 * i + 16) 8)) (num (listNat s ga (32 * i + 24) 8))
     let fault (i : Nat) (e : Block) : Option (BitVec 8 × Word) := blockFault s e (gb.getLsbD 42) (ga.toNat % 2 ^ 56 + 32 * i)
     let passes (i : Nat) : Prop := ∀ e, es[i]? = some e → fault i e = none
     (∀ c t, ownBytes s ga (32 * m) = .error (c, t) → Traps (.pcoll d a b x y) s c.toNat t) ∧
     (OwnList s ga (32 * m) →
       Checks (.pcoll d a b x y) s [(rows ≠ 0 ∨ gb.toNat / 2 ^ 7 % 2 ^ 35 ≠ 0 ∨ gb.toNat / 2 ^ 43 % 2 ≠ 0 ∨ m = 0 ∨ 64 < m, 7, gb)]
         ((∀ i e c t, es[i]? = some e → (∀ k < i, passes k) → fault i e = some (c, t) → Traps (.pcoll d a b x y) s c.toNat t) ∧
          ((∀ i < m, passes i) → (∀ e ∈ es, e.field = true → dState (s.me.desc e.desc) = 0) →
            enters (.pcoll d a b x y) 0x86 (exportRemaps s.me es []).2 (exportRemaps s.me es []).1))))

/-- R196, R197, R198 and R62: ESTAT reads what its selector asks of the slot's own job, an engine read that waits while OUTST is at its limit (R39); ERESUME and ABANDON, which share their words, let a
stopped job go on, a job on accumulator memory behind the jobs that have passed it (R171), or take it out of the queue; CTLOAD starts a load of the code-table bank that is not in use and CTSWAP swaps the banks. -/
def Sys2Proof.Claims.JobsAreQueriedAndControlled : Prop :=
  ∀ (s : State) (d a b : Reg) (x y : Bool), CanRead s d → CanRead s a → CanRead s b →
    let ga := s.me.readG a
    let gb := s.me.readG b
    let oct := s.cur.core / 8
    let n := s.ctxOf s.cur
    let e := s.eng oct n
    let status (j : Job) : Nat :=
      j.stCode * 2 ^ 61 + (if j.st = .stopped then j.cause.toNat else 0) * 2 ^ 48 + j.b.toNat / 2 ^ 44 % 16 * 2 ^ 44 + j.opc.toNat * 2 ^ 32
    let j? := s.myJob (BitVec.ofNat 16 ga.toNat)
    let sel := ga.toNat / 2 ^ 16 % 4
    let v := if sel = 3 then num ((s.ctx n).accw * 16384) else match j? with
      | none => 0
      | some j => if sel = 0 then num (status j) else if sel = 1 then (if j.st = .stopped then j.fault else 0) else num j.shown
    (s.myCore.outstFull = true → Waits (.estat d a x) s) ∧
    (s.myCore.outstFull = false → ∃ t, exec (.estat d a x) s = .next t ∧ (∀ r, t.me.tagG r = if r = d ∧ d ≠ 0 then .empty else s.me.tagG r) ∧
      Issues s t { atNext s.me with gt := t.me.gt, reqs := s.me.reqs ++ [local_ s (.eng d v) true] }) ∧
    (∀ i ∈ [Instr.eresume d a b x y, .abandon d a b x y],
      (2 ≤ gb.toNat → Traps i s 7 gb) ∧
      (gb.toNat < 2 → (∀ j, j? = some j → j.st ≠ .stopped) → Traps i s 7 ga) ∧
      ∀ j, j? = some j → j.st = .stopped →
        (gb = 0 → ∃ t, exec i s = .next t ∧ RegIs s.me t.me d (num j.id.toNat) ∧ SlotIs s t { atNext s.me with g := t.me.g, gt := t.me.gt } ∧
          t.jobsOf oct = (s.jobsOf oct).map (fun q => if q.ctx = n ∧ q.id = j.id then
            { j with st := if (j.remaps ≠ [] ∧ j.opc = 5) ∨ j.usesAcc = true then .queued else .running, cause := 0, fault := 0,
                     inRemap := false } else q) ∧
          (∀ o, o ≠ oct → t.jobsOf o = s.jobsOf o) ∧ { t with cores := s.cores, jobs := s.jobs } = s) ∧
        (gb = 1 → j.inRemap = true → Traps i s 7 ga) ∧
        (gb = 1 → j.inRemap = false →
          let c := s.me.counter (BitVec.ofNat 4 (j.b.toNat / 2 ^ 44))
          ∃ t, exec i s = .next t ∧ RegIs s.me t.me d (num j.id.toNat) ∧
            SlotIs s t { atNext s.me with g := t.me.g, gt := t.me.gt, c := t.me.c, fstat := withFlags s.me.fstat j.flags } ∧
            (∀ m, t.me.counter m = if m.toNat = j.b.toNat / 2 ^ 44 % 16 then (if c = 0 then 0 else c - 1) else s.me.counter m) ∧
            t.jobsOf oct = (s.jobsOf oct).filter (fun q => ¬(q.ctx = n ∧ q.id = j.id)) ∧
            (∀ o, o ≠ oct → t.jobsOf o = s.jobsOf o) ∧ { t with cores := s.cores, jobs := s.jobs } = s)) ∧
    Checks (.ctload d a b x y) s [(¬GoodControl gb, 7, gb), (¬GoodPointer ga, 5, ga), (fmtOf ga ≠ 0, 5, ga), (ga.toNat % 8 ≠ 0, 4, ga)]
      ((∀ j ∈ s.jobsOf oct, j.ctx = n → j.opc.toNat < 0x80 → j.bank = e.bank) → MayEnter s gb → Enters (.ctload d a b x y) s d 13 ga gb [] []) ∧
    ((∀ j ∈ s.jobsOf oct, j.ctx = n → (j.opc.toNat < 0x80 → j.bank = e.bank) ∧ j.opc ≠ 13) → ∃ t, exec (.ctswap d) s = .next t ∧
      RegIs s.me t.me d (if e.bank then 0 else 1) ∧ SlotIs s t { atNext s.me with g := t.me.g, gt := t.me.gt } ∧
      t.eng oct n = { e with bank := !e.bank } ∧ (∀ k, k ≠ engKey oct n → mget EngCtx.init t.engs k = mget EngCtx.init s.engs k) ∧
      { t with cores := s.cores, engs := s.engs } = s) ∧
    ((∃ j ∈ s.jobsOf oct, j.ctx = n ∧ (j.opc.toNat < 0x80 ∧ j.bank ≠ e.bank ∨ j.opc = 13)) → Waits (.ctswap d) s)

namespace Sys2Proof.Claims

/-! ## The slot table and the brew table -/

/-- An instruction with an image at pointer p may read or write it: raw, 8-aligned, not of the own device, the stores that it follows performed,
no acquire outstanding, room in OUTST (R239, R288). -/
def ImageReady (s : State) (p : Word) : Prop :=
  GoodPointer p ∧ fmtOf p = 0 ∧ p.toNat % 8 = 0 ∧ ¬Own s p ∧ s.released s.cur = true ∧ s.me.acquiring = false ∧ s.myCore.outstFull = false

/-- Its n bytes lie in this package, translated to the keys, without errors where it is read; no near-bank unit makes it wait, nor does a store of
another die that covers one of its words in part (R152). -/
def Image (s : State) (p : Word) (n : Nat) (perm : Perm) (keys : List Nat) : Prop :=
  ImageReady s p ∧ p.toNat / 2 ^ 55 % 2 = 0 ∧ s.blockLocs s.bankUser (s.agent s.cur) perm (n / 2048 + 2) (p.toNat % 2 ^ 56) n = .ok keys ∧
    (perm = permR → s.isPoisoned keys = false) ∧ (perm = permW → s.sliceOver s.cur.core keys = false)

/-- Its n bytes lie in the window of a device that can be reached. -/
def PeerImage (s : State) (p : Word) (dev : Nat) : Prop :=
  ImageReady s p ∧ p.toNat / 2 ^ 55 % 2 = 1 ∧ dev = p.toNat / 2 ^ 40 % 2 ^ 15 ∧ s.fab.reaches dev = true

/-- Doubleword i of the bytes at some keys. -/
def wordAt (s : State) (keys : List Nat) (i : Nat) : Word := num (leNat (s.bytes ((keys.drop (8 * i)).take 8)))

/-- gd := v; beside the issuing slot only the fabric, the brew table, the cached translations, the lines of the Crema and the queues of the banks
changed. -/
def Answers (i : Instr) (s : State) (d : Reg) (v : Word) (holds : State → Prop) : Prop :=
  ∃ t, exec i s = .next t ∧ RegIs s.me t.me d v ∧ SlotIs s t { atNext s.me with g := t.me.g, gt := t.me.gt } ∧ holds t ∧
    { t.carafe with waiting := s.carafe.waiting } = s.carafe ∧
    { t with cores := s.cores, fab := s.fab, brew := s.brew, xlats := s.xlats, crema := s.crema, carafe := s.carafe } = s

/-- R270: a slot-table entry that may not be loaded. -/
def BadSlot (s : State) (e : Word × Word) : Prop :=
  let len := e.1.toNat / 2 ^ 32
  let guard := e.1.toNat % 2 ^ 32
  len < 2000 ∨ 100000 < len ∨ guard < 500 ∨ len < guard + 1000 ∨ ∃ p < 4, e.2.toNat / 2 ^ (16 * p) % 2 ^ 16 = 2 ^ 15 + s.fab.devno.toNat

/-- R270 and R310: a control pair that may not be loaded. -/
def BadControl (s : State) (c : Word) : Prop :=
  c.toNat / 2 ^ 9 ≠ 0 ∨ c.toNat / 2 ^ 7 % 2 = 1 ∨ c.toNat % 2 ^ 7 = 0 ∨ 64 < c.toNat % 2 ^ 7 ∨ (c.toNat / 2 ^ 8 % 2 = 1 ∧ s.fab.devno = 0x7FFF)

/-- R235 and R240: entry j of the brew table cannot run at a stage. -/
def CannotRun (b : Brew) (stage j : Nat) : Prop :=
  let e := (mget 0 b.entries j).toNat
  e / 2 ^ 8 % 2 ^ 8 ≠ stage ∨ mfind b.templates (e / 2 ^ 28 % 16) = none ∨
    (e.testBit 38 = true ∧ (mget Stash.init b.stash (e / 2 ^ 32 % 64)).loaded = false)

/-! ## Registers of the system -/

/-- R37 and the field maps: the CSRs as a slot reads them. -/
def csrTable : List (Nat × (State → Word)) :=
  let me (f : Slot → Nat) : State → Word := fun s => num (f s.me)
  let ctx (f : Ctx → Word) : State → Word := fun s => f (s.ctx (s.ctxOf s.cur))
  [(0x001, me (·.fstat.toNat)),
   (0x002, fun s => num (s.fab.devno.toNat * 2 ^ 25 + (s.diemaxOf s.cur).toNat * 2 ^ 19 + coordOf s.cur.core + s.cur.slot.val)),
   (0x003, me (·.stage.toNat)), (0x004, me (·.valloc.toNat)), (0x005, fun s => int s.me.vi.toInt), (0x006, ctx (·.tbndlo)), (0x007, ctx (·.tbndhi)),
   (0x008, (·.me.upvec)), (0x009, (·.me.upsave)), (0x00A, me (·.tcause.toNat)), (0x00B, (·.me.tval)), (0x00C, (·.me.tpc)),
   (0x00D, fun s => num (s.myCore.limit.toNat * 256 + s.myCore.outst % 256)), (0x00E, me (·.rngseed.toNat)), (0x00F, me (·.joinch.toNat)),
   (0x020, fun s => num (s.myCore.svc.toNat * 2 ^ 16 + s.myCore.area.toNat * 2 ^ 12)), (0x030, fun s => num s.time),
   (0x031, fun s => num s.repair.skew.toNat), (0x040, fun s => num (s.eng (s.cur.core / 8) (s.ctxOf s.cur)).bank.toNat), (0x080, ctx (·.rowlost)),
   (0x090, fun s => if (s.ctx (s.ctxOf s.cur)).brewown then num (s.brew.up.toNat + s.brew.down.toNat + s.brew.res.toNat) else 0),
   (0x800, me (·.ctxid.toNat)), (0x801, ctx (·.ptroot)),
   (0x802, fun s => num (mget 512 s.crema.psel (s.ctxOf s.cur)).toNat),
   (0x803, fun s => num ((List.range 8).map fun v => (match s.repair.diemap[v]? with | some p => p.1.toNat * 8 + p.2.toNat | none => 0) * 16 ^ v).sum),
   (0x804, (·.repair.elogbase)), (0x805, (·.repair.eloghead)), (0x806, (·.repair.elogtail)), (0x807, (·.me.kvec)), (0x808, (·.me.ktpc)),
   (0x809, (·.me.kcause)), (0x80A, (·.me.ktval)),
   (0x80B, fun s => num (s.sched.busy.toNat * 2 ^ 63 + s.sched.cmdCtx.toNat * 2 ^ 8 + s.sched.result.toNat)), (0x80C, (·.sched.ctxtab)),
   (0x80D, (·.me.xinv)), (0x810, (·.fab.grantbase)), (0x811, (·.fab.grantcmd)), (0x812, fun s => num s.repair.errwin.toNat),
   (0x813, fun s => num (s.repair.logdrop.toNat * 2 ^ 48 + s.repair.diegen.toNat * 2 ^ 32 + s.repair.timeok.toNat * 8 + s.repair.reroute.toNat * 4 +
     s.repair.evac.toNat * 2 + s.repair.service.toNat)),
   (0x814, (·.repair.timectl))]

/-- The CSRs of a slot that a write changes: the values it takes, and the slot after it. -/
def csrSlotTable : List (Nat × (Word → Bool) × (Slot → Word → Slot)) :=
  let any : Word → Bool := fun _ => true
  [(0x001, fun v => v.toNat % 8 < 5, fun x v => { x with fstat := BitVec.ofNat 10 v.toNat }), (0x003, any, fun x v => { x with stage := BitVec.ofNat 8 v.toNat }),
   (0x005, any, fun x v => { x with vi := BitVec.ofNat 8 v.toNat }), (0x008, any, fun x v => { x with upvec := num (v.toNat / 4 * 4 + v.toNat % 2) }),
   (0x009, fun v => v.toNat % 64 = 0, fun x v => { x with upsave := v }), (0x00A, any, fun x v => { x with tcause := BitVec.ofNat 8 v.toNat }),
   (0x00B, any, fun x v => { x with tval := v }), (0x00C, fun v => v.toNat % 4 = 0, fun x v => { x with tpc := v }),
   (0x00E, any, fun x v => { x with rngseed := if v.toNat % 2 ^ 16 = 0 then 1 else BitVec.ofNat 16 v.toNat }),
   (0x00F, any, fun x v => { x with joinch := BitVec.ofNat 5 v.toNat }), (0x800, any, fun x v => { x with ctxid := BitVec.ofNat 7 v.toNat }),
   (0x807, any, fun x v => { x with kvec := num (v.toNat / 4 * 4 + v.toNat % 2) }), (0x808, any, fun x v => { x with ktpc := v }),
   (0x809, any, fun x v => { x with kcause := num (v.toNat / 2 ^ 63 * 2 ^ 63 + v.toNat % 256) }), (0x80A, any, fun x v => { x with ktval := v })]

/-- R308: TIMECTL takes a value; where that names another master, the bound of SKEW is gone until an exchange with it (log 4, the model's choice). -/
def withTimectl (r : Repair) (v : Word) : Repair :=
  let w := num (v.toNat / 2 ^ 12 % 2 ^ 36 * 2 ^ 12 + v.toNat % 2)
  if w.toNat % 2 ^ 12 = r.timectl.toNat % 2 ^ 12 ∧ w.toNat / 2 ^ 32 = r.timectl.toNat / 2 ^ 32 then { r with timectl := w }
  else { r with timectl := w, skew := 0xFFFFFFFF, pendSkew := none }

/-- The CSRs of the device that a write changes alone; PTROOT goes into the context's table entry too (R246). -/
def csrDeviceTable : List (Nat × (Word → Bool) × (State → Word → State)) :=
  let any : Word → Bool := fun _ => true
  let rep (f : Repair → Word → Repair) : State → Word → State := fun s v => { s with repair := f s.repair v }
  [(0x804, fun v => v.toNat % 16 = 0 || 6 ≤ v.toNat % 16,
      rep fun r v => { r with elogbase := num (v.toNat / 2 ^ 12 % 2 ^ 28 * 2 ^ 12 + v.toNat % 16) }),
   (0x806, any, rep fun r v => { r with elogtail := v }),
   (0x812, fun v => 1000 ≤ v.toNat % 2 ^ 32 && v.toNat % 2 ^ 32 ≤ 60000000, rep fun r v => { r with errwin := BitVec.ofNat 32 v.toNat }),
   (0x813, any, rep fun r v => { r with logdrop := BitVec.ofNat 16 (v.toNat / 2 ^ 48) }),
   (0x814, fun v => 100 ≤ v.toNat / 2 ^ 12 % 2 ^ 20 && v.toNat / 2 ^ 12 % 2 ^ 20 ≤ 10000,
      rep withTimectl),
   (0x801, any, fun s v =>
      (s.write (s.sched.ctxtab.toNat + 256 * s.ctxOf s.cur + 8) 8 v.toNat).modCtx (s.ctxOf s.cur) fun c => { c with ptroot := v }),
   (0x802, any, fun s v => { s with crema := { s.crema with psel := mset 512 s.crema.psel (s.ctxOf s.cur) (BitVec.ofNat 10 v.toNat) } }),
   (0x810, any, fun s v => { s with fab := { s.fab with grantbase := num (v.toNat / 2 ^ 13 % 2 ^ 27 * 2 ^ 13) } }),
   (0x080, any, fun s v => s.modCtx (s.ctxOf s.cur) fun c => { c with rowlost := v }),
   (0x00D, fun v => 1 ≤ v.toNat / 256 % 256 && v.toNat / 256 % 256 ≤ 64,
      fun s v => s.modCore s.cur.core fun c => { c with limit := BitVec.ofNat 8 (v.toNat / 256) })]

abbrev CsrOp := Reg → Reg → BitVec 12 → Instr

/-- R83: the writing forms: function code, and what they write for the old value and ga. -/
def csrForms : List (CsrOp × Nat × (Word → Word → Word)) :=
  [(.csrw, 1, fun _ v => v), (.csrs, 2, fun old v => bitwise (fun p q => p || q) old v), (.csrc, 3, fun old v => bitwise (fun p q => p && !q) old v)]

/-- The word of an SY instruction (R24, R33). -/
def syWord (fn : Nat) (d a : Reg) (c : Nat) : Word := num (0x27 * 2 ^ 26 + d.toNat * 2 ^ 21 + a.toNat * 2 ^ 16 + c * 16 + fn)

end Sys2Proof.Claims

/-! ## The slot table and the brew table -/

/-- R288, R273 and R289: the four forms of PSLOT, told apart by gb[1:0], load entries or the control pair (at once, or at the next rotation
boundary while a rotation runs), store entries, and report the status; an image in a peer's window is read or written there (R274). PQ reports a
device. -/
def Sys2Proof.Claims.SlotTableIsLoadedStoredAndQueried : Prop :=
  ∀ (s : State) (d a b : Reg) (x y : Bool), CanRead s d → CanRead s a →
    let ga := s.me.readG a
    let gb := s.me.readG b
    let first := gb.toNat / 2 ^ 8 % 64
    let count := gb.toNat / 2 ^ 16 % 128
    let reserved := gb.toNat / 4 % 64 ≠ 0 ∨ gb.toNat / 2 ^ 14 % 4 ≠ 0 ∨ gb.toNat / 2 ^ 23 ≠ 0
    let item (keys : List Nat) (i : Nat) : Word × Word := (wordAt s keys (2 * i), wordAt s keys (2 * i + 1))
    let running := s.fab.running s.time
    (CanRead s b → ∀ i ∈ [Instr.pslotLoadEntries d a b x y, .pslotStoreEntries d a b x y, .pslotLoadControl d a b x y, .pslotStatus d a b x y],
      (gb.toNat % 2 = 0 → isControl s.cur.core = false → ∀ w, encode i = some w → Traps i s 7 (num w.toNat)) ∧
      ((isControl s.cur.core = true ∨ gb.toNat % 2 = 1) → reserved → Traps i s 7 gb) ∧
      (isControl s.cur.core = true → gb.toNat % 4 = 0 → ¬reserved → 1 ≤ count → first + count ≤ 64 → ∀ keys, Image s ga (16 * count) permR keys →
        (∀ j < count, BadSlot s (item keys j) → (∀ k < j, ¬BadSlot s (item keys k)) →
          Answers i s d (num (2 + j * 256)) fun t => t.fab = s.fab ∧ t.brew = s.brew) ∧
        ((∀ j < count, ¬BadSlot s (item keys j)) → Answers i s d 0 fun t =>
          if running then t.fab.pendSlots = s.fab.pendSlots ++ (List.range count).map (fun j => (first + j, item keys j)) ∧ t.fab.slots = s.fab.slots
          else ∀ n, ∀ h : n < 64, t.fab.slots[n] = if first ≤ n ∧ n < first + count then item keys (n - first) else s.fab.slots[n])) ∧
      (gb.toNat % 4 = 1 → ¬reserved → 1 ≤ count → first + count ≤ 64 → ∀ keys, Image s ga (16 * count) permW keys →
        exec i s = .next ((((s.leaveBanks s.bankUser).touch (ga.toNat % 2 ^ 56) (16 * count)).put keys ((List.range count).flatMap fun j =>
          match s.fab.slots[first + j]? with | some e => toBytes 8 e.1.toNat ++ toBytes 8 e.2.toNat | none => [])).modMe
            fun z => (z.writeG d 0).next)) ∧
      (isControl s.cur.core = true → gb.toNat % 4 = 2 → ¬reserved → ∀ keys, Image s ga 16 permR keys →
        (BadControl s (wordAt s keys 0) → Answers i s d 2 fun t => t.fab = s.fab ∧ t.brew = s.brew) ∧
        (¬BadControl s (wordAt s keys 0) → Answers i s d 0 fun t =>
          if running then t.fab.pendCtrl = some (item keys 0) ∧ t.fab.ctrl = s.fab.ctrl
          else t.fab.ctrl = wordAt s keys 0 ∧ t.fab.rotbase = wordAt s keys 1)) ∧
      (∀ dev, PeerImage s ga dev → ¬reserved →
        (isControl s.cur.core = true → gb.toNat % 4 = 0 → 1 ≤ count → first + count ≤ 64 →
          AsksPeer i s dev (.image 1 d ga gb) (.read (ga.toNat % 2 ^ 40) (16 * count))) ∧
        (gb.toNat % 4 = 1 → 1 ≤ count → first + count ≤ 64 →
          AsksPeer i s dev (.image 3 d ga gb) (.write (ga.toNat % 2 ^ 40) ((List.range count).flatMap fun j =>
            match s.fab.slots[first + j]? with | some e => toBytes 8 e.1.toNat ++ toBytes 8 e.2.toNat | none => []))) ∧
        (isControl s.cur.core = true → gb.toNat % 4 = 2 → AsksPeer i s dev (.image 2 d ga gb) (.read (ga.toNat % 2 ^ 40) 16))) ∧
      (gb.toNat % 4 = 3 → ¬reserved → s.myCore.outstFull = false →
        let top := s.fab.enabled.toNat * 2 + s.fab.pending.toNat
        (∀ k o, s.fab.current s.time = some (k, o) → Gives i s d (num (top * 2 ^ 62 + k % 64 * 2 ^ 56 + o % 2 ^ 32))) ∧
        (s.fab.current s.time = none → ∃ t v, exec i s = .next t ∧ RegIs s.me t.me d v ∧ v.toNat / 2 ^ 62 = top ∧ v.toNat / 2 ^ 32 % 2 ^ 24 = 0 ∧
          OnlySlot { s with fresh := s.fresh + 1 } t { atNext s.me with g := t.me.g, gt := t.me.gt }))) ∧
    (2 ^ 15 ≤ ga.toNat → Traps (.pq d a x) s 7 ga) ∧
    (ga.toNat < 2 ^ 15 → s.myCore.outstFull = false →
      let queued := min 65535 ((s.fab.queue.filter fun f => f.dst = ga.toNat).length +
        (s.fab.leaving.filter fun p => p.1 = ga.toNat ∧ s.time < p.2).length)
      Gives (.pq d a x) s d
        (num (if s.fab.reaches ga.toNat then 2 ^ 63 + queued * 2 ^ 32 + s.fab.nextWindow s.time ga.toNat else queued * 2 ^ 32 + 0xFFFFFFFF)))

/-- R238 to R241 and R243: a context that does not own the brew table traps ACCESS; BRWLD loads entries, templates or stash addresses, whole or
not at all; BRWARM, or DISARM, arms or stops a window; BRWQ reads the table; BRWPOST sends a post once what it releases is performed. -/
def Sys2Proof.Claims.BrewTableIsLoadedArmedPostedAndQueried : Prop :=
  ∀ (s : State) (d a b : Reg) (x y : Bool), CanRead s d → CanRead s a → CanRead s b →
    let ga := s.me.readG a
    let gb := s.me.readG b
    let owns := (s.ctx (s.ctxOf s.cur)).brewown
    let what := gb.toNat % 4
    let first := gb.toNat / 2 ^ 8 % 2 ^ 8
    let count := gb.toNat / 2 ^ 16 % 2 ^ 9
    let lo := ga.toNat % 2 ^ 8
    let hi := ga.toNat / 2 ^ 8 % 2 ^ 8
    let stage := ga.toNat / 2 ^ 16
    (owns = false → ∀ i ∈ [Instr.brwld d a b x y, .brwarm d a b x y, .disarm d a b x y, .brwq d a x], ∀ w, encode i = some w →
      Traps i s 7 (num w.toNat)) ∧
    (owns = true → gb.toNat / 4 % 64 = 0 → gb.toNat / 2 ^ 25 = 0 → 1 ≤ count → mwf 0 s.brew.entries = true →
      let words := if what = 1 then 16 else 1
      what < 3 → first + count ≤ (if what = 0 then 256 else if what = 1 then 16 else 64) →
      ∀ keys, Image s ga (8 * words * count) permR keys →
      let item (j : Nat) : List Word := (List.range words).map fun k => wordAt s keys (words * j + k)
      (s.brew.meets what first count = true → Answers (.brwld d a b x y) s d 1 fun t => t.brew = s.brew) ∧
      (s.brew.meets what first count = false → ∀ j < count, itemBad (s.ctx (s.ctxOf s.cur)).tbndlo (s.ctx (s.ctxOf s.cur)).tbndhi what (item j) = true → (∀ k < j, itemBad (s.ctx (s.ctxOf s.cur)).tbndlo (s.ctx (s.ctxOf s.cur)).tbndhi what (item k) = false) →
        Answers (.brwld d a b x y) s d (num (2 + j * 256)) fun t => t.brew = s.brew) ∧
      (s.brew.meets what first count = false → (∀ j < count, itemBad (s.ctx (s.ctxOf s.cur)).tbndlo (s.ctx (s.ctxOf s.cur)).tbndhi what (item j) = false) → Answers (.brwld d a b x y) s d 0 fun t =>
        let inside (n : Nat) : Prop := first ≤ n ∧ n < first + count
        (∀ n, mget 0 t.brew.entries n = if what = 0 ∧ inside n then (item (n - first)).headD 0 else mget 0 s.brew.entries n) ∧
        (∀ n, mfind t.brew.templates n = if what = 1 ∧ inside n then some (item (n - first)) else mfind s.brew.templates n) ∧
        (∀ n, t.brew.stashAt n = if what = 2 ∧ inside n then { s.brew.stashAt n with addr := (item (n - first)).headD 0, loaded := true }
          else s.brew.stashAt n) ∧
        { t.brew with entries := s.brew.entries, templates := s.brew.templates, stash := s.brew.stash } = s.brew)) ∧
    (owns = true → gb.toNat / 4 % 64 = 0 → gb.toNat / 2 ^ 25 = 0 → 1 ≤ count → what < 3 →
      first + count ≤ (if what = 0 then 256 else if what = 1 then 16 else 64) → ∀ dev, PeerImage s ga dev →
      AsksPeer (.brwld d a b x y) s dev (.image 0 d ga gb) (.read (ga.toNat % 2 ^ 40) (8 * (if what = 1 then 16 else 1) * count))) ∧
    (owns = true → ga.toNat < 2 ^ 24 → lo ≤ hi → gb.toNat < 4 → s.myCore.outstFull = false → ∀ i ∈ [Instr.brwarm d a b x y, .disarm d a b x y],
      (2 ≤ gb.toNat → Answers i s d 0 fun t => t.brew = { s.brew with armed := false }) ∧
      (gb.toNat < 2 → s.brew.armed = true → s.brew.done = false → Gives i s d 1) ∧
      (gb.toNat < 2 → (s.brew.armed = true → s.brew.done = true) →
        (∀ j, lo ≤ j → j ≤ hi → CannotRun s.brew stage j → (∀ k, lo ≤ k → k < j → ¬CannotRun s.brew stage k) → Gives i s d (num (2 + j * 256))) ∧
        ((∀ j, lo ≤ j → j ≤ hi → ¬CannotRun s.brew stage j) → ∃ t, exec i s = .next t ∧ RegIs s.me t.me d 0 ∧
          SlotIs s t { atNext s.me with g := t.me.g, gt := t.me.gt } ∧
          t.brew.armed = true ∧ t.brew.done = false ∧ t.brew.serial = decide (gb.toNat = 1) ∧ t.brew.stage.toNat = stage ∧ t.brew.first = lo ∧
          t.brew.last = hi ∧ t.brew.head = lo ∧ t.brew.up = 0 ∧ t.brew.down = 0 ∧ t.brew.res = 0 ∧ (∀ p ∈ t.brew.stash, p.2.held = none) ∧
          { t.brew with armed := s.brew.armed, done := s.brew.done, serial := s.brew.serial, stage := s.brew.stage, first := s.brew.first,
                        last := s.brew.last, head := s.brew.head, up := s.brew.up, down := s.brew.down, res := s.brew.res, cause := s.brew.cause,
                        states := s.brew.states, stash := s.brew.stash } = s.brew ∧
          { t with cores := s.cores, brew := s.brew, sched := s.sched } = s))) ∧
    (owns = true → s.myCore.outstFull = false →
      let sel := ga.toNat % 2 ^ 8
      let n := ga.toNat / 2 ^ 8 % 2 ^ 8
      (6 < sel ∨ ((sel = 4 ∨ sel = 6) ∧ 63 < n) → Traps (.brwq d a x) s 7 ga) ∧
      (sel = 0 → Gives (.brwq d a x) s d s.brewStatus) ∧ (sel = 1 → Gives (.brwq d a x) s d s.brew.up) ∧
      (sel = 2 → Gives (.brwq d a x) s d s.brew.down) ∧ (sel = 3 → Gives (.brwq d a x) s d s.brew.res) ∧
      (sel = 4 → n < 64 → Gives (.brwq d a x) s d (num (mget 0 s.brew.chans n).toNat)) ∧
      (sel = 5 → Gives (.brwq d a x) s d (num (mget 0 s.brew.states n).toNat)) ∧
      (sel = 6 → n < 64 → Gives (.brwq d a x) s d (match (s.brew.stashAt n).held with | some m => num (2 ^ 63 + m.toNat) | none => 0))) ∧
    (let peer := ga.toNat / 2 ^ 55 = 1
     let dev := ga.toNat / 2 ^ 40 % 2 ^ 15
     let dep := ga.toNat / 2 ^ 8 % 2 = 1
     let ch := BitVec.ofNat 8 gb.toNat
     let n := BitVec.ofNat 16 (gb.toNat / 2 ^ 16)
     ga.toNat / 2 ^ 56 = 0 → ga.toNat / 2 ^ 9 % 2 ^ 31 = 0 → ga.toNat % 2 ^ 8 = 0 → gb.toNat / 2 ^ 32 = 0 → gb.toNat / 2 ^ 8 % 2 ^ 8 = 0 →
     (s.ordered 4 = false → (¬peer → dev = 0) → (dep → ¬peer) → (¬dep → ch.toNat < 64) → (¬dep → ¬peer → owns = true) →
       (peer → dev ≠ s.fab.devno.toNat) → Waits (.brwpost d a b x y) s) ∧
     (s.ordered 4 = true → s.myCore.outstFull = false →
       let posts (p : Bool) (holds : State → Prop) : Prop := ∃ t, exec (.brwpost d a b x y) s = .next t ∧ RegIs s.me t.me d 0 ∧
         SlotIs s t { atNext s.me with g := t.me.g, gt := t.me.gt,
                                       reqs := s.me.reqs ++ [if p then remote s .post else local_ s .post true] } ∧
         t.nextReq = s.nextReq + 1 ∧ holds t
       (¬peer → dev = 0 → (dep ∨ (ch.toNat < 64 ∧ owns = true)) → posts false fun t =>
         t.posts = s.posts ++ [⟨s.cur, s.nextReq, s.ctxOf s.cur, decide dep, ch, n⟩] ∧
         { t with cores := s.cores, nextReq := s.nextReq, posts := s.posts } = s) ∧
       (peer → ¬dep → ch.toNat < 64 → dev ≠ s.fab.devno.toNat → s.fab.reaches dev = true → posts true fun t =>
         t.fab.queue = s.fab.queue ++ [frameTo s dev 0 (.post false ch n)] ∧
         { t.fab with queue := s.fab.queue } = s.fab ∧ { t with cores := s.cores, nextReq := s.nextReq, fab := s.fab } = s)))

/-- R242: BRWFREE sets stash slot ga[5:0] FREE and gives 0 if it was HELD, 1 if it was FREE, in which case nothing else changes; a non-zero
ga[63:6] traps ACCESS. As a release it waits until what it releases is performed, and the evaluation of R236 that comes next finds
the slot free. -/
def Obligations.StashSlotsAreFreed : Prop :=
  ∀ (s : State) (d a : Reg) (x : Bool), CanRead s d → CanRead s a → (s.ctx (s.ctxOf s.cur)).brewown = true → s.myCore.outstFull = false →
    let ga := s.me.readG a
    let i := ga.toNat % 64
    (64 ≤ ga.toNat → Traps (.brwfree d a x) s 7 ga) ∧
    (ga.toNat < 64 →
      (s.ordered 4 = false → Waits (.brwfree d a x) s) ∧
      (s.ordered 4 = true → (s.brew.stashAt i).held = none → Gives (.brwfree d a x) s d 1) ∧
      (s.ordered 4 = true → (s.brew.stashAt i).held ≠ none → ∃ t, exec (.brwfree d a x) s = .next t ∧ RegIs s.me t.me d 0 ∧
        SlotIs s t { atNext s.me with g := t.me.g, gt := t.me.gt } ∧ t.brew.stashAt i = { s.brew.stashAt i with held := none } ∧
        (∀ j, j ≠ i → t.brew.stashAt j = s.brew.stashAt j) ∧ { t.brew with stash := s.brew.stash } = s.brew ∧
        { t with cores := s.cores, brew := s.brew } = s))

/-! ## Control and status registers -/

/-- R83, R37, R34 and the field maps: CSRR gives a CSR's value; CSRW, CSRS and CSRC give the old value and write, where the value is one the
register takes, and else trap ILLOP; a number that is not assigned, or a write of a read-only register, traps ILLOP, and a kernel CSR traps
ACCESS on a compute core. A value of TIMECTL that names another master resets SKEW by the model's choice (log 4). -/
def Obligations.CsrsAreReadAndWritten : Prop :=
  ∀ (s : State) (d a : Reg), CanWrite s d → CanRead s a →
    let may (n : Nat) : Prop := n < 0x800 ∨ isControl s.cur.core = true
    let c (n : Nat) : BitVec 12 := BitVec.ofNat 12 n
    (∀ p ∈ csrTable, may p.1 → Gives (.csrr d (c p.1)) s d (p.2 s)) ∧
    (∀ n < 16, Gives (.csrr d (c (0x10 + n))) s d (num (s.me.counter (BitVec.ofNat 4 n)).toNat)) ∧
    (isControl s.cur.core = false → ∀ n : BitVec 12, 0x800 ≤ n.toNat → Traps (.csrr d n) s 7 (num n.toNat) ∧
      ∀ f ∈ csrForms, Traps (f.1 d a n) s 7 (num n.toNat)) ∧
    (∀ n : BitVec 12, may n.toNat → (n.toNat < 0x10 ∨ 0x20 ≤ n.toNat) → (∀ p ∈ csrTable, p.1 ≠ n.toNat) →
      Traps (.csrr d n) s 1 (syWord 0 d 0 n.toNat) ∧ ∀ f ∈ csrForms, Traps (f.1 d a n) s 1 (syWord f.2.1 d a n.toNat)) ∧
    (∀ n ∈ [0x002, 0x006, 0x007, 0x030, 0x031, 0x040, 0x090, 0x803, 0x805, 0x80C] ++ (List.range 16).map (0x10 + ·), may n → ∀ f ∈ csrForms,
      Traps (f.1 d a (c n)) s 1 (syWord f.2.1 d a n)) ∧
    ∀ f ∈ csrForms, ∀ p ∈ csrTable, may p.1 →
      let v := f.2.2 (p.2 s) (s.me.readG a)
      (∀ q ∈ csrSlotTable, q.1 = p.1 →
        (q.2.1 v = false → Traps (f.1 d a (c p.1)) s 1 (syWord f.2.1 d a p.1)) ∧
        (q.2.1 v = true → ∃ t, exec (f.1 d a (c p.1)) s = .next t ∧ RegIs s.me t.me d (p.2 s) ∧
          OnlySlot s t { atNext (q.2.2 s.me v) with g := t.me.g, gt := t.me.gt })) ∧
      (∀ q ∈ csrDeviceTable, q.1 = p.1 →
        (q.2.1 v = false → Traps (f.1 d a (c p.1)) s 1 (syWord f.2.1 d a p.1)) ∧
        (q.2.1 v = true → ∃ t, exec (f.1 d a (c p.1)) s = .next t ∧ RegIs s.me t.me d (p.2 s) ∧
          OnlySlot (q.2.2 s v) t { atNext s.me with g := t.me.g, gt := t.me.gt }))

/-- R20, R120, R250, R255 and R276: what writes of VALLOC, CHBASE, SCHEDCMD, XINV and GRANTCMD by CSRW, CSRS and CSRC do: VALLOC moves the
slot's range of vector registers, where it overlaps no other slot's (an empty range overlaps none), and those new to it read 0 and are full;
CHBASE puts the live channel table into its old area and loads it from the new one; SCHEDCMD gives the scheduler a command, or ends at once
with result 4 for reserved bits and 1 for an operation that is none, and interrupt 3 at control core 0, which is the model's reading of R249
(log 51); from a PREEMPT of a running context on, its slots are asked to halt (log 4, the model's choice); XINV drops translations once no access uses them; GRANTCMD loads or recalls
a grant entry, and is BUSY while a RECALL waits. -/
def Obligations.CommandRegistersAct : Prop :=
  ∀ (s : State) (v : Word) (d a : Reg), ∀ f ∈ csrForms, CanWrite s d → CanRead s a →
    let writes (old : Word) : Prop := v = f.2.2 old (s.me.readG a)
    let done (u : State) (old : Word) : State := u.modMe fun x => (x.writeG d old).next
    let base := v.toNat % 256
    let count := v.toNat / 256 % 256
    let own (i : Nat) : Prop := s.me.vbase ≤ i ∧ i < s.me.vbase + s.me.vcount
    let legal := base % 4 = 0 ∧ count % 4 = 0 ∧ base + count ≤ 128 ∧ base ≤ 124
    let taken := ∃ (o : Fin 4) (i : Nat), o ≠ s.cur.slot ∧ base ≤ i ∧ i < base + count ∧
      (s.myCore.slot o).vbase ≤ i ∧ i < (s.myCore.slot o).vbase + (s.myCore.slot o).vcount
    let waits := ∃ i, own i ∧ s.myCore.tagV i = .empty
    (writes (num s.me.valloc.toNat) →
      (¬legal → Traps (f.1 d a 4) s 1 (syWord f.2.1 d a 4)) ∧
      (legal → taken → Traps (f.1 d a 4) s 7 v ∧ Traps (.vallocWrite v) s 7 v) ∧
      (legal → ¬taken → waits → Waits (f.1 d a 4) s ∧ Waits (.vallocWrite v) s) ∧
      (legal → ¬taken → ¬waits → ∃ u, exec (.vallocWrite v) s = .next u ∧ exec (f.1 d a 4) s = .next (done u (num s.me.valloc.toNat)) ∧
        u.me = { s.me with valloc := BitVec.ofNat 16 v.toNat } ∧ u.cur = s.cur ∧ (∀ o, o ≠ s.cur → u.slot o = s.slot o) ∧
        (∀ i < 128, let fresh := base ≤ i ∧ i < base + count ∧ ¬own i
          (u.myCore.tagV i = if fresh then .full else s.myCore.tagV i) ∧
          u.myCore.readV i = if fresh then Vector.replicate 16 0 else s.myCore.readV i) ∧
        (∀ n, { u.core n with slots := (s.core n).slots, v := (s.core n).v, vt := (s.core n).vt } = s.core n) ∧
        (∀ n, n ≠ s.cur.core → (u.core n).v = (s.core n).v ∧ (u.core n).vt = (s.core n).vt) ∧ { u with cores := s.cores } = s)) ∧
    (let area := BitVec.ofNat 4 (v.toNat / 2 ^ 12)
     let was := num (s.myCore.svc.toNat * 2 ^ 16 + s.myCore.area.toNat * 2 ^ 12)
     let old (o : Nat) : Nat := padKey s.cur.core (s.myCore.area.toNat * 4096 + o)
     let new (o : Nat) : Nat := padKey s.cur.core (area.toNat * 4096 + o)
     let busy := ∃ o : Fin 4, o ≠ s.cur.slot ∧ (s.myCore.slot o).act ≠ none
     writes was →
     (busy → Traps (f.1 d a 0x20) s 7 v ∧ Traps (.chbaseWrite v) s 7 v) ∧
     (¬busy → Memory.wf s.mem = true → ∃ u, exec (.chbaseWrite v) s = .next u ∧ exec (f.1 d a 0x20) s = .next (done u was) ∧
       (∀ o, u.slot o = s.slot o) ∧ u.cur = s.cur ∧ u.myCore.area = area ∧
       (∀ c : BitVec 5, u.read (old (32 * c.toNat)) 8 = (s.myCore.chan c).haddr.toNat ∧ u.read (old (32 * c.toNat + 8)) 8 = (s.myCore.chan c).ctrl.toNat ∧
         u.read (old (32 * c.toNat + 16)) 8 = (s.myCore.chan c).regionWord.toNat ∧
         u.myCore.chan c = Channel.ofWords (num (u.read (new (32 * c.toNat)) 8)) (num (u.read (new (32 * c.toNat + 8)) 8))
           (num (u.read (new (32 * c.toNat + 16)) 8))) ∧
       u.read (old 0x400) 8 = s.myCore.top.toNat ∧ u.read (old 0x408) 8 = s.myCore.bottom.toNat ∧
       u.myCore.top = num (u.read (new 0x400) 8) ∧ u.myCore.bottom = num (u.read (new 0x408) 8) ∧
       (∀ k, k < old 0 ∨ old 0x410 ≤ k → u.byte k = s.byte k) ∧
       { u with cores := s.cores, mem := s.mem, poison := s.poison } = s)) ∧
    (isControl s.cur.core = true →
      (let op := v.toNat % 16
       let was := num (s.sched.busy.toNat * 2 ^ 63 + s.sched.cmdCtx.toNat * 2 ^ 8 + s.sched.result.toNat)
       let reserved := v.toNat / 16 % 16 ≠ 0 ∨ v.toNat / 2 ^ 14 ≠ 0
       let given (busy : Bool) (r : BitVec 8) : State := { s with sched := { s.sched with
         busy := busy, cmdCtx := BitVec.ofNat 6 (v.toNat / 2 ^ 8), cmd := BitVec.ofNat 4 v.toNat, result := r } }
       let asked (u : State) : State := if op = 3 ∧ (s.ctx (v.toNat / 2 ^ 8 % 64)).st = .running then
         u.modCtx (v.toNat / 2 ^ 8 % 64) fun c => { c with haltAt := s.time } else u
       let ends (r : BitVec 8) : Prop := exec (f.1 d a 0x80B) s =
         .next (done ((given false r).interrupt 0 3 (num (v.toNat / 2 ^ 8 % 64 * 2 ^ 8 + r.toNat))) was)
       writes was →
       (s.sched.busy = true → Waits (f.1 d a 0x80B) s) ∧
       (s.sched.busy = false → ¬reserved → 1 ≤ op → op ≤ 4 → exec (f.1 d a 0x80B) s = .next (done (asked (given true s.sched.result)) was)) ∧
       (s.sched.busy = false → ¬reserved → op < 1 ∨ 4 < op → ends 1) ∧ (s.sched.busy = false → reserved → ends 4)) ∧
      (let ctx := v.toNat % 64
       let size := [2 ^ 16, 2 ^ 21, 2 ^ 30, 2 ^ 55].getD (v.toNat / 2 ^ 14 % 4) 0
       let from_ := v.toNat / 2 ^ 16 % 2 ^ 39 * 2 ^ 16 / size * size
       writes s.me.xinv →
       (s.xinvBusy v = true → Waits (f.1 d a 0x80D) s) ∧
       (s.xinvBusy v = false → ∃ u, exec (.xinv v) s = .next u ∧ exec (f.1 d a 0x80D) s = .next (done u s.me.xinv) ∧
         u.xlats = s.xlats.filter (fun t => ¬(t.ctx = ctx ∧ from_ < t.va + t.size ∧ t.va < from_ + size)) ∧
         SlotIs s u { s.me with xinv := num (v.toNat / 2 ^ 14 % 2 ^ 41 * 2 ^ 14 + ctx) } ∧
         { u with cores := s.cores, xlats := s.xlats, repair := s.repair } = s ∧ { u.repair with lostMaps := s.repair.lostMaps } = s.repair)) ∧
      (let idx := BitVec.ofNat 8 v.toNat
       let k := s.fab.grantbase.toNat + 32 * idx.toNat
       let w := s.read k 8
       let op := v.toNat / 2 ^ 8 % 4
       let s' := { s with fab := { s.fab with grantcmd := num (v.toNat % 2 ^ 10) } }
       (∀ o old, s.fab.grantRun = some (o, old) → o ≠ s.cur → writes s.fab.grantcmd → Waits (f.1 d a 0x811) s) ∧
       (s.fab.grantRun = none → writes s.fab.grantcmd →
         (op = 0 → ∃ u, exec (.grantLoad idx) s' = .next u ∧ exec (f.1 d a 0x811) s = .next (done u s.fab.grantcmd)) ∧
         (op = 1 → s.grantBusy idx.toNat = false → ∃ u, exec (.recall idx) s' = .next u ∧ exec (f.1 d a 0x811) s = .next (done u s.fab.grantcmd)) ∧
         (op = 1 → s.grantBusy idx.toNat = true → ∃ u, exec (.recall idx) s = .next u ∧
           exec (f.1 d a 0x811) s = .next ({ u with fab := { u.fab with
             grantcmd := num (2 ^ 63 + v.toNat % 2 ^ 10), grantRun := some (s.cur, s.fab.grantcmd) } }.modMe fun x => { x with wait := .retry })) ∧
         (2 ≤ op → Traps (f.1 d a 0x811) s 1 (syWord f.2.1 d a 0x811))) ∧
       (∀ old, s.fab.grantRun = some (s.cur, old) → writes old →
         let runs := BitVec.ofNat 8 s.fab.grantcmd.toNat
         (s.grantBusy runs.toNat = true → Waits (f.1 d a 0x811) s) ∧
         (s.grantBusy runs.toNat = false → v.toNat % 2 ^ 10 = s.fab.grantcmd.toNat % 2 ^ 10 → ∃ u, exec (.recall runs) s = .next u ∧
           exec (f.1 d a 0x811) s = .next (done { u with fab := { u.fab with
             grantcmd := num (s.fab.grantcmd.toNat % 2 ^ 10), grantRun := none } } old))) ∧
       (w / 2 ^ 63 % 2 = 1 → ∃ u, exec (.grantLoad idx) s = .next u ∧
          mfind u.fab.grants idx.toNat = some { recalled := false, msg := w.testBit 62, brew := w.testBit 61, w := w.testBit 60, r := w.testBit 59,
                                                gdev := BitVec.ofNat 15 (w / 2 ^ 32), ctx := BitVec.ofNat 6 w, wlo := s.read (k + 8) 8 % 2 ^ 40,
                                                whi := s.read (k + 16) 8 % 2 ^ 40, vabase := s.read (k + 24) 8 % 2 ^ 55 } ∧
          (∀ j, j ≠ idx.toNat → mfind u.fab.grants j = mfind s.fab.grants j) ∧
          { u with fab := s.fab } = s ∧ { u.fab with grants := s.fab.grants } = s.fab) ∧
       (w / 2 ^ 63 % 2 = 0 ∨ s.grantBusy idx.toNat = false →
          ∃ u, exec (if w / 2 ^ 63 % 2 = 0 then .grantLoad idx else .recall idx) s = .next u ∧
            u = { s with fab := { s.fab with grants := mdel s.fab.grants idx.toNat } })))

namespace Sys2Proof.Claims

/-! ## Traps -/

/-- Doubleword n of a fibre record that lies at l. -/
def recordWord (s : State) (l : Loc) (n : Nat) : Nat := leNat (s.bytes ((l.keys.drop (8 * n)).take 8))

/-- R85: a slot after its trap has been delivered to its upcall handler. -/
def upcalled (x : Slot) (pc : Word) (cause : BitVec 8) (tval : Word) : Slot :=
  { x with tpc := pc, tcause := cause, tval := tval, parked := [], upvec := num (x.upvec.toNat / 2 * 2), pc := num (x.upvec.toNat / 4 * 4),
           trap := none, wait := .ready, region := none, reqs := x.reqs.map fun r => { r with region := false } }

/-- R249: a control core after a trap or an interrupt. -/
def kernelEntered (x : Slot) (cause tval : Word) : Slot :=
  { x with ktpc := x.pc, kcause := cause, ktval := tval, kvec := num (x.kvec.toNat / 2 * 2), pc := num (x.kvec.toNat / 4 * 4),
           trap := none, wait := .ready }

/-- Of the cores only slot sl changed, and it is now x. -/
def OneSlot (s t : State) (sl : SlotId) (x : Slot) : Prop :=
  t.slot sl = x ∧ t.cur = s.cur ∧ (∀ o, o ≠ sl → t.slot o = s.slot o) ∧ ∀ n, { t.core n with slots := (s.core n).slots } = s.core n

/-- The 64-bit numbers of the header of the fibre record (R86). -/
def recordHead (x : Slot) (pc : Word) (cause : BitVec 8) (tval : Word) : List Nat :=
  [pc.toNat, cause.toNat, tval.toNat, x.fstat.toNat, (int x.vi.toInt).toNat,
   ((List.range 32).map fun r => (match x.tagG (BitVec.ofNat 5 r) with | .full => 0 | .empty => 1 | .poisoned _ _ => 2) * 4 ^ r).sum, 0, 0] ++
  (List.range 32).map (fun r => match x.tagG (BitVec.ofNat 5 r) with | .poisoned _ v => v.toNat | _ => (x.readG (BitVec.ofNat 5 r)).toNat)

end Sys2Proof.Claims

/-! ## Taking a trap and returning -/

/-- R85, R86 and R249: a trap with UE = 1 that is ready writes the fibre record where UPSAVE says, saves pc, cause and value, takes the parked
accesses out of the core, clears UE and goes to the handler; registers stay. While a producer of the slot is pending it is held back (R85). That
it is held back also for an ST of the activation whose translation answer is out, and for a store of the slot over the record's bytes, is the
model's choice (log 18): trapReady says when neither is. A trap of a control core with IE = 1 saves pc, cause and value, clears IE and goes to the
kernel's handler. -/
def Sys2Proof.Claims.TakingATrapSavesAndGoesToTheHandler : Prop :=
  ∀ (s : State) (sl : SlotId) (cause : BitVec 8) (tval va : Word),
    let x := s.slot sl
    let t := s.takeTrapAt sl cause tval va
    (isControl sl.core = true → x.kvec.getLsbD 0 = true →
      OneSlot s t sl (kernelEntered x (num cause.toNat) tval) ∧ { t with cores := s.cores } = s) ∧
    (isControl sl.core = false → x.upvec.getLsbD 0 = true → x.settled = false ∨ s.trapReady sl = false →
      OneSlot s t sl { x with trap := some ⟨cause, tval, x.pc, va⟩, wait := .ready } ∧ { t with cores := s.cores } = s) ∧
    (isControl sl.core = false → x.upvec.getLsbD 0 = true → s.trapReady sl = true → ∀ l, s.recordLoc sl permW = .ok l → l.keys.Nodup →
      Memory.wf s.mem = true →
      t.slot sl = upcalled x x.pc cause tval ∧ (∀ o, o ≠ sl → t.slot o = s.slot o) ∧
      (∀ n v, (recordHead x x.pc cause tval)[n]? = some v → recordWord t l n = v) ∧ recordWord t l 44 = min x.parked.length 64 ∧
      (∀ i < min x.parked.length 64, ∀ p, x.parked[i]? = some p →
        recordWord t l (48 + 3 * i) = p.ptr.toNat ∧ recordWord t l (49 + 3 * i) = p.data.toNat) ∧
      (∀ k, k ∉ l.keys → t.byte k = s.byte k) ∧ (∀ w, t.tagFull w = s.tagFull w) ∧
      (∀ n, { t.core n with slots := (s.core n).slots, dcache := (s.core n).dcache } = s.core n) ∧
      { t with cores := s.cores, mem := s.mem, poison := s.poison } = s)

/-- R85, R258, R259 and R249: a trap with UE = 0, or whose record cannot be written, halts its slot and gives a fault record of source 1 with the
faulting virtual address, if it has one; the record deschedules the context. A trap of a control core with IE = 0 stops the core, all its slots,
and is written to the error log. -/
def Sys2Proof.Claims.UndeliverableTrapsStopTheSlot : Prop :=
  ∀ (s : State) (sl : SlotId) (cause : BitVec 8) (tval va : Word),
    let x := s.slot sl
    let t := s.takeTrapAt sl cause tval va
    (isControl sl.core = false →
      (x.upvec.getLsbD 0 = false ∨ (s.trapReady sl = true ∧ ∃ c, s.recordLoc sl permW = .error c)) →
      let h := s.modSlot sl fun y => { y with trap := none, wait := .halted }
      t = h.queueFault (s.ctxOf sl)
        { cause := cause, source := 1, tval := tval, slotid := s.slotid sl, launchid := s.launchidOf sl, extra := 0, va := va } ∧
      (s.waiters = [] → (t.slot sl).wait = .halted) ∧
      ((s.ctx (s.ctxOf sl)).st = .running → (t.ctx (s.ctxOf sl)).st = .saving ∧ (t.ctx (s.ctxOf sl)).after = .stopped) ∧
      ((s.ctx (s.ctxOf sl)).st ≠ .running → (t.ctx (s.ctxOf sl)).st = (s.ctx (s.ctxOf sl)).st)) ∧
    (isControl sl.core = true → x.kvec.getLsbD 0 = false →
      (∀ o : SlotId, o.core = sl.core → t.slot o = { s.slot o with trap := none, wait := .stopped }) ∧
      t = (s.modCore sl.core fun c => { c with slots := c.slots.map fun y => { y with trap := none, wait := .stopped } }).logRecord
        10 14 cause.toNat none (coordOf sl.core) 0 0 (s.eventsIn (.controlCore (sl.core - 102400))))

/-- R34, R89, R85, R87, R195 and R249: what raises a trap: a word that is no instruction, a breakpoint, a trap that was held back until its slot
settled (log 18), the parked accesses and the jobs' reports at an instruction boundary, oldest first, and an interrupt of a control core. That the
boundary of a slot in WFE is before the WFE, whose address TPC takes, is the model's choice (log 78). -/
def Sys2Proof.Claims.TrapEventsAreDelivered : Prop :=
  ∀ (s : State) (sl : SlotId),
    let x := s.slot sl
    (∀ w : BitVec 32, Traps (.illop w) s 1 (num w.toNat)) ∧
    (∀ c : BitVec 11, Traps (.brkpt c) s 13 (num (0x800 + c.toNat))) ∧
    (∀ t, x.trap = some t → isControl sl.core = true → exec (.upcall sl) s = .next (s.kernelTrap sl t)) ∧
    (∀ t, x.trap = some t → s.trapReady sl = true → isControl sl.core = false → exec (.upcall sl) s = .next (s.deliver sl t)) ∧
    (∀ t, x.trap = some t → s.trapReady sl = true → isControl sl.core = false → x.upvec.getLsbD 0 = true → ∀ l, s.recordLoc sl permW = .ok l →
      ∃ u, exec (.upcall sl) s = .next u ∧ u.slot sl = upcalled x t.pc t.cause t.tval) ∧
    (∀ p rest, x.parked = p :: rest → p.kind ≠ 3 → x.atBoundary = true → x.trap = none → x.act ≠ none → x.engFirst = false →
      exec (.deferredUpcall sl) s = .next
        (s.takeTrapAt sl p.cause (if p.cause = 12 then num (p.ea.toNat % 2 ^ 56 / 64 * 64) else p.ea) p.ea)) ∧
    (∀ v rest, x.events = v :: rest → x.atBoundary = true → x.trap = none → isControl sl.core = false → x.act ≠ none →
      x.upvec.getLsbD 0 = true → x.engFirst = true →
      exec (.engfault sl) s = .next ((s.modSlot sl fun y => { y with events := rest }).takeTrap sl 11 v.2)) ∧
    (∀ i, isControl sl.core = true → x.kvec.getLsbD 0 = true → x.atBoundary = true → x.trap = none →
      s.sched.ints.find? (fun j => j.1 = sl.core - 102400) = some i → ∃ t, exec (.interrupt sl) s = .next t ∧
        OneSlot s t sl (kernelEntered x (num (2 ^ 63 + i.2.1.toNat)) i.2.2) ∧
        { t with cores := s.cores, sched := s.sched } = s ∧ t.sched = { s.sched with ints := s.sched.ints.erase i })

/-- R88 and R249: UPRET loads g1 to g31 with their tags, FSTAT and VI from the record UPSAVE names, issues its replay entries again, those to a peer
as frames to it, sets UE and goes on at TPC; that it checks no pointer of an entry is the model's choice (log 72). It waits for producers, and a record it may not load traps ILLOP. ERET goes to KTPC and sets IE; on a compute core it traps ACCESS. -/
def Sys2Proof.Claims.ReturnsRestore : Prop :=
  ∀ (s : State),
    (s.me.settled = false → Waits .upret s) ∧
    (∀ l, s.me.settled = true → s.recordLoc s.cur permR = .ok l → s.me.waitsFor (s.me.upsave.toNat % 2 ^ 56) 1920 = false →
      s.me.parkedOver (s.me.upsave.toNat % 2 ^ 56) 1920 = false → s.isPoisoned l.keys = false →
      let bs := s.seen s.cur.core l.keys
      let at_ (i : Nat) : Nat := leNat ((bs.drop (8 * i)).take 8)
      let n := at_ 44
      let reqs := (List.range n).map fun i => s.replayReq (s.nextReq + i) (replayAt bs i)
      let ea (i : Nat) : Nat := at_ (48 + 3 * i) % 2 ^ 56
      let dev (i : Nat) : Nat := ea i / 2 ^ 40 % 2 ^ 15
      let away := (List.range n).filter fun i => 2 ^ 55 ≤ ea i ∧ dev i ≠ s.fab.devno.toNat
      let asks (i : Nat) : PeerOp :=
        let size := 2 ^ (at_ (50 + 3 * i) / 2 ^ 12 % 4)
        if at_ (50 + 3 * i) % 256 = 1 then .read (ea i % 2 ^ 40) size else .write (ea i % 2 ^ 40) (toBytes size (at_ (49 + 3 * i)))
      (recordOk bs = false → Traps .upret s 1 0x9C000006) ∧
      (recordOk bs = true → (s.myCore.outst + n ≤ s.myCore.limit.toNat ∨ (s.myCore.limit.toNat < n ∧ s.myCore.outst = 0)) →
        (∀ i ∈ away, s.fab.reaches (dev i) = true) → ∃ t, exec .upret s = .next t ∧
          (∀ r : Reg, r ≠ 0 → t.me.readG r = num (at_ (8 + r.toNat)) ∧ t.me.tagG r = recTagOf bs r.toNat) ∧
          SlotIs s t { s.me with g := t.me.g, gt := t.me.gt, fstat := BitVec.ofNat 10 (at_ 3), vi := BitVec.ofNat 8 (at_ 4),
                                 reqs := s.me.reqs ++ reqs,
                                 upvec := num (s.me.upvec.toNat / 2 * 2 + 1), pc := s.me.tpc, wait := .ready } ∧
          t.nextReq = s.nextReq + n ∧
          t.fab.queue = s.fab.queue ++ away.map (fun i => { frameTo s (dev i) 0 (.access (asks i)) with req := s.nextReq + i }) ∧
          { t.fab with queue := s.fab.queue } = s.fab ∧ { t with cores := s.cores, nextReq := s.nextReq, fab := s.fab } = s)) ∧
    (isControl s.cur.core = false → Traps .eret s 7 0x9C000005) ∧
    (isControl s.cur.core = true → s.me.ktpc.toNat % 4 = 0 →
      Makes .eret s { s.me with pc := s.me.ktpc, kvec := num (s.me.kvec.toNat / 2 * 2 + 1), wait := .ready })

/-- R89, R256, R90, R91 and R207: TRAP with a code below 0x800 posts a service request once what it releases is performed, and gives 1 where the
queue has no room, or a header that holds uncorrectable data (log 27, the model's choice); WFE waits, and gives 1 once TIME has reached its limit, else 0; ROUTLD checks an image and installs it, or gives its code. -/
def Sys2Proof.Claims.ServicesWaitsAndRoutineLoads : Prop :=
  ∀ (s : State) (d a : Reg) (c : BitVec 11) (idx : BitVec 8), CanRead s a → CanWrite s d →
    let ga := s.me.readG a
    let n := s.ctxOf s.cur
    let k := s.ctx n
    let base := k.sqbase.toNat % 2 ^ 56
    (s.ordered 4 = false → Waits (.trap d a c) s) ∧
    (s.ordered 4 = true →
      ((∃ h, s.queueLoc n base 64 = some h ∧ ∀ l, s.queueLoc n (base + 64 + 32 * (leNat (s.bytes (h.take 8)) % 2 ^ k.sqlog)) 32 = some l →
          (s.isPoisoned (h.take 16) = true ∨ (wordsOf (l.take 8)).any s.tagFull = true)) ∨ s.queueLoc n base 64 = none → Gives (.trap d a c) s d 1) ∧
      (∀ h l, s.queueLoc n base 64 = some h →
        s.queueLoc n (base + 64 + 32 * (leNat (s.bytes (h.take 8)) % 2 ^ k.sqlog)) 32 = some l → (wordsOf (l.take 8)).any s.tagFull = false →
        s.isPoisoned (h.take 16) = false → (h ++ l).Nodup → Memory.wf s.mem = true → mwf true s.tags = true → s.waiters = [] →
        ∃ t, exec (.trap d a c) s = .next t ∧ RegIs s.me t.me d 0 ∧ SlotIs s t { atNext s.me with g := t.me.g, gt := t.me.gt } ∧
          wordAt t l 0 = num c.toNat ∧ wordAt t l 1 = ga ∧ wordAt t l 2 = s.slotid s.cur ∧ wordAt t l 3 = s.me.pc ∧
          wordAt t h 0 = num (leNat (s.bytes (h.take 8)) + 1) ∧ (∀ w ∈ wordsOf (l.take 8), t.tagFull w = true) ∧
          (∀ b, b ∉ l → b ∉ h.take 8 → t.byte b = s.byte b) ∧ t.sched.ints = s.sched.ints ++ [(s.routeInt (n % 16), 2, num n)])) ∧
    ((∃ b, s.me.wait = .wfe b) → Gives (.wfe d a) s d 0) ∧
    ((∀ b, s.me.wait ≠ .wfe b) →
      (ga ≠ 0 → ga.toNat ≤ s.time → Gives (.wfe d a) s d 1) ∧
      (ga = 0 ∨ s.time < ga.toNat → Makes (.wfe d a) s { s.me with wait := .wfe false, wfeReg := d, wfeLimit := ga })) ∧
    (isControl s.cur.core = false → ∀ w, encode (.routld d a idx) = some w → Traps (.routld d a idx) s 7 (num w.toNat)) ∧
    (isControl s.cur.core = true → GoodPointer ga → fmtOf ga = 0 → ga.toNat % 8 = 0 → ¬Own s ga → s.me.acquiring = false →
      s.me.waitsFor (ga.toNat % 2 ^ 56) 264 = false → ∀ l, s.resolve (s.agent s.cur) (ga.toNat % 2 ^ 56) 8 permR = .ok l →
      s.isPoisoned l.keys = false →
      let h := leNat (s.bytes l.keys)
      let head := routldHead idx.toNat h
      let gives (v : Nat) (holds : State → Prop) : Prop := ∃ t, exec (.routld d a idx) s = .next t ∧ RegIs s.me t.me d (num v) ∧
        CarafeStep s t { atNext s.me with g := t.me.g, gt := t.me.gt } ∧ t.ctxs = s.ctxs ∧ holds t
      (head ≠ 0 → gives head fun t => t.carafe = s.carafe) ∧
      ∀ l', head = 0 → s.resolve (s.agent s.cur) (ga.toNat % 2 ^ 56 + 8) (4 * (h % 128)) permR = .ok l' → s.isPoisoned l'.keys = false →
        let ws := (List.range (h % 128)).map fun i => BitVec.ofNat 32 (leNat (s.bytes ((l'.keys.drop (4 * i)).take 4)))
        (routldCode h ws ≠ 0 → gives (routldCode h ws) fun t => t.carafe = s.carafe) ∧
        (routldCode h ws = 0 → gives 0 fun t =>
          (∀ e, mfind t.carafe.routines e = if e = idx.toNat ∧ h.testBit 11 = false then some (num h, ws) else mfind s.carafe.routines e) ∧
          (∀ e, mfind t.carafe.micro e = if e = idx.toNat ∧ h.testBit 11 = true then some (num h, ws) else mfind s.carafe.micro e) ∧
          { t.carafe with routines := s.carafe.routines, micro := s.carafe.micro } = s.carafe))

namespace Sys2Proof.Claims

/-! ## Requests and waits of a slot -/

/-- A slot without one request, woken when it waits in WFE (R90). -/
def without (x : Slot) (n : Nat) : Slot :=
  { x with reqs := x.reqs.filter (fun r => r.num ≠ n), wait := if x.wait = .wfe false then .wfe true else x.wait }

/-- In slot y, register d is poisoned with a cause and value, every other tag is as in x, and values stay (R14, R15). -/
def Poisons (x y : Slot) (d : Reg) (cause : BitVec 8) (tval : Word) : Prop :=
  y.g = x.g ∧ ∀ r, y.tagG r = if r = d ∧ d ≠ 0 then .poisoned cause tval else x.tagG r

/-- Slot sl is now x; beside it changed at most the data cache of its core, cached translations, the lines of the Crema, memory with its tags
and poison, the counter of free values, and the older values that fetch and a walk may still see, new ones before the others. -/
def SlotStep (s t : State) (sl : SlotId) (x : Slot) : Prop :=
  t.slot sl = x ∧ t.cur = s.cur ∧ (∀ o, o ≠ sl → t.slot o = s.slot o) ∧
    (∀ n, { t.core n with slots := (s.core n).slots, dcache := (s.core n).dcache } = s.core n) ∧
    (∃ new, t.past = new ++ s.past) ∧
    { t with cores := s.cores, xlats := s.xlats, crema := s.crema, fresh := s.fresh, mem := s.mem, tags := s.tags, poison := s.poison,
             past := s.past } = s

/-- A local access of n bytes at ea that request r of slot sl makes may touch memory at l now (R78); no near-bank unit at work holds it up
(R218). -/
def Ready (s : State) (sl : SlotId) (r : Req) (ea n : Nat) (perm : Perm) (l : Loc) : Prop :=
  s.resolve (r.agent sl) ea n perm = .ok l ∧ (s.slot sl).clear r.num ea n = true ∧ (l.ms = true → s.unitAt l.bank = none)

/-- The translation of an access faults with cause c; or, by the model's reading of the caption of R257 (log 77), it misses a valid entry whose
store no fence has put before it. -/
def Misses (s : State) (sl : SlotId) (r : Req) (ea n : Nat) (perm : Perm) (c : BitVec 8) : Prop :=
  s.resolve (r.agent sl) ea n perm = .error c ∨
    (c = 6 ∧ (∃ l, s.resolve (r.agent sl) ea n perm = .ok l) ∧ s.unseen.resolve (r.agent sl) ea n perm = .error 6 ∧
      (s.slot sl).parkedOver ea n = false)

/-- Two lists of keys share a word. -/
def ShareWord (a b : List Nat) : Prop := ∃ k ∈ a, ∃ q ∈ b, q / 4 = k / 4

/-- The requests of a slot but one. -/
def others (x : Slot) (n : Nat) : List Req := x.reqs.filter fun r => r.num ≠ n

/-- R203: alignment and effect of the built-in routines 0 to 15: bytes, new value from old, b and o, reply from old. -/
def routineTable : List (Nat × Nat × (Nat → Nat → Nat → Nat) × (Nat → Word)) :=
  let w (n : Nat) : Word32 := BitVec.ofNat 32 n
  let sum (a b : Nat) : Nat := (fAdd 0 0 (w a) (w b)).1.toNat
  let sext (n : Nat) : Word := int (w n).toInt
  [(0, 4, fun old b _ => (old + b) % 2 ^ 32, sext), (1, 8, fun old b _ => (old + b) % 2 ^ 64, num),
   (2, 8, fun old b _ => old &&& b, num), (3, 8, fun old b _ => old ||| b, num), (4, 8, fun old b _ => old ^^^ b, num),
   (5, 4, fun old b _ => (w (int (min (w old).toInt (w b).toInt)).toNat).toNat, sext),
   (6, 4, fun old b _ => (w (int (max (w old).toInt (w b).toInt)).toNat).toNat, sext),
   (7, 8, fun old b _ => min old b, num), (8, 8, fun old b _ => max old b, num), (9, 8, fun _ b _ => b, num),
   (10, 8, fun old b o => if old = o then b else old, num), (11, 4, fun old b _ => sum old b, num),
   (12, 4, fun old b _ => (extreme32 false (w old) (w b)).toNat, num),
   (13, 8, fun old b _ => ((List.range 4).map fun l => bf16Add (old / 2 ^ (16 * l) % 2 ^ 16) (b / 2 ^ (16 * l) % 2 ^ 16) * 2 ^ (16 * l)).sum, num),
   (14, 8, fun old b _ => sum old b + 2 ^ 32 * sum (old / 2 ^ 32) (b / 2 ^ 32), num),
   (15, 8, fun old b _ => if old / 2 ^ 32 = 0 then old else sum old b + (old / 2 ^ 32 - 1) * 2 ^ 32, num)]

end Sys2Proof.Claims

/-! ## Requests and waits of a slot -/

/-- R17, R90 and R283: a blocked slot may try its instruction again; a WFE that no event has ended and whose limit TIME has reached ends with 1; a
region with a failure, at an instruction boundary once nothing of it and no producer of the slot is in flight, or once TLIM has passed (which
gives up the producers that are left: log 35, the model's choice, and lets what is left of the region report no failure any more), gives its code in the gd of its RBEGIN, with the registers of its checkpoint,
and goes on at rpc. -/
def Sys2Proof.Claims.WaitingSlotsGoOn : Prop :=
  ∀ (s : State) (sl : SlotId),
    let x := s.slot sl
    (x.wait = .retry → ∃ t, exec (.issueRetry sl) s = .next t ∧ OneSlot { s with cur := sl } t sl { x with wait := .ready } ∧
      { t with cores := s.cores, cur := s.cur } = s) ∧
    (x.wait = .wfe false → x.wfeLimit ≠ 0 → x.wfeLimit.toNat ≤ s.time →
      ∃ t, exec (.wfeTimeout sl) s = .next t ∧ RegIs x (t.slot sl) x.wfeReg 1 ∧
        OneSlot s t sl { atNext x with g := (t.slot sl).g, gt := (t.slot sl).gt } ∧ { t with cores := s.cores } = s) ∧
    (x.wait = .wfe true → exec (.wfeTimeout sl) s = .next s) ∧
    (∀ g code since, x.region = some g → g.failed = some (code, since) → x.atBoundary = true → (s.ctx (s.ctxOf sl)).st ≠ .saving →
      ((∀ r ∈ x.reqs, r.region = false) → x.settled = true →
        ∃ t, exec (.rollback sl) s = .next t ∧ RegIs { x with g := g.regs, gt := g.tags } (t.slot sl) g.rd (num code.toNat) ∧
          OneSlot s t sl { x with g := (t.slot sl).g, gt := (t.slot sl).gt, pc := g.rpc, region := none, wait := .ready } ∧
          { t with cores := s.cores } = s) ∧
      (since + s.fab.tlim ≤ s.time → ∃ t, exec (.rollback sl) s = .next t ∧
        RegIs { x with g := g.regs, gt := g.tags } (t.slot sl) g.rd (num code.toNat) ∧ (t.slot sl).pc = g.rpc ∧ (t.slot sl).region = none ∧
        (t.slot sl).settled = true ∧ (∀ q ∈ (t.slot sl).reqs, q.region = false) ∧
        ∀ q ∈ x.reqs, q.region = true → q.producer = false → { q with region := false, quiet := true } ∈ (t.slot sl).reqs))

/-- R15, R73, R75 and R108: a value that lands fills its register and ends its request: a captured engine word, the bytes of an LDN, extended; an
LDN that meets uncorrectable data poisons its register; the last lane of a vector load makes its register full, or, when lanes failed, poisons it
with the cause and value of the lowest of them. -/
def Sys2Proof.Claims.ProducersLand : Prop :=
  ∀ (s : State) (sl : SlotId) (n : Nat) (r : Req) (rd : Reg), (s.slot sl).req n = some r →
    let x := s.slot sl
    (∀ v, r.kind = .eng rd v → ∃ t, exec (.producerLands sl n) s = .next t ∧ RegIs x (t.slot sl) rd v ∧
      OneSlot s t sl { without x n with g := (t.slot sl).g, gt := (t.slot sl).gt } ∧ { t with cores := s.cores } = s) ∧
    (∀ z p ea, r.kind = .ldn rd z p ea → r.peer = false →
      (∀ l, Ready s sl r ea.toNat (bytesOf z) permR l → ¬MeetsPoison s sl.core ea.toNat l → ∃ t, exec (.producerLands sl n) s = .next t ∧
        RegIs x (t.slot sl) rd (loaded z (s.loadBytes sl.core ea.toNat l)) ∧ SameMemory s t ∧
        SlotStep s t sl { without x n with g := (t.slot sl).g, gt := (t.slot sl).gt }) ∧
      (∀ l, Ready s sl r ea.toNat (bytesOf z) permR l → MeetsPoison s sl.core ea.toNat l → ∃ t, exec (.producerLands sl n) s = .next t ∧ Poisons x (t.slot sl) rd 12 (num (ea.toNat % 2 ^ 56 / 64 * 64)) ∧
          OneSlot s t sl { without x n with gt := (t.slot sl).gt } ∧ { t with cores := s.cores } = s)) ∧
    (∀ v fmt i ea l bad, r.kind = .vld v 4 fmt [(i, ea)] bad → v < 128 → i < 16 → ea.toNat < 2 ^ 55 → Ready s sl r ea.toNat 4 permR l →
      ¬MeetsPoison s sl.core ea.toNat l → ∃ t, exec (.producerLands sl n) s = .next t ∧
        (bad = [] → (t.core sl.core).tagV v = .full) ∧
        (∀ k c tv, (k, c, tv) ∈ bad → (∀ q ∈ bad, q = (k, c, tv) ∨ k < q.1) → (t.core sl.core).tagV v = .poisoned c tv) ∧
        t.slot sl = without x n ∧ (∀ o, o ≠ sl → t.slot o = s.slot o) ∧
        (∀ j, j < 16 → lane ((t.core sl.core).readV v) j =
          if j = i then BitVec.ofNat 32 (leNat (s.loadBytes sl.core ea.toNat l)) else lane ((s.core sl.core).readV v) j) ∧
        (∀ k, k ≠ v → (t.core sl.core).readV k = (s.core sl.core).readV k ∧ (t.core sl.core).tagV k = (s.core sl.core).tagV k) ∧ SameMemory s t)

/-- R76, R77, R78, R109, R152 and R154: a posted store waits while an earlier access of its slot that it overlaps is not performed, and while a store
that the slices hold stands before it: of its own die over one of its words, or of another die over a word that either covers in part. One that
its die's slices do not take is performed at its point of coherence: its bytes are in memory, tags stay and every other byte keeps its value, and
its request ends. One that they take is seen by the cores of its die alone, and memory stays as it is, until a later step of its request puts it to
memory, behind what its die forwarded before over its words; the request ends with the last that the slices hold of it. -/
def Sys2Proof.Claims.PostedStoresArePerformed : Prop :=
  ∀ (s : State) (sl : SlotId) (n : Nat) (r : Req), (s.slot sl).req n = some r → Memory.wf s.mem = true →
    let x := s.slot sl
    let mine (e : SliceStore) : Prop := e.job = none ∧ e.sl = sl ∧ e.req = n
    let ownDie (e : SliceStore) : Prop := dieOf e.sl.core = dieOf sl.core
    let waits : Prop := exec (.requestComplete sl n) s = .next s
    let emptied : Slot := { x with reqs := x.reqs.map fun q => if q.num = n then { q with kind := .vst [] } else q }
    (∀ (ea : Nat) (bs : List Byte) (l : Loc),
      ((∃ z p a data, r.kind = .st z p a data ∧ a.toNat = ea ∧ bs = toBytes (bytesOf z) data.toNat) ∨
        ∃ i a, r.kind = .vst [(i, a, bs)] ∧ a.toNat = ea) →
      bs ≠ [] → ea < 2 ^ 55 → (∀ e ∈ s.slices, ¬mine e) →
      ((∃ q ∈ x.reqs, q.num < r.num ∧ ∃ p ∈ q.kind.spans, ea < p.1 + p.2 ∧ p.1 < ea + bs.length) → waits) ∧
      (Ready s sl r ea bs.length permW l → s.isPoisoned l.keys = false → l.keys.Nodup → l.keys.length = bs.length →
        (s.forwards sl.core l = false → (∃ e ∈ s.slices, ownDie e ∧ ShareWord e.keys l.keys) → waits) ∧
        (s.forwards sl.core l = true → s.sliceClash sl.core l.keys = true → waits) ∧
        (s.forwards sl.core l = false → s.sliceOver sl.core l.keys = false → ∃ t, exec (.requestComplete sl n) s = .next t ∧
          Stored s t l (leNat bs) ∧ (∀ w, t.tagFull w = s.tagFull w) ∧ SlotStep s t sl { x with reqs := others x n }) ∧
        (s.forwards sl.core l = true → s.sliceClash sl.core l.keys = false → ∃ t, exec (.requestComplete sl n) s = .next t ∧
          t.slices = s.slices ++ [⟨s.nextReq, sl, n, r.ctxid.toNat % 64, ea, l.keys, bs, none, []⟩] ∧
          (∀ c, dieOf c = dieOf sl.core → t.seen c l.keys = bs) ∧ (∀ c keys, dieOf c ≠ dieOf sl.core → t.seen c keys = s.seen c keys) ∧
          t.slot sl = emptied ∧ SlotStep { s with slices := t.slices, nextReq := s.nextReq + 1 } t sl emptied ∧ t.mem = s.mem))) ∧
    (r.kind = .vst [] →
      ((∀ before e after, s.slices = before ++ e :: after → mine e → ∃ b ∈ before, ownDie b ∧ ShareWord b.keys e.keys) → waits) ∧
      ∀ before e after, s.slices = before ++ e :: after → mine e → e.full = [] → (∀ b ∈ before, ¬mine b) →
        (∀ b ∈ before, ownDie b → ¬ShareWord b.keys e.keys) → s.canMerge e.keys = true → e.keys.Nodup → e.keys.length = e.bytes.length →
        s.waiters = [] →
        ∃ t, exec (.requestComplete sl n) s = .next t ∧ Stored s t ⟨e.keys, false, false, false⟩ (leNat e.bytes) ∧
          (∀ w, t.tagFull w = s.tagFull w) ∧ t.slices = before ++ after ∧
          SlotStep { s with slices := before ++ after } t sl (if ∃ b ∈ after, mine b then emptied else { x with reqs := others x n }))

/-- R75, R76, R78 and R329: an LDN or ST of a running activation of a compute core whose translation faults while UE = 1 leaves the requests and
parks, in program order; an earlier access of the slot that is to park goes first. With UE = 0, or once its activation has ended, an LDN poisons
its register and an ST writes nothing, and each gives a fault record. -/
def Sys2Proof.Claims.FaultingAccessesPark : Prop :=
  ∀ (s : State) (sl : SlotId) (n : Nat) (r : Req) (c : BitVec 8), (s.slot sl).req n = some r → r.num = n → r.peer = false →
    let x := s.slot sl
    let tval (ea : Word) : Word := if c = 12 then num (ea.toNat % 2 ^ 56 / 64 * 64) else num ea.toNat
    let placed (e : Replay) : List Replay := x.parked.takeWhile (fun q => q.num ≤ n) ++ [e] ++ x.parked.dropWhile (fun q => q.num ≤ n)
    let parks (e : Replay) : Prop := ∃ t, exec (.parkedAccess sl n) s = .next t ∧
      OneSlot s t sl { x with reqs := others x n, parked := placed e } ∧
      { t with cores := s.cores, nextReq := s.nextReq } = s ∧ t.nextReq = s.nextReq + 1
    (isControl sl.core = false → (∀ q ∈ x.reqs, q.num < n → s.parkOf sl q = none) →
      (∀ rd z p ea, r.kind = .ldn rd z p ea → Misses s sl r ea.toNat (bytesOf z) permR c →
        (x.act ≠ none → r.ended = false → x.upvec.getLsbD 0 = true →
          parks ⟨1, withTop p ea.toNat, 0, z, rd.setWidth 7, 0, c, ea, n, s.nextReq⟩) ∧
        (x.act = none ∨ r.ended = true ∨ x.upvec.getLsbD 0 = false →
          ∃ u : State, exec (.parkedAccess sl n) s = .next (u.slotFault sl 1 c (tval ea) ea) ∧ Poisons x (u.slot sl) rd c (tval ea) ∧
            OneSlot s u sl { without x n with gt := (u.slot sl).gt } ∧ { u with cores := s.cores } = s)) ∧
      (∀ z p ea data, r.kind = .st z p ea data → Misses s sl r ea.toNat (bytesOf z) permW c →
        (x.act ≠ none → r.ended = false → x.upvec.getLsbD 0 = true →
          parks ⟨2, withTop p ea.toNat, data, z, 0, 0, c, ea, n, s.nextReq⟩) ∧
        (x.act = none ∨ r.ended = true ∨ x.upvec.getLsbD 0 = false →
          ∃ u : State, exec (.parkedAccess sl n) s = .next (u.slotFault sl 2 c (tval ea) ea) ∧
            OneSlot s u sl { x with reqs := others x n } ∧ { u with cores := s.cores } = s))) ∧
    ((∃ q ∈ x.reqs, q.num < n ∧ (s.parkOf sl q).isSome = true) → exec (.parkedAccess sl n) s = .next s)

/-- R148, R160 and R157: of the operations that wait on tags, the point of coherence performs the oldest whose condition holds, and goes on with
the others: the value of an LDF or LDFE is in the register, the bytes of an STE in memory, LDFE leaves its words empty and STE full; a load empties
the data cache of its core and orders the slot's earlier loads before its later accesses, a store drops its line there, and the slot goes on. -/
def Sys2Proof.Claims.TagWaitersAreServed : Prop :=
  ∀ (s : State) (sl : SlotId) (n key : Nat) (r : Req) (z : BitVec 3) (ea : Word) (before after : List Waiter), (s.slot sl).req n = some r →
    let x := s.slot sl
    let keys := keysFrom key (bytesOf z)
    let mine (w : Nat) : Prop := ∃ i, i < bytesOf z ∧ w = (key + i) / 4
    let serves (k : WaitKind) (holds : State → Prop) : Prop := s.waiters = before ++ ⟨sl, n, key, bytesOf z, k⟩ :: after →
      (∀ b ∈ before, b.holds s = false) →
      ∃ t : State, exec (.tagServe (key / 4)) s = .next t.served ∧ t.waiters = before ++ after ∧ holds t
    s.isPoisoned keys = false → Memory.wf s.mem = true → mwf true s.tags = true →
    (∀ rd e, r.kind = .load rd z ea e → (∀ w, mine w → s.tagFull w = true) → serves (if e then .ldfe else .ldf) fun t =>
      RegIs x (t.slot sl) rd (loaded z (s.bytes keys)) ∧ (t.core sl.core).dcache = [] ∧ (∀ k, t.byte k = s.byte k) ∧
        (∀ w, (mine w → t.tagFull w = !e) ∧ (¬mine w → t.tagFull w = s.tagFull w)) ∧
        SlotStep { s with waiters := before ++ after } t sl
          { atNext x with g := (t.slot sl).g, gt := (t.slot sl).gt, reqs := others x n, acq := loading { x with reqs := others x n } }) ∧
    (∀ data, r.kind = .store z ea data → (∀ w, mine w → s.tagFull w = false) → serves .ste fun t =>
      Stored s t ⟨keys, true, false, false⟩ data.toNat ∧ (∀ q ∈ (t.core sl.core).dcache, q.line ≠ ea.toNat / 64) ∧
        (∀ w, (mine w → t.tagFull w = true) ∧ (¬mine w → t.tagFull w = s.tagFull w)) ∧
        SlotStep { s with waiters := before ++ after } t sl { atNext x with reqs := others x n }) ∧
    (∀ word, (∀ w ∈ s.waiters, word ∉ (keysFrom w.key w.n).map (· / 4)) → exec (.tagServe word) s = .next s)

/-- R203 and R205: a shipped built-in routine replaces the word at ga in one step: the new value and the reply are those of its row, tags stay
(RDCF32 sets both words full when its count reaches 0), and the core's line is invalidated. -/
def Sys2Proof.Claims.RoutinesRunAtTheOwner : Prop :=
  ∀ (s : State) (sl : SlotId) (n : Nat) (rd : Reg) (reply : Bool) (p b o : Word) (l : Loc) (cnt reg qt gone : Bool) (at_ : Nat) (ctx : BitVec 7),
    Memory.wf s.mem = true → mwf true s.tags = true → s.waiters = [] →
    ∀ e ∈ routineTable, let ea := p.toNat % 2 ^ 56
    let wide := e.2.1 = 8
    let r : Req := ⟨n, .ship (e.1 + if reply then 0 else 16) rd reply wide p b o, cnt, false, reg, qt, at_, ctx, gone⟩
    (s.slot sl).req n = some r → ea % e.2.1 = 0 → Ready s sl r ea e.2.1 permRW l → s.isPoisoned l.keys = false → s.sliceOver sl.core l.keys = false →
    let old := leNat (s.bytes l.keys)
    let fills := e.1 = 15 ∧ old / 2 ^ 32 = 1
    ∃ t, exec (.routineCall sl n) s = .next t ∧
      Stored s t l (e.2.2.1 old (b.toNat % 2 ^ (8 * e.2.1)) o.toNat) ∧
      (∀ w, t.tagFull w = if fills ∧ w ∈ l.keys.map (· / 4) then true else s.tagFull w) ∧
      (reply = true → RegIs (s.slot sl) (t.slot sl) rd (e.2.2.2 old)) ∧ (∀ q ∈ (t.core sl.core).dcache, q.line ≠ ea / 64) ∧
      (reply = true → SlotStep s t sl { without (s.slot sl) n with g := (t.slot sl).g, gt := (t.slot sl).gt }) ∧
      (reply = false → SlotStep s t sl { s.slot sl with reqs := (s.slot sl).reqs.filter fun q => q.num ≠ n })

/-- R208 and R209: the owner reads one step of a chain on its package: the masked value is the pointer of the next step, or with the last step the
value of gd; a pointer with a bad format, a misaligned address, a fault of its translation and uncorrectable data end the chain with CHAINFLT and
gd = 0. -/
def Sys2Proof.Claims.ChainsStepAndReply : Prop :=
  ∀ (s : State) (sl : SlotId) (n : Nat) (rd : Reg) (p : Word) (step visits : Nat) (off : Word32) (mask : Word) (rest : List (Word32 × Word))
    (cnt reg qt gone : Bool) (at_ : Nat) (ctx : BitVec 7),
    let r : Req := ⟨n, .chain rd p step visits ((off, mask) :: rest) none, cnt, false, reg, qt, at_, ctx, gone⟩
    let x := s.slot sl
    let a := ((p.toNat % 2 ^ 56 + off.toInt) % 2 ^ 56).toNat
    let fails (why at_ : Nat) : Prop := ∃ t, exec (.chainStep sl n) s = .next t ∧ (rd ≠ 0 → (t.slot sl).g[rd.toNat]'rd.isLt = 0) ∧
      (∀ q, (t.slot sl).tagG q = if q = rd ∧ rd ≠ 0 then .poisoned 9 (num (step % 8 * 2 ^ 61 + why * 2 ^ 56 + at_)) else x.tagG q) ∧
      (∀ q, q ≠ rd → (t.slot sl).readG q = x.readG q) ∧
      OneSlot s t sl { without x n with g := (t.slot sl).g, gt := (t.slot sl).gt } ∧ { t with cores := s.cores } = s
    x.req n = some r →
    (¬GoodPointer p → fails 4 (p.toNat % 2 ^ 56)) ∧
    (GoodPointer p → a % 8 ≠ 0 → fails 3 a) ∧
    (GoodPointer p → a % 8 = 0 → a < winBase → 8 ≤ visits → fails 5 a) ∧
    (GoodPointer p → a % 8 = 0 → a < winBase → visits < 8 →
      (∀ c, s.resolve (r.agent sl) a 8 permR = .error c → fails (if c = 6 then 1 else if c = 12 then 7 else 2) a) ∧
      (∀ l, Ready s sl r a 8 permR l → s.sliceOver sl.core l.keys = false →
        (s.isPoisoned l.keys = true → fails 7 a) ∧
        (s.isPoisoned l.keys = false →
          let v := num (leNat (s.bytes l.keys) &&& mask.toNat)
          ∃ t, exec (.chainStep sl n) s = .next t ∧ SameMemory s t ∧
            (rest = [] → RegIs x (t.slot sl) rd v ∧ SlotStep s t sl { without x n with g := (t.slot sl).g, gt := (t.slot sl).gt }) ∧
            (rest ≠ [] → { t.carafe with waiting := s.carafe.waiting } = s.carafe ∧ SlotStep s { t with carafe := s.carafe } sl { x with reqs := x.reqs.map fun q =>
              if q.num = n then { q with kind := .chain rd v (step + 1) (visits + 1) rest none, peer := false } else q }))))

/-- R74, R278, R281 and R290: the answer of a peer to an element of a request ends that element's part, here of requests of one element: code 0 with
the value or the store done, another code with REMOTEFAIL and the device, which poisons the register of an LDN and is the trap of a blocking LD,
LDF, LDFE, STE, STF or AMO; LDF and LDFE end in their acquire (R157). Without an answer the request fails with code 4 once its limit has passed:
2 P + 1 ms with the slot table enabled, 1 ms without. A store of a region that has ended by its limit fails without a record (R283). -/
def Obligations.PeersAnswerOrTheLimitEnds : Prop :=
  ∀ (s : State) (sl : SlotId) (n elem dev : Nat) (r : Req) (rd : Reg), (s.slot sl).req n = some r →
    let x := s.slot sl
    let mine (g : Frame) : Prop := asks g sl n = true ∧ g.elem = elem ∧ g.dst = dev
    let onlySent (t : State) (f : Frame) : Prop :=
      t.fab.sent = s.fab.sent.erase f ∧ { t with cores := s.cores, fab := { t.fab with sent := s.fab.sent } } = s
    let limit := if s.fab.ctrl.getLsbD 8 then 2 * ((s.fab.slots.toList.take (s.fab.ctrl.toNat % 128)).map fun e => e.1.toNat / 2 ^ 32).sum + 1000000
      else 1000000
    let failed (t : State) (code d : Nat) : Prop := Poisons x (t.slot sl) rd 10 (num (code + d * 2 ^ 40)) ∧
      OneSlot s t sl { without x n with gt := (t.slot sl).gt }
    let blocking : Prop := match r.kind with | .load .. | .store .. | .amo .. => True | _ => False
    let stopped (u : State) : Prop := OneSlot s u sl { x with reqs := others x n, wait := .ready }
    (∀ before f after data, s.fab.sent = before ++ f :: after → mine f → (∀ g ∈ before, ¬mine g) →
      (∀ g ∈ s.fab.sent ++ s.fab.queue, g.slot = sl → g.req = n → g.body ≠ .withdraw) →
      (∀ z ea e o k, r.kind = .load rd z ea e → data.length = bytesOf z →
        (f.body = .access (.read o k) →
          ∃ t, exec (.acknowledgement sl (n, elem) dev 0 data) s = .next t ∧ RegIs x (t.slot sl) rd (loaded z data) ∧ onlySent t f ∧
            OneSlot s t sl { atNext x with g := (t.slot sl).g, gt := (t.slot sl).gt, reqs := others x n }) ∧
        (f.body = .access (.syncLoad o k e) →
          ∃ t, exec (.acknowledgement sl (n, elem) dev 0 data) s = .next t ∧ RegIs x (t.slot sl) rd (loaded z data) ∧ onlySent t f ∧
            (t.core sl.core).dcache = [] ∧ t.slot sl = { atNext x with
              g := (t.slot sl).g, gt := (t.slot sl).gt, reqs := others x n, acq := loading { x with reqs := others x n } })) ∧
      (∀ z p ea, r.kind = .ldn rd z p ea → data.length = bytesOf z →
        ∃ t, exec (.acknowledgement sl (n, elem) dev 0 data) s = .next t ∧ RegIs x (t.slot sl) rd (loaded z data) ∧ onlySent t f ∧
          OneSlot s t sl { without x n with g := (t.slot sl).g, gt := (t.slot sl).gt }) ∧
      (∀ z ea v, r.kind = .store z ea v → ∃ t, exec (.acknowledgement sl (n, elem) dev 0 data) s = .next t ∧ onlySent t f ∧
        OneSlot s t sl { atNext x with reqs := others x n }) ∧
      (∀ code, r.region = false → 1 ≤ code → code ≤ 6 → dev < 2 ^ 15 →
        (∀ z p ea, r.kind = .ldn rd z p ea → r.quiet = false →
          ∃ t, exec (.acknowledgement sl (n, elem) dev code data) s = .next t ∧ failed t code dev ∧ onlySent t f) ∧
        (blocking → r.quiet = false → ∃ u : State, exec (.acknowledgement sl (n, elem) dev code data) s =
          .next (u.takeTrap sl 10 (num (code + dev * 2 ^ 40))) ∧ stopped u ∧ onlySent u f) ∧
        (∀ z p ea v, r.kind = .st z p ea v → r.quiet = true → x.wait ≠ .sent n →
          ∃ t, exec (.acknowledgement sl (n, elem) dev code data) s = .next t ∧ OneSlot s t sl (without x n) ∧ onlySent t f))) ∧
    (∀ f, r.region = false → r.quiet = false → r.peer = true → r.since + limit ≤ s.time → (s.fab.queue ++ s.fab.sent).filter (fun g => asks g sl n) = [f] →
      f.dst < 2 ^ 15 → (∀ m ∈ (s.core sl.core).outq, m.region ≠ some (sl, n)) →
      let dropped (t : State) : Prop := t.fab.queue = s.fab.queue.filter (fun g => ¬(asks g sl n = true ∧ g.seq = 0)) ∧
        { t with cores := s.cores, fab := { t.fab with queue := s.fab.queue } } = s
      (∀ z p ea, r.kind = .ldn rd z p ea → ∃ t, exec (.remoteTimeLimit sl n) s = .next t ∧ failed t 4 f.dst ∧ dropped t) ∧
      (blocking → ∃ u : State, exec (.remoteTimeLimit sl n) s = .next (u.takeTrap sl 10 (num (4 + f.dst * 2 ^ 40))) ∧ stopped u ∧ dropped u))

/-- R258 and R259: a fault record goes into the free entry of its context's fault queue that WIDX names: cause, source and the record's fields, the
first two words full, WIDX one higher; interrupt 1 is raised and the context is descheduled. -/
def Obligations.FaultRecordsAreQueued : Prop :=
  ∀ (s : State) (n : Nat) (r : FaultRec) (h k : List Nat), Memory.wf s.mem = true → mwf true s.tags = true → s.waiters = [] →
    let c := s.ctx n
    let base := c.fqbase.toNat % 2 ^ 56
    let widx := leNat (s.bytes (h.take 8))
    let table := s.sched.ctxtab.toNat + 256 * n
    s.queueLoc n base 64 = some h → s.queueLoc n (base + 64 + 64 * (widx % 2 ^ c.fqlog)) 64 = some k →
    s.isPoisoned (h.take 16) = false → (wordsOf (k.take 8)).any s.tagFull = false → (h ++ k).Nodup → (∀ i, i < 8 → table + i ∉ h ++ k) →
    ∃ t, exec (.faultRecord n r) s = .next t ∧
      (∀ i v, [num (r.cause.toNat + 256 * r.source.toNat), r.tval, r.slotid, r.launchid, num s.time, r.extra, r.va, 0][i]? = some v →
        wordAt t k i = v) ∧
      (∀ w ∈ wordsOf (k.take 8), t.tagFull w = true) ∧ wordAt t h 0 = num (widx + 1) ∧
      t.sched.ints = s.sched.ints ++ [(s.routeInt (n % 16), 1, num n)] ∧ t.cores = s.cores ∧
      (c.st = .running → t.ctx n = { c with st := .saving, after := .stopped, haltAt := s.time } ∧ t.read table 8 = 2) ∧
      (c.st ≠ .running → t.ctx n = c) ∧ (∀ m, m ≠ n → t.ctx m = s.ctx m) ∧
      ∀ b, b ∉ h.take 8 → b ∉ k → (b < table ∨ table + 8 ≤ b ∨ c.st ≠ .running) → t.byte b = s.byte b

namespace Sys2Proof.Claims

/-! ## Messages and activations -/

/-- Channel c of a core is now e, also in the channel area of its scratchpad (R120); every other channel is as before. -/
def ChanAt (s t : State) (core : Nat) (c : BitVec 5) (e : Channel) : Prop :=
  let k := (s.core core).areaKey core (32 * c.toNat)
  (t.core core).chan c = e ∧ (∀ j, j ≠ c → (t.core core).chan j = (s.core core).chan j) ∧ (∀ n, n ≠ core → (t.core n).ch = (s.core n).ch) ∧
    t.read k 8 = e.haddr.toNat ∧ t.read (k + 8) 8 = e.ctrl.toNat ∧ t.read (k + 16) 8 = e.regionWord.toNat

/-- The byte of key b belongs to entry c of the channel area of a core. -/
def InEntry (s : State) (core : Nat) (c : BitVec 5) (b : Nat) : Prop :=
  (s.core core).areaKey core (32 * c.toNat) ≤ b ∧ b < (s.core core).areaKey core (32 * c.toNat) + 32

/-- R122: a decrement of a channel, then the firing rule. -/
def lowered (e : Channel) (d : BitVec 16) (xm : Bool) : Channel :=
  fired { e with count := BitVec.ofNat 16 (e.count.toNat - d.toNat) } xm

/-- The message queue `src`, a core's outbound queue or the network, is now ms; beside it only a core's inbound queue, its channels, its slots'
waits and memory may have changed. -/
def MsgStep (s t : State) (src : Option Nat) (ms : List Msg) (target : Nat) : Prop :=
  t.msgs src = ms ∧ (∀ n, some n ≠ src → (t.core n).outq = (s.core n).outq) ∧ (src ≠ none → t.net = s.net) ∧
    (∀ n, n ≠ target → { t.core n with outq := (s.core n).outq } = s.core n) ∧
    { t.core target with outq := (s.core target).outq, inq := (s.core target).inq, slots := (s.core target).slots,
                         ch := (s.core target).ch, far := (s.core target).far, farFired := (s.core target).farFired } = s.core target ∧
    { t with cores := s.cores, net := s.net, mem := s.mem, poison := s.poison } = s

/-- The queue of message m, number idx, once a core has taken it (R125). -/
def taken (ms : List Msg) (idx target : Nat) (m : Msg) : List Msg :=
  if m.targets.erase target = [] then ms.eraseIdx idx else ms.set idx { m with targets := m.targets.erase target }

/-- R13, R18 and R118: slot y is slot x after an activation has started in it: g1 to g4 hold g, every register is full, and pc[1:0] is 0. -/
def Begins (x y : Slot) (pc : Word) (g : List Word) (xm : Bool) (act : Act) : Prop :=
  (∀ r, y.tagG r = .full) ∧ (∀ r : Reg, y.readG r = if 1 ≤ r.toNat ∧ r.toNat ≤ 4 then g.getD (r.toNat - 1) 0 else x.readG r) ∧
    y = { x with g := y.g, gt := y.gt, vi := 0, fstat := if xm then 8 else 0, pc := num (pc.toNat / 4 * 4), act := some act, wait := .ready, region := none }

/-- R18, R144 and R157: of the core of slot sl, its other slots are as before, the vector registers of the slot that were poisoned are full, and its
data cache is empty where what started the activation is `far`, from another core, and else as before; cores differ at most in channels, deques and
inbound queues beside. -/
def CoreBegins (s t : State) (sl : SlotId) (far : Prop) : Prop :=
  let x := s.slot sl
  (∀ o, o ≠ sl → t.slot o = s.slot o) ∧ (far → (t.core sl.core).dcache = []) ∧ (¬far → (t.core sl.core).dcache = (s.core sl.core).dcache) ∧
    (∀ n, n < 128 → (t.core sl.core).tagV n =
      if x.valloc.toNat % 256 ≤ n ∧ n < x.valloc.toNat % 256 + x.valloc.toNat / 256 then .full else (s.core sl.core).tagV n) ∧
    (∀ n, n ≠ sl.core → { t.core n with top := (s.core n).top } = s.core n) ∧
    (let c := s.core sl.core
     { t.core sl.core with slots := c.slots, vt := c.vt, dcache := c.dcache, ch := c.ch, inq := c.inq, last := c.last, bottom := c.bottom,
                           top := c.top, far := c.far, farFired := c.farFired } = c) ∧
    { t with cores := s.cores, mem := s.mem, tags := s.tags, poison := s.poison } = s

/-- R128: the legal handler addresses of a context. -/
def Legal (s : State) (n : Nat) (a : Word) : Prop :=
  (s.ctx n).tbndlo.toNat ≤ a.toNat ∧ a.toNat ≤ (s.ctx n).tbndhi.toNat ∧ a.toNat % 4 = 0

/-- R67: the start traps XMMISMATCH before the first instruction where the sides differ. -/
def orMismatch (u : State) (sl : SlotId) (ch : BitVec 5) (sender expected : Bool) : State :=
  if sender = expected then u else u.takeTrap sl 8 (num (sender.toNat * 256 + ch.toNat))

/-- The message number idx of queue `src` leaves for the fabric: a frame to its device, under the request that its sender holds for it. -/
def SentOn (i : Instr) (s : State) (src : Option Nat) (idx : Nat) (m : Msg) : Prop :=
  ∀ o n, m.region = some (o, n) → s.fab.reaches (m.dest.toNat / 2 ^ 40 % 2 ^ 15) = true → ∃ t, exec i s = .next t ∧
    t.msgs src = (s.msgs src).eraseIdx idx ∧ (∀ k, { t.core k with outq := (s.core k).outq } = s.core k) ∧
    (∀ k, some k ≠ src → t.core k = s.core k) ∧ (src ≠ none → t.net = s.net) ∧
    t.fab.queue = s.fab.queue ++ [⟨s.fab.devno.toNat, m.dest.toNat / 2 ^ 40 % 2 ^ 15, ⟨src.getD 0, (m.sender.extractLsb' 0 2).toFin⟩, n, 0, 0, 0, 0, .msg m⟩] ∧
    { t.fab with queue := s.fab.queue } = s.fab ∧ { t with cores := s.cores, net := s.net, fab := s.fab } = s

end Sys2Proof.Claims

/-! ## Messages and activations -/

/-- R124 to R126, R90 and R263: an active message enters the inbound queue of a core that its context holds, and wakes the core's slots in WFE; a
queue of 64, or the core of a context that is out, refuses it, and it stays until it is tried again; a core that the context does not hold drops it
with an ACCESS record that names the sender's slot and launch; one to a peer goes on to its device (R272). A message may leave once nothing earlier in its queue goes to the same core and the stores it follows are
visible there (R125, R127). -/
def Sys2Proof.Claims.ActiveMessagesArrive : Prop :=
  ∀ (s : State) (src : Option Nat) (idx target : Nat) (m : Msg), (s.msgs src)[idx]? = some m → m.dec = none → m.refused = false →
    m.fabric = false → target ∈ m.targets → s.mayLeave src idx target m = true →
    let i : Instr := .activeMessageArrival src idx target
    let launch : Word := if m.launch.isSome then 0 else s.launchidOf ⟨src.getD (destCore m.sender), (m.sender.extractLsb' 0 2).toFin⟩
    (m.dest.getLsbD 55 = true → SentOn i s src idx m) ∧ (m.dest.getLsbD 55 = false → ((s.core target).ctx = some m.ctx → (s.core target).inq.length < 64 → ∃ t, exec i s = .next t ∧
      MsgStep s t src (taken (s.msgs src) idx target m) target ∧ (t.core target).inq = (s.core target).inq ++ [m] ∧ t.mem = s.mem ∧
      t.poison = s.poison ∧ (t.core target).ch = (s.core target).ch ∧
      ∀ k, t.slot ⟨target, k⟩ = { s.slot ⟨target, k⟩ with
        wait := if (s.slot ⟨target, k⟩).wait = .wfe false then .wfe true else (s.slot ⟨target, k⟩).wait }) ∧
    ((s.core target).ctx = some m.ctx ∧ 64 ≤ (s.core target).inq.length ∨
        (s.core target).ctx ≠ some m.ctx ∧ (∃ k ∈ (s.ctx m.ctx).savedCores, k.coord = target) → ∃ t, exec i s = .next t ∧
      MsgStep s t src ((s.msgs src).set idx { m with refused := true }) target ∧ (∀ n, { t.core n with outq := (s.core n).outq } = s.core n) ∧
      t.mem = s.mem ∧ t.poison = s.poison) ∧
    ((s.core target).ctx ≠ some m.ctx → (∀ k ∈ (s.ctx m.ctx).savedCores, k.coord ≠ target) →
      ∃ u : State, exec i s = .next (u.queueFault m.ctx { cause := 7, source := 3, tval := m.dest, slotid := m.sender, launchid := launch, extra := 0, va := 0 }) ∧
        MsgStep s u src (taken (s.msgs src) idx target m) target ∧ (∀ n, { u.core n with outq := (s.core n).outq } = s.core n) ∧
        u.mem = s.mem ∧ u.poison = s.poison))

/-- R122, R125 to R127 and R263: a counter message is applied when it arrives: COUNT falls by the decrement, at most to 0, and the firing rule
follows; for a core of a context that is out, in its saved entry and the image of it in the save area; one to a peer goes on to its device (R272);
a refused message is tried again. -/
def Sys2Proof.Claims.CounterMessagesAreApplied : Prop :=
  ∀ (s : State) (src : Option Nat) (idx : Nat) (m : Msg), (s.msgs src)[idx]? = some m →
    (∀ target rest d, m.dec = some d → m.targets = target :: rest → m.dest.getLsbD 55 = true → m.fabric = false →
      s.mayLeave src idx target m = true → SentOn (.counterMessage src idx) s src idx m) ∧
    (∀ (target : Nat) (rest : List Nat) (d : BitVec 16) (i : Nat) (k : SavedCore), m.dec = some d → m.targets = target :: rest → m.dest.getLsbD 55 = false → m.fabric = false → Memory.wf s.mem = true →
      s.mayLeave src idx target m = true → (s.core target).ctx ≠ some m.ctx → (s.ctx m.ctx).savedCores[i]? = some k → k.coord = target →
      (∀ (j : Nat) (c : SavedCore), j < i → (s.ctx m.ctx).savedCores[j]? = some c → c.coord ≠ target) →
      let ch := BitVec.ofNat 5 (m.dest.toNat / 2 ^ 19)
      let image := (s.ctx m.ctx).save.toNat + 131072 + i * 114688 + k.core.area.toNat * 4096 + 32 * ch.toNat + 8
      ∃ t k', exec (.counterMessage src idx) s = .next t ∧ t.msgs src = taken (s.msgs src) idx target m ∧
        (∀ n, { t.core n with outq := (s.core n).outq } = s.core n) ∧ (t.ctx m.ctx).savedCores[i]? = some k' ∧
        k'.core.chan ch = lowered (k.core.chan ch) d m.xm ∧ (∀ c, c ≠ ch → k'.core.chan c = k.core.chan c) ∧
        t.read image 8 = (k'.core.chan ch).ctrl.toNat ∧ (∀ b, b < image ∨ image + 8 ≤ b → t.byte b = s.byte b) ∧
        (∀ (j : Nat) (c : SavedCore), (s.ctx m.ctx).savedCores[j]? = some c → c.coord ≠ target → (t.ctx m.ctx).savedCores[j]? = some c) ∧
        (∀ n, n ≠ m.ctx → t.ctx n = s.ctx n)) ∧
    (∀ target rest d, m.dec = some d → m.targets = target :: rest → m.dest.getLsbD 55 = false → m.fabric = false → Memory.wf s.mem = true →
      s.mayLeave src idx target m = true → (s.core target).ctx = some m.ctx →
      let ch := BitVec.ofNat 5 (m.dest.toNat / 2 ^ 19)
      ∃ t, exec (.counterMessage src idx) s = .next t ∧ MsgStep s t src (taken (s.msgs src) idx target m) target ∧
        ChanAt s t target ch (lowered ((s.core target).chan ch) d m.xm) ∧ (t.core target).inq = (s.core target).inq ∧
        (∀ b, ¬InEntry s target ch b → t.byte b = s.byte b) ∧
        ∀ k, t.slot ⟨target, k⟩ = { s.slot ⟨target, k⟩ with
          wait := if (s.slot ⟨target, k⟩).wait = .wfe false then .wfe true else (s.slot ⟨target, k⟩).wait }) ∧
    (∀ core, src = (if core < 102416 then some core else none) → ∃ t, exec (.outboundRetry core idx) s = .next t ∧
      t.msgs src = (s.msgs src).set idx { m with refused := false } ∧ (∀ n, some n ≠ src → t.core n = s.core n) ∧ (src ≠ none → t.net = s.net) ∧
      (∀ n, { t.core n with outq := (s.core n).outq } = s.core n) ∧ { t with cores := s.cores, net := s.net } = s)

/-- R118, R128 and R130: the slot that the core fills starts the oldest message of the selected channel at the handler address it names, with the
payload in the channel's region, full, as much as fits; an address outside the bounds leaves an HBOUND record and starts nothing. The
channel becomes BUSY, and the firing rule follows, with the channel's own XM (log 33). -/
def Sys2Proof.Claims.ActiveMessagesStartHandlers : Prop :=
  ∀ (s : State) (sl : SlotId) (ch : BitVec 5) (n : Nat) (m : Msg), s.fill sl.core = some (sl, .message ch) → (s.core sl.core).ctx = some n →
    (s.core sl.core).inq.find? (fun k => k.dest.toNat / 2 ^ 19 % 32 = ch.toNat) = some m →
    let c := s.core sl.core
    let e := c.chan ch
    let addr := num ((m.body.getD 0 0).toNat + 2 ^ 32 * (m.body.getD 1 0).toNat)
    let payload := m.body.drop 2
    let k := min payload.length e.rlen.toNat
    let base := 2 ^ 40 + sl.core * 65536 + e.rbase.toNat
    let mine (b : Nat) : Prop := base ≤ b ∧ b < base + 4 * k
    (¬Legal s n addr → ∃ u : State, exec (.startActiveMessage sl ch) s =
        .next (u.queueFault n { cause := 14, source := 3, tval := addr, slotid := 0, launchid := 0, extra := 0, va := 0 }) ∧
      (u.core sl.core).inq = c.inq.erase m ∧ (∀ o, u.slot o = s.slot o) ∧ (∀ q, q ≠ sl.core → u.core q = s.core q) ∧
      { u with cores := s.cores } = s) ∧
    (Legal s n addr → m.launch = none → s.waiters = [] → Memory.wf s.mem = true → mwf true s.tags = true → e.rbase.toNat % 4 = 0 →
      (∀ b, mine b → ¬InEntry s sl.core ch b) →
      ∃ u : State, exec (.startActiveMessage sl ch) s = .next (orMismatch u sl ch m.xm e.xm) ∧
        Begins (s.slot sl) (u.slot sl) addr [num (0x7FFFFFFF800000 + sl.core % 128 * 65536 + e.rbase.toNat), num k, m.sender, num ch.toNat] e.xm
          ⟨.channel ch, e.prio, s.launchOf sl.core⟩ ∧
        (u.core sl.core).inq = c.inq.erase m ∧ (∀ p : Fin 4, (u.core sl.core).last[p] = if p.val = e.prio.toNat then ch else c.last[p]) ∧
        ChanAt s u sl.core ch (fired { e with busy := true, loss := e.loss || decide (e.rlen.toNat < payload.length) } e.xm) ∧
        (∀ i, i < k → u.read (base + 4 * i) 4 = (payload.getD i 0).toNat) ∧
        (∀ w, u.tagFull w = if mine (4 * w) then true else s.tagFull w) ∧
        (∀ b, ¬mine b → ¬InEntry s sl.core ch b → u.byte b = s.byte b) ∧
        (u.core sl.core).top = c.top ∧ (u.core sl.core).bottom = c.bottom ∧ (∀ q, q ≠ sl.core → u.core q = s.core q) ∧
        CoreBegins s u sl (m.fabric = true ∨ m.sender.toNat / 4 % 2 ^ 17 ≠ coordOf sl.core / 4 % 2 ^ 17))

/-- R118, R122, R128 and R130: the slot that the core fills starts a pending firing of the selected channel at HADDR; PNUM falls by one, and an HADDR
outside the bounds leaves an HBOUND record and starts nothing. The firing rule follows each change, with the channel's own XM (log 33). The
start is an acquire where a decrement of the channel came from another core (R127, R157). -/
def Sys2Proof.Claims.CounterFiringsStartHandlers : Prop :=
  ∀ (s : State) (sl : SlotId) (ch : BitVec 5) (n : Nat), s.fill sl.core = some (sl, .firing ch) → (s.core sl.core).ctx = some n →
    Memory.wf s.mem = true →
    let c := s.core sl.core
    let e := c.chan ch
    (¬Legal s n e.haddr → ∃ u : State, exec (.startCounterFiring sl ch) s =
        .next (u.queueFault n { cause := 14, source := 3, tval := e.haddr, slotid := 0, launchid := 0, extra := 0, va := 0 }) ∧
      ChanAt s u sl.core ch (fired { e with pnum := e.pnum - 1 } e.xm) ∧ (∀ o, u.slot o = s.slot o) ∧
      { u with cores := s.cores, mem := s.mem, poison := s.poison } = s) ∧
    (Legal s n e.haddr → ∃ u : State, exec (.startCounterFiring sl ch) s = .next (orMismatch u sl ch (if e.xmbad then !e.xm else e.xm) e.xm) ∧
      Begins (s.slot sl) (u.slot sl) e.haddr [num (0x7FFFFFFF800000 + sl.core % 128 * 65536 + e.rbase.toNat), 0, 0, num ch.toNat] e.xm
        ⟨.channel ch, e.prio, s.launchOf sl.core⟩ ∧
      (∀ p : Fin 4, (u.core sl.core).last[p] = if p.val = e.prio.toNat then ch else c.last[p]) ∧
      ChanAt s u sl.core ch (fired { e with pnum := e.pnum - 1, busy := true, xmbad := false } e.xm) ∧
      (∀ b, ¬InEntry s sl.core ch b → u.byte b = s.byte b) ∧ (∀ w, u.tagFull w = s.tagFull w) ∧ (u.core sl.core).inq = c.inq ∧
      (u.core sl.core).top = c.top ∧ (u.core sl.core).bottom = c.bottom ∧ (∀ q, q ≠ sl.core → u.core q = s.core q) ∧
      CoreBegins s u sl (c.far.getLsbD ch.toNat = true ∨ c.farFired.getLsbD ch.toNat = true))

/-- R118, R135 and R136: a free slot pops the newest task of its core, whole, or takes the oldest of another core of its group, of a range task of
two or more the upper half; the task runs with its recorded join, a stolen one as an acquire (R157). -/
def Sys2Proof.Claims.TasksArePoppedAndStolen : Prop :=
  ∀ (s : State) (sl : SlotId), Memory.wf s.mem = true →
    let c := s.core sl.core
    let ends (u : State) (core : Nat) (top bottom : Word) : Prop :=
      (u.core core).top = top ∧ (u.core core).bottom = bottom ∧ u.read ((s.core core).areaKey core 0x400) 8 = top.toNat ∧
        u.read ((s.core core).areaKey core 0x408) 8 = bottom.toNat ∧
        ∀ b, b < (s.core core).areaKey core 0x400 ∨ (s.core core).areaKey core 0x410 ≤ b → u.byte b = s.byte b
    let runs (i : Instr) (u : State) (k : Task) (lo hi : Nat) (far : Prop) : Prop :=
      let ch := BitVec.ofNat 5 (k.info.toNat / 2 ^ 19)
      let range := k.info.getLsbD 26
      exec i s = .next (orMismatch u sl ch (k.info.getLsbD 24) (k.info.getLsbD 25)) ∧ CoreBegins s u sl far ∧
        Begins (s.slot sl) (u.slot sl) k.entry
          [k.arg, num (if range then lo else 0), num (if range then hi else 0), num (2 ^ 63 + 2 ^ 62 * range.toNat + ch.toNat)] (k.info.getLsbD 25)
          ⟨.task (destCore k.info) ch (k.info.getLsbD 25), 3, s.launchOf sl.core⟩ ∧
        (∀ w, u.tagFull w = s.tagFull w) ∧ (u.core sl.core).ch = c.ch ∧ (u.core sl.core).inq = c.inq ∧ (u.core sl.core).last = c.last
    let lo (k : Task) := k.range.toNat % 2 ^ 32
    let hi (k : Task) := k.range.toNat / 2 ^ 32
    (s.fill sl.core = some (sl, .pop) → let k := s.taskAt sl.core (c.bottom - 1)
      ∃ u : State, runs (.taskPop sl) u k (lo k) (hi k) False ∧ ends u sl.core c.top (c.bottom - 1) ∧ ∀ q, q ≠ sl.core → u.core q = s.core q) ∧
    (∀ v, s.fill sl.core = some (sl, .steal v) → v ≠ sl.core →
      let k := s.taskAt v (s.core v).top
      let mid := lo k + (hi k - lo k) / 2
      (k.info.getLsbD 26 = false ∨ hi k - lo k < 2 → ∃ u : State, runs (.taskSteal sl) u k (lo k) (hi k) True ∧
        ends u v ((s.core v).top + 1) (s.core v).bottom ∧ (u.core sl.core).top = c.top ∧ (u.core sl.core).bottom = c.bottom) ∧
      (k.info.getLsbD 26 = true → 2 ≤ hi k - lo k → ∃ u : State, runs (.taskSteal sl) u k mid (hi k) True ∧
        u.taskAt v (s.core v).top = { k with range := num (mid * 2 ^ 32 + lo k) } ∧ (∀ q, q ≠ sl.core → u.core q = s.core q) ∧
        (u.core sl.core).top = c.top ∧ (u.core sl.core).bottom = c.bottom ∧
        let key := (s.core v).taskKey v (s.core v).top
        ∀ b, b < key ∨ key + 32 ≤ b → u.byte b = s.byte b))

namespace Sys2Proof.Claims

/-! ## Steps of jobs and near-bank programs -/

/-- Job j stands in the queue of an octet between the jobs of pre and post, and no other there has its context and id. -/
def Stands (s : State) (oct : Nat) (pre : List Job) (j : Job) (post : List Job) : Prop :=
  s.jobsOf oct = pre ++ j :: post ∧ ∀ i ∈ pre ++ post, ¬(i.ctx = j.ctx ∧ i.id = j.id)

/-- R173 and R296: the job's context runs and its core is not fenced; the kernel's own jobs always run. -/
def MayRun (s : State) (j : Job) : Prop :=
  isControl j.owner.core = true ∨ ((s.ctx j.ctx).st = .running ∧ s.fencedCore j.owner.core = false)

/-- R169: the job takes a pour engine when it starts to pour: POUR jobs but LCOPY, and remaps. j' is the job with the engine that it runs
on, one that has not been retired. -/
def OnPour (s t : State) (j j' : Job) : Prop :=
  if (0x81 ≤ j.opc.toNat ∧ j.opc.toNat ≤ 0x86 ∨ j.remaps ≠ []) ∧ j.pour = none then
    (∃ n, n < 32 ∧ RUnit.pour n ∉ s.repair.retired ∧ j' = { j with pour := some n }) ∧ t.fresh = s.fresh + 1
  else j' = j ∧ t.fresh = s.fresh

/-- Some pour engine has not been retired. -/
def PourLives (s : State) : Prop := ∃ n, n < 32 ∧ RUnit.pour n ∉ s.repair.retired

/-- No write of the job stands in the slices of its die (R154). -/
def NoneForwarded (s : State) (oct : Nat) (j : Job) : Prop := ∀ e ∈ s.slices, ¬(e.job = some (j.ctx, j.id) ∧ e.sl.core / 8 = oct)

/-- The job runs, none of its remaps is left, nothing is asked or read ahead, no write of it stands in the slices, and the pour engine it needs
is there. -/
def Running (s : State) (oct : Nat) (j : Job) : Prop :=
  MayRun s j ∧ j.owner.core / 8 = oct ∧ j.st = .running ∧ j.remaps = [] ∧ j.ask = none ∧ j.got = [] ∧ NoneForwarded s oct j ∧
    (∀ n, j.pour = some n → RUnit.pour n ∉ s.repair.retired) ∧ (0x81 ≤ j.opc.toNat ∧ j.opc.toNat ≤ 0x86 → j.pour ≠ none)

/-- The queue of an octet is now js, the other queues are as before. -/
def JobsAre (s t : State) (oct : Nat) (js : List Job) : Prop := t.jobsOf oct = js ∧ ∀ o, o ≠ oct → t.jobsOf o = s.jobsOf o

/-- R218 and R223: the job has been served, so it waits at no bank any more. -/
def LeftBanks (s t : State) (oct : Nat) (j : Job) : Prop :=
  t.carafe = { s.carafe with waiting := s.carafe.waiting.filter fun w => w.user ≠ .job oct j.ctx j.id }

/-- Beside jobs and what waits at banks, only memory with its tags and poison, the cached translations, the lines of the Crema and the counter of
free values may have changed. -/
def WorkStep (s t : State) : Prop :=
  { t with jobs := s.jobs, carafe := s.carafe, mem := s.mem, tags := s.tags, poison := s.poison, xlats := s.xlats, crema := s.crema,
           fresh := s.fresh } = s

/-- R150 and R169: the job is the work of an agent of the die, of the octet engine or the copy unit of a compute core. -/
def onDie (j : Job) : Bool := isControl j.owner.core = false && (j.opc.toNat = 0x80 || [4, 5, 6, 9, 10, 11, 13].contains j.opc.toNat)

/-- R154: the bytes at some keys as the agent of the job sees them: an agent of a die sees the stores that the slices of the die hold. -/
def jobSees (s : State) (j : Job) (keys : List Nat) : List Byte := if onDie j then s.seen j.owner.core keys else s.bytes keys

/-- Where n bytes at ea lie for the job; no near-bank unit is at work on their bank. -/
def JobMeets (s : State) (j : Job) (ea n : Nat) (perm : Perm) (l : Loc) : Prop :=
  s.resolve (s.jobAgent j) ea n perm = .ok l ∧ (l.ms = true → s.unitAt l.bank = none)

/-- The job may read n bytes at ea, which lie at l. -/
def JobReads (s : State) (j : Job) (ea n : Nat) (l : Loc) : Prop := JobMeets s j ea n permR l ∧ s.isPoisoned l.keys = false

/-- R154: a write of the job to l enters the slices of its die. -/
def ToSlices (s : State) (j : Job) (l : Loc) : Prop := onDie j = true ∧ s.forwards j.owner.core l = true

/-- The job may write the word at ea, which lies at l, and no store that the slices hold has to come before (R152). -/
def JobWrites (s : State) (j : Job) (ea : Nat) (l : Loc) : Prop :=
  ea % 4 = 0 ∧ JobMeets s j ea 4 permW l ∧ l.keys.headD 0 % 4 = 0 ∧
    (ToSlices s j l → s.sliceClash j.owner.core l.keys = false) ∧ (¬ToSlices s j l → s.sliceOver j.home l.keys = false)

/-- R147, R154 and R158: the job has written the word v at ea, where l lies: into the slices of its die, with the word that will be full, or to
memory, where the word is full now. -/
def WordWritten (s t : State) (j : Job) (ea : Nat) (l : Loc) (v : Nat) : Prop :=
  (ToSlices s j l → t.slices = s.slices ++ [⟨s.nextReq, j.owner, 0, j.ctx, ea, l.keys, (List.range 4).map fun i => BitVec.ofNat 8 (v / 256 ^ i),
      some (j.ctx, j.id), [l.keys.headD 0 / 4]⟩] ∧ t.nextReq = s.nextReq + 1 ∧ t.mem = s.mem ∧ t.tags = s.tags ∧
      WorkStep s { t with slices := s.slices, nextReq := s.nextReq }) ∧
    (¬ToSlices s j l → Stored s t l v ∧ Tagged s t l true ∧ WorkStep s t)

/-- The address of a pointer moved by an offset (R42, R165). -/
def offsetBy (p : Word) (off : Int) : Nat := (((p.toNat % 2 ^ 56 : Nat) + off) % 2 ^ 56).toNat

/-- The engine of the octet changed for the job's context only in its accumulators. -/
def OnlyAcc (s t : State) (oct : Nat) (j : Job) : Prop :=
  { t.eng oct j.ctx with acc := (s.eng oct j.ctx).acc } = s.eng oct j.ctx ∧
    (∀ k, k ≠ engKey oct j.ctx → mget EngCtx.init t.engs k = mget EngCtx.init s.engs k) ∧
    { t with jobs := s.jobs, engs := s.engs, carafe := s.carafe } = s

/-- An FP32 word as a copy into FP32 leaves it: a NaN becomes the canonical one (R46). -/
def canon32 (w : Word32) : Word32 := if isNaN32 w then 0x7FC00000 else w

/-- R169: the jobs of the matrix engine by their function codes. -/
def onMatrix (j : Job) : Prop := j.opc.toNat ∈ [4, 5, 6, 8, 9, 10, 11, 13]

/-- R189 and R190: a descriptor when its remap has completed: BASE and SHADOW change places and STATE is 0, or, in place, STATE and WMARK are
0. -/
def remapped (inplace : Bool) (d : BitVec 512) (i : Nat) : Bool :=
  if i = 126 ∨ i = 127 then false
  else if inplace then (if 384 ≤ i ∧ i < 424 then false else d.getLsbD i)
  else if i < 55 then d.getLsbD (64 + i)
  else if 64 ≤ i ∧ i < 119 then d.getLsbD (i - 64)
  else d.getLsbD i

/-- Program p is at the head of the queue of its bank, before rest, and its context runs. -/
def AtHead (s : State) (bank : Nat) (p : NbProg) (rest : List NbProg) : Prop :=
  s.nbQueue bank = p :: rest ∧ p.bank = bank ∧ (s.ctx p.ctx).st = .running

/-- The queue of a bank is now q; beside it nothing of the Carafe changed. -/
def BankIs (s t : State) (bank : Nat) (q : List NbProg) : Prop :=
  t.nbQueue bank = q ∧ (∀ b, b ≠ bank → t.nbQueue b = s.nbQueue b) ∧ { t.carafe with nb := s.carafe.nb } = s.carafe

/-- R216: element e of the accumulator after the micro-operation with code op: from the row's element v, the scalar sc, both accumulators
and whether this is the first iteration; none for an operation that keeps the accumulators. -/
def microNew (op : Nat) (v sc mine other : Word32) (first : Bool) : Word32 :=
  match op with
  | 1 => v
  | 3 => (fFma 0 0 sc v mine).1
  | 4 => (fAdd 0 0 mine other).1
  | 5 => (fMul 0 0 sc mine).1
  | 6 => if first then 0 else mine
  | _ => mine

end Sys2Proof.Claims

/-! ## Steps of jobs -/

/-- R171, R172 and R195: a queued job whose context runs starts, on a live pour engine if it pours, unless an
earlier matrix or stopped job of its slot is in the queue (of a matrix job), or it uses accumulator
memory that another slot's job has still to use; a job that has done its work and whose writes are all
performed (R172) leaves: FSTAT takes its flags, its counter falls, a WFE of the slot ends. An MMA with k
= 0 zeroes C first, without ACCUM (R183). -/
def Sys2Proof.Claims.JobsStartAndComplete : Prop :=
  ∀ (s : State) (oct : Nat) (pre : List Job) (j : Job) (post : List Job), Stands s oct pre j post → MayRun s j → j.remaps = [] →
    let x := s.slot j.owner
    let c := BitVec.ofNat 4 (j.b.toNat / 2 ^ 44)
    let blocks (i : Job) : Prop := i.owner = j.owner ∧ (onMatrix i ∨ i.st = .stopped)
    (j.st = .queued → (onMatrix j → ∀ i ∈ pre, ¬blocks i) → (j.usesAcc = true → ∀ i ∈ pre ++ post, i.usesAcc = false) → PourLives s →
      ∃ t j', exec (.jobStart oct j.ctx j.id) s = .next t ∧ OnPour s t j j' ∧ JobsAre s t oct (pre ++ { j' with st := .running } :: post) ∧
        { t with jobs := s.jobs, fresh := s.fresh } = s) ∧
    (j.st = .queued → onMatrix j ∧ (∃ i ∈ pre, blocks i) ∨
        (j.usesAcc = true ∧ (∀ i ∈ pre, i.st ≠ .stopped) ∧ ∃ i ∈ pre, i.usesAcc = true ∧ i.owner ≠ j.owner) →
      exec (.jobStart oct j.ctx j.id) s = .next s) ∧
    (let leaves (t : State) : Prop := exec (.jobComplete oct j.ctx j.id) s = .next t ∧ JobsAre s t oct (pre ++ post) ∧
        OneSlot s t j.owner { x with fstat := withFlags x.fstat j.flags, c := (t.slot j.owner).c,
                                     wait := if x.wait = .wfe false then .wfe true else x.wait } ∧
        (∀ n, ((t.slot j.owner).counter n).toNat = (x.counter n).toNat - if n = c then 1 else 0) ∧
        { t with cores := s.cores, jobs := s.jobs, engs := s.engs } = s
     j.st = .running → j.ask = none → j.total ≤ j.progress → j.owner.core / 8 = oct →
      (¬NoneForwarded s oct j → exec (.jobComplete oct j.ctx j.id) s = .next s) ∧
      (NoneForwarded s oct j → j.opc ≠ 4 ∨ j.total ≠ 0 ∨ j.k[8].getLsbD 1 = true → ∃ t, leaves t ∧ t.engs = s.engs) ∧
      (NoneForwarded s oct j → j.opc = 4 → j.total = 0 → j.k[8].getLsbD 1 = false → mwf 0 (s.eng oct j.ctx).acc = true →
        let base := j.k[7].toNat / 4
        let n := j.k[4].toNat * j.k[5].toNat * (if fmtOf j.k[0] = 11 then 2 else 1)
        ∃ t, leaves t ∧ ∀ w, mget 0 (t.eng oct j.ctx).acc w = if base ≤ w ∧ w < base + n then 0 else mget 0 (s.eng oct j.ctx).acc w))

/-- R183, R194 and R198: a running matrix job advances by one unit: ACCZ clears a row of accumulator words,
ACCLD loads one, ACCST stores one, into its die's slices or memory (R154), CTLOAD loads 8 bytes of the
code table, a k-step of MMA adds its sums to the tile. -/
def Sys2Proof.Claims.MatrixJobsProgress : Prop :=
  ∀ (s : State) (oct : Nat) (pre : List Job) (j : Job) (post : List Job), Stands s oct pre j post → Running s oct j →
    let e := s.eng oct j.ctx
    let i := j.progress
    let n := j.k[5].toNat
    let base := j.k[7].toNat / 4 + i * n
    let acc (t : State) (w : Nat) : Word32 := mget 0 (t.eng oct j.ctx).acc w
    let steps (t : State) (j' : Job) : Prop :=
      exec (.jobProgress oct j.ctx j.id) s = .next t ∧ JobsAre s t oct (pre ++ j' :: post) ∧ LeftBanks s t oct j
    mwf 0 e.acc = true → mwf 0 e.bank0 = true → mwf 0 e.bank1 = true → Memory.wf s.mem = true → mwf true s.tags = true → s.waiters = [] →
    (j.opc = 11 → i < j.k[4].toNat → ∃ t, steps t { j with progress := i + 1 } ∧ OnlyAcc s t oct j ∧
      ∀ w, acc t w = if base ≤ w ∧ w < base + n then 0 else acc s w) ∧
    (∀ l : Nat → Loc, j.opc = 9 → fmtOf j.k[12] = 10 → i < j.k[4].toNat →
      (∀ u, u < n → JobReads s j (offsetBy j.k[12] (i * j.k[13].toInt + (4 * u : Nat))) 4 (l u)) →
      let v (u : Nat) : Word32 := BitVec.ofNat 32 (leNat (jobSees s j (l u).keys))
      ∃ t, steps t { j with progress := i + 1, flags := j.flags ||| nvIf ((List.range n).any fun u => isSNaN32 (v u)) } ∧ OnlyAcc s t oct j ∧
        ∀ w, acc t w = if base ≤ w ∧ w < base + n then canon32 (v (w - base)) else acc s w) ∧
    (∀ l, j.opc = 10 → fmtOf j.k[12] = 10 → i < j.k[4].toNat → n = 1 → j.rm ≠ 4 → j.part = [] → j.pend = [] →
      let ea := offsetBy j.k[12] (i * j.k[13].toInt)
      JobWrites s j ea l →
      ∃ t, steps t { j with progress := i + 1, flags := j.flags ||| nvIf (isSNaN32 (acc s base)) } ∧
        WordWritten s t j ea l (canon32 (acc s base)).toNat) ∧
    (∀ l, j.opc = 13 → i < 256 → JobReads s j (offsetBy j.a (8 * i : Nat)) 8 l →
      let table (c : EngCtx) : SMap Byte := if j.bank then c.bank0 else c.bank1
      ∃ t, steps t { j with progress := i + 1 } ∧
        (∀ o, mget 0 (table (t.eng oct j.ctx)) o = if 8 * i ≤ o ∧ o < 8 * i + 8 then (jobSees s j l.keys).getD (o - 8 * i) 0 else mget 0 (table e) o) ∧
        (if j.bank then { t.eng oct j.ctx with bank0 := e.bank0 } else { t.eng oct j.ctx with bank1 := e.bank1 }) = e ∧
        (∀ k, k ≠ engKey oct j.ctx → mget EngCtx.init t.engs k = mget EngCtx.init s.engs k) ∧
        { t with jobs := s.jobs, engs := s.engs, carafe := s.carafe } = s) ∧
    (∀ (a b : Nat → List (List FVal)), let m := j.k[4].toNat
      let cplx : Bool := fmtOf j.k[0] = 11
      let parts := if cplx then 2 else 1
      let per := perStep (fmtOf j.k[0])
      let c := min per (j.k[6].toNat - i * per)
      j.opc = 4 → i < j.total → 0 < m → 0 < n → j.rm ≠ 4 →
      (∀ r, r < m → s.rowElems j j.k[0] j.k[1].toInt r (i * per) c = .ok (a r)) →
      (∀ q, q < n → s.rowElems j j.k[2] j.k[3].toInt q (i * per) c = .ok (b q)) →
      ∃ t fl, steps t { j with progress := i + 1, flags := j.flags ||| fl } ∧ OnlyAcc s t oct j ∧
        let w0 := j.k[7].toNat / 4
        (∀ r q p, r < m → q < n → p < parts →
          let w := w0 + parts * (r * n + q) + p
          acc t w = (accAdd j.rm.toNat 0 (if i = 0 ∧ j.k[8].getLsbD 1 = false then 0 else acc s w)
            ((kstep cplx (j.k[8].getLsbD 0) j.rm.toNat ((a r).zip (b q))).1.getD p FVal.zero)).1) ∧
        ∀ w, w < w0 ∨ w0 + parts * (m * n) ≤ w → acc t w = acc s w)

/-- R184 and R185: an APPLY computes one batch, written once all is read; ascending batches are the model's
choice (log 39). A DIAG multiplies one element, and skips one that is void. -/
def Sys2Proof.Claims.FieldJobsProgress : Prop :=
  ∀ (s : State) (oct : Nat) (pre : List Job) (j : Job) (post : List Job), Stands s oct pre j post → Running s oct j →
    let src := j.desc j.k[15].toNat
    let dst := j.desc j.k[16].toNat
    let i := j.progress
    let zs := j.k[8].getLsbD 0
    dState src = 0 → dState dst = 0 → j.rm ≠ 4 → i < j.total →
    (let J := j.k[10].toNat % 16
     let bit (u : Nat) := j.k[10].toNat / 2 ^ (8 + 6 * u) % 64
     let ix := (List.range (2 ^ J)).map (batchIndex (dN src) ((List.range J).map bit) i)
     ∀ xs mat u j', j.opc = 5 → s.fieldRead j src ix = .ok xs → s.matEntries j (List.range (2 ^ J * 2 ^ J)) = .ok mat →
      let y (r : Nat) := applyRow (j.matFmt = 11) (dFmt src = 11) zs (dFmt dst) j.rm.toNat j.seed ((mat.drop (r * 2 ^ J)).take (2 ^ J)) xs
      let ws := ((List.range (2 ^ J)).zip ix).filterMap fun p => (fieldAddr dst p.2).map fun a => (a, (y p.1).1)
      s.jobEmit j (i + 1) ws = .ok (u, j') →
      ∃ fl, exec (.jobProgress oct j.ctx j.id) s =
        .next ((u.setJob oct { j' with progress := i + 1, flags := j.flags ||| fl }).leaveBanks (.job oct j.ctx j.id))) ∧
    (let c := ((List.range (j.k[10].toNat % 16)).map fun u => i / 2 ^ (j.k[10].toNat / 2 ^ (8 + 6 * u) % 64) % 2 * 2 ^ u).sum
     let steps (t : State) (j' : Job) : Prop :=
       exec (.jobProgress oct j.ctx j.id) s = .next t ∧ JobsAre s t oct (pre ++ j' :: post) ∧ LeftBanks s t oct j
     j.opc = 6 →
      (isVoid src i = true → ∃ t, steps t { j with progress := i + 1 } ∧ { t with jobs := s.jobs, carafe := s.carafe } = s) ∧
      ∀ x v l, isVoid src i = false → isVoid dst i = false → dFmt src = 10 → dFmt dst = 10 → j.part = [] → j.pend = [] → Memory.wf s.mem = true →
        mwf true s.tags = true → s.waiters = [] → s.fieldRead j src [i] = .ok [x] → s.matEntries j [c] = .ok [v] →
        let ea := elemAddr dst (dBuffer dst) (physical dst i)
        JobWrites s j ea l → j.matFmt = 10 →
        ∃ t fl, steps t { j with progress := i + 1, flags := j.flags ||| fl } ∧
          WordWritten s t j ea l (fround 10 false false j.rm.toNat 0 ((kstep false zs j.rm.toNat [(v, x)]).1.getD 0 FVal.zero)).1)

/-- R147, R148, R165 and R286: a running pour job advances by one unit; ascending elements are the model's
choice (log 66; R165 leaves it open). LCOPY and PCOPY copy a 4-byte element whose neighbour lies in
another word, or wait for full words under WSRC, PFILL writes one, PTAG sets a word's tag, a word written
whole becomes full; LCOPY's go through the slices of its die (R154); PCOLL counts a block that was
performed, sends one, or writes a local one. -/
def Sys2Proof.Claims.PourJobsProgress : Prop :=
  ∀ (s : State) (oct : Nat) (pre : List Job) (j : Job) (post : List Job), Stands s oct pre j post → Running s oct j →
    let u := j.progress
    let n := j.b.toNat % 2 ^ 32
    let rows := j.b.toNat / 2 ^ 48
    let ag := s.jobAgent j
    let steps (t : State) (j' : Job) : Prop :=
      exec (.jobProgress oct j.ctx j.id) s = .next t ∧ JobsAre s t oct (pre ++ j' :: post) ∧ LeftBanks s t oct j
    let grid (p stride : Word) (u : Nat) : Nat := offsetBy p ((u / n : Nat) * stride.toInt + (u % n * 4 : Nat))
    let alone (p stride : Word) : Prop := u + 1 < rows * n → grid p stride (u + 1) % 4 = 0 ∧ grid p stride (u + 1) ≠ grid p stride u
    Memory.wf s.mem = true → mwf true s.tags = true →
    (∀ l, j.opc = 0x82 → sizeColumn[fmtOf j.a]? = some 4 → u < rows * n → j.part = [] → s.waiters = [] → alone j.a j.k[13] →
      let da := grid j.a j.k[13] u
      da < 2 ^ 55 → JobWrites s j da l →
      ∃ t, steps t { j with progress := u + 1 } ∧ WordWritten s t j da l j.dval.toNat) ∧
    (∀ k l, j.opc = 0x80 ∨ j.opc = 0x81 → sizeColumn[fmtOf j.a]? = some 4 → fmtOf j.k[12] = fmtOf j.a → u < rows * n → j.part = [] →
      alone j.k[12] j.k[13] →
      let sa := grid j.a j.k[1] u
      let da := grid j.k[12] j.k[13] u
      sa < 2 ^ 55 → da < 2 ^ 55 → sa % 4 = 0 → JobMeets s j sa 4 permR k → k.keys.headD 0 % 4 = 0 → JobWrites (s.used ag sa 4) j da l →
      (j.b.getLsbD 43 = true → s.locFull k = false → ∃ t, steps t { j with ask := some ⟨2, s.nextReq, s.time, none⟩ } ∧
        t.waiters = s.waiters ++ [⟨j.owner, s.nextReq, k.keys.headD 0, 4, .job (if j.phys then 64 else j.ctx) sa⟩] ∧
        t.nextReq = s.nextReq + 1 ∧ { t with jobs := s.jobs, waiters := s.waiters, nextReq := s.nextReq, carafe := s.carafe } = s) ∧
      (j.b.getLsbD 43 = false ∨ s.locFull k = true → s.isPoisoned k.keys = false → s.waiters = [] →
        ∃ t, steps t { j with progress := u + 1 } ∧ WordWritten s t j da l (leNat (jobSees s j k.keys)))) ∧
    (∀ l, j.opc = 0x83 → u < rows * n → s.waiters = [] →
      let da := grid j.a j.k[13] u
      da < 2 ^ 55 → JobMeets s j da 4 permW l → l.tagged = true →
      ∃ t, steps t { j with progress := u + 1 } ∧ Tagged s t l (j.b.getLsbD 32) ∧ t.mem = s.mem ∧ WorkStep s t) ∧
    (j.opc = 0x86 → u < j.list.length / 4 →
      let at_ := u + j.sends.length
      let e := blockAt j.list at_
      let reduce := j.b.getLsbD 42
      let da := e.dst.toNat % 2 ^ 56
      let dev := da / 2 ^ 40 % 2 ^ 15
      let next := (∀ b ∈ j.sends, b.st = .out) ∧ at_ < j.list.length / 4
      let goes (t : State) (j' : Job) : Prop :=
        exec (.jobProgress oct j.ctx j.id) s = .next ((t.setJob oct j').leaveBanks (.job oct j.ctx j.id))
      (∀ b, j.sends.find? (fun c => c.st = .answered 0) = some b → ∃ t, steps t { j with sends := j.sends.erase b, progress := u + 1 } ∧
        { t with jobs := s.jobs, carafe := s.carafe } = s) ∧
      (∀ bs, next → s.blockBytes j e = .ok bs →
        (da / 2 ^ 55 = 1 → s.fab.reaches dev = true →
          goes ({ s with nextReq := s.nextReq + 1 }.sendFrame dev j.owner s.nextReq 0 (.block (da % 2 ^ 40) bs reduce e.notify (s.slotid j.owner) j.xm))
            { j with sends := j.sends ++ [(⟨at_, s.nextReq, s.time, .out⟩ : Send)] }) ∧
        (∀ ks, da / 2 ^ 55 = 0 → s.jobBlock j (if reduce then permRW else permW) da bs.length = .ok ks → s.sliceOver j.home ks = false →
          s.blockFits ks reduce = true →
          goes ((s.applyBlock ks bs reduce).notify j.ctx e.notify (s.slotid j.owner) j.xm false) { j with progress := u + 1 })))

/-- R193, R195 and R197: a job whose next unit faults stops there with cause and address; k9 of its slot
holds its progress or that of its remap, and the slot has an ENGFAULT to take. The unit has no effect;
its words written in part are written first; a tag pass that a fault ends has emptied the words before
it. -/
def Sys2Proof.Claims.FaultingJobsStop : Prop :=
  ∀ (s : State) (oct : Nat) (pre : List Job) (j : Job) (post : List Job) (cause : BitVec 8) (va : Nat), Stands s oct pre j post →
    s.attempt oct j = .fault cause va → cause ≠ 0 → s.waiters = [] → j.owner.core / 8 = oct →
    let x := s.slot j.owner
    let pass := match j.remaps with | r :: _ => !r.started && s.remapMayStart oct j | [] => false
    let inRemap := match j.remaps with | r :: _ => r.started || pass | [] => false
    let shown := match j.remaps with | r :: _ => if inRemap then r.count else j.progress | [] => j.progress
    let poured : Prop := (0x81 ≤ j.opc.toNat ∧ j.opc.toNat ≤ 0x86 ∨ j.remaps ≠ []) → j.pour ≠ none
    (poured → NoneForwarded s oct j → s.flush j = none → exec (.jobProgress oct j.ctx j.id) s = .next s) ∧
    (∀ u j', poured → NoneForwarded s oct j → s.flush j = some (u, j') → pass = false → j.st = .running ∨ j.remaps ≠ [] →
      exec (.jobProgress oct j.ctx j.id) s = .next (u.setJob oct j')) ∧
    (¬(NoneForwarded s oct j ∧ s.flush j = none) → exec (.jobStop oct j.ctx j.id cause) s = .next s) ∧
    (NoneForwarded s oct j → s.flush j = none → ∃ t sends, exec (.jobStop oct j.ctx j.id cause) s = .next t ∧
      sends.map (fun b : Send => (b.entry, b.num)) = j.sends.map (fun b => (b.entry, b.num)) ∧
      JobsAre s t oct (pre ++ { j with st := .stopped, cause := cause, fault := num va, ask := none, got := [], pour := none,
                                       inRemap := inRemap, sends := sends } :: post) ∧
      OneSlot s t j.owner { x with k := (t.slot j.owner).k, events := x.events ++ [(s.nextReq, num (cause.toNat * 65536 + j.id.toNat))],
                                   wait := if x.wait = .wfe false then .wfe true else x.wait } ∧
      (∀ n, (t.slot j.owner).kreg n = if n = 9 then num shown else x.kreg n) ∧ t.nextReq = s.nextReq + 1 ∧
      (pass = false → t.tags = s.tags) ∧
      (∀ r rest, j.remaps = r :: rest → pass = true → (∀ n, j.pour = some n → RUnit.pour n ∉ s.repair.retired) → mwf true s.tags = true →
        ∀ w, t.tagFull w = if w ∈ (s.tagPass j r).1 then false else s.tagFull w) ∧
      { t with cores := s.cores, jobs := s.jobs, nextReq := s.nextReq, tags := s.tags } = s)

/-- R189, R190 and R286: the remap at the head of a job starts when no earlier matrix job of its slot is
queued, a PCOLL's when its entry is reached, and empties every word of its target; a shadow remap moves
elements in the new buffer's order, each word full once written; an in-place remap moves one cycle in a
step, then its words are full and WMARK holds the next leader; a cycle of one is set full with no move;
at the end the live descriptor changes at once. -/
def Sys2Proof.Claims.RemapsStartAndComplete : Prop :=
  ∀ (s : State) (oct : Nat) (pre : List Job) (j : Job) (post : List Job) (r : Remap) (rest : List Remap), Stands s oct pre j post →
    MayRun s j → j.owner.core / 8 = oct → j.remaps = r :: rest → j.st ≠ .stopped → (∀ n, j.pour = some n → RUnit.pour n ∉ s.repair.retired) →
    let d := r.before
    let steps (t : State) (r' : Remap) : Prop := exec (.jobProgress oct j.ctx j.id) s = .next t ∧
      JobsAre s t oct (pre ++ { j with remaps := r' :: rest } :: post) ∧ LeftBanks s t oct j
    (∀ ws, r.started = false → (∀ i ∈ pre, i.owner = j.owner → ¬(onMatrix i ∨ onMatrix j ∧ i.st = .stopped)) → PourLives s →
      (j.opc = 0x86 → j.st = .running ∧ j.atRemap = true) → s.waiters = [] → mwf true s.tags = true → s.tagPass j r = (ws, none) →
      ∃ t j', exec (.remapStart oct j.ctx j.id) s = .next t ∧ OnPour s t j j' ∧ LeftBanks s t oct j ∧
        JobsAre s t oct (pre ++ { j' with remaps := { r with started := true } :: rest,
                                          st := if j.opc = 8 ∨ j.opc = 0x84 then .running else j.st } :: post) ∧
        (∀ w, t.tagFull w = if w ∈ ws then false else s.tagFull w) ∧
        { t with jobs := s.jobs, tags := s.tags, fresh := s.fresh, carafe := s.carafe } = s) ∧
    (r.started = true → r.complete = false → j.pour ≠ none → NoneForwarded s oct j → sizeColumn[dFmt d]? = some 4 → s.waiters = [] →
      Memory.wf s.mem = true → mwf true s.tags = true →
      (∀ bs l, r.inplace = false → r.next < 2 ^ dN d → s.shadowElem j r r.next = .ok bs →
        let da := elemAddr d (dShadow d) r.next
        da % 4 = 0 → JobMeets s j da 4 permW l → l.tagged = true → l.keys.headD 0 % 4 = 0 → s.sliceOver j.home l.keys = false →
        (∀ m, r.next + 1 < 2 ^ dN d → s.resolve (s.jobAgent j) (elemAddr d (dShadow d) (r.next + 1)) 4 permW = .ok m →
          ∀ k ∈ m.keys, k / 4 ≠ l.keys.headD 0 / 4) →
        ∃ t, steps t { r with next := r.next + 1, count := r.count + 1 } ∧ Stored s t l (leNat bs) ∧ Tagged s t l true ∧ WorkStep s t) ∧
      (∀ l : Nat → Loc, r.inplace = true →
        let ps := r.cycle (r.leader r.next)
        let after := r.leader (r.leader r.next + 1)
        (∀ P ∈ ps, moved r P ∈ ps ∧ ∀ Q ∈ ps, moved r P = moved r Q → P = Q) →
        (∀ P ∈ ps, let ea := elemAddr d (dbits d 0 55) P
          JobMeets s j ea 4 permR (l P) ∧ JobMeets s j ea 4 permW (l P) ∧ (l P).tagged = true ∧ (l P).keys.headD 0 % 4 = 0 ∧
            s.sliceOver j.home (l P).keys = false ∧ (1 < ps.length → s.isPoisoned (l P).keys = false) ∧
            ∀ Q ∈ ps, Q ≠ P → ∀ k ∈ (l Q).keys, k ∉ (l P).keys) →
        ∃ t, steps t { r with next := after, count := r.count + 1 } ∧
          (∀ P ∈ ps, t.bytes (l (moved r P)).keys = jobSees s j (l P).keys) ∧ (∀ k, (∀ P ∈ ps, k ∉ (l P).keys) → t.byte k = s.byte k) ∧
          (∀ w, t.tagFull w = if ∃ P ∈ ps, w ∈ (l P).keys.map (· / 4) then true else s.tagFull w) ∧
          OneSlot s t j.owner { s.slot j.owner with d := (t.slot j.owner).d } ∧
          (∀ n, n ≠ r.desc → (t.slot j.owner).desc n = (s.slot j.owner).desc n) ∧
          (∀ i, i < 512 → ((t.slot j.owner).desc r.desc).getLsbD i =
            if 384 ≤ i ∧ i < 424 then after.testBit (i - 384) else ((s.slot j.owner).desc r.desc).getLsbD i) ∧
          WorkStep s { t with cores := s.cores })) ∧
    (r.complete = true → ∃ t, exec (.remapComplete oct j.ctx j.id) s = .next t ∧
      JobsAre s t oct (pre ++ { j with remaps := rest,
                                       pour := if 0x81 ≤ j.opc.toNat ∧ j.opc.toNat ≤ 0x86 ∨ rest ≠ [] then j.pour else none } :: post) ∧
      OneSlot s t j.owner { s.slot j.owner with d := (t.slot j.owner).d } ∧
      (∀ n, n ≠ r.desc → (t.slot j.owner).desc n = (s.slot j.owner).desc n) ∧
      (∀ i, i < 512 → ((t.slot j.owner).desc r.desc).getLsbD i = remapped r.inplace ((s.slot j.owner).desc r.desc) i) ∧
      { t with cores := s.cores, jobs := s.jobs } = s)

/-! ## Near-bank programs -/

/-- R216 to R218: a bank starts the program at the head of its queue with a tag pass, which empties the words of the rows it writes on TAGGED
pages; a micro-operation acts on 512 elements of a row and an accumulator; at a row boundary the program goes on, begins its next iteration or ends,
and with its last bank sends its notification; that a program whose words run out without END ends its iteration there is the model's choice (log
22). No request waits at the bank. -/
def Sys2Proof.Claims.NearBankStepsRun : Prop :=
  ∀ (s : State) (bank : Nat) (p : NbProg) (rest : List NbProg), AtHead s bank p rest → mwf true s.tags = true → Memory.wf s.mem = true →
    s.waiters = [] → s.carafe.waiting = [] →
    (∀ ws, p.st = .queued → s.microWords p.entry.toNat = some ws →
      let p' : NbProg := { p with words := ws }
      let rows := p'.writes
      (∀ r ∈ rows, ∃ q, s.nbRow p' (p.rowVa r.1 r.2) = .ok q) →
      ∃ t b0 b1, exec (.tagPass bank) s = .next t ∧ b0.length = 512 ∧ b1.length = 512 ∧
        BankIs s t bank ({ p with words := ws, ba0 := b0, ba1 := b1, tagged := true, st := .yielding } :: rest) ∧
        (let hit (w : Nat) : Prop := ∃ r ∈ rows, ∃ pa, s.nbRow p' (p.rowVa r.1 r.2) = .ok (pa, true) ∧ pa / 4 ≤ w ∧ w < pa / 4 + 512
         ∀ w, (hit w → t.tagFull w = false) ∧ (¬hit w → t.tagFull w = s.tagFull w)) ∧
        { t with carafe := s.carafe, tags := s.tags, fresh := s.fresh } = s) ∧
    (∀ w, p.st = .running → p.words[p.mpc]? = some w → p.ba0.length = 512 → p.ba1.length = 512 →
      let op := w.toNat / 2 ^ 28
      let a := w.getLsbD 27
      let r := w.toNat / 2 ^ 25 % 4
      let sc := if w.getLsbD 24 then p.s1 else p.s0
      let mine (e : Nat) := ((if a then p.ba1 else p.ba0)[e]?).getD 0
      let other (e : Nat) := ((if a then p.ba0 else p.ba1)[e]?).getD 0
      let va := p.rowVa r (if op = 7 then 0 else p.i)
      let boundary (l0 l1 : List Word32) : List NbProg := { p with mpc := p.mpc + 1, st := .yielding, ba0 := l0, ba1 := l1 } :: rest
      (op = 0 → ∃ t, exec (.rowStep bank) s = .next t ∧ BankIs s t bank ({ p with st := .yielding } :: rest) ∧ { t with carafe := s.carafe } = s) ∧
      (∀ pa tg, (op = 1 ∨ op = 3) ∧ s.nbRow p va = .ok (pa, tg) ∧ s.isPoisoned (keysFrom pa 2048) = false ∨ op = 4 ∨ op = 5 ∨ op = 6 →
        ∃ t l, exec (.rowStep bank) s = .next t ∧ l.length = 512 ∧
          (∀ e, e < 512 → l[e]? = some (microNew op (BitVec.ofNat 32 (s.read (pa + 4 * e) 4)) sc (mine e) (other e) (p.i = 0))) ∧
          BankIs s t bank (if a then boundary p.ba0 l else boundary l p.ba1) ∧ { t with carafe := s.carafe } = s) ∧
      (∀ pa tg, op = 2 ∨ (op = 7 ∧ p.i + 1 = p.iters) → s.nbRow p va = .ok (pa, tg) →
        ∃ t, exec (.rowStep bank) s = .next t ∧ BankIs s t bank (boundary p.ba0 p.ba1) ∧
          (∀ e, e < 512 → t.read (pa + 4 * e) 4 = (mine e).toNat) ∧ (∀ b, b < pa ∨ pa + 2048 ≤ b → t.byte b = s.byte b) ∧
          (∀ w, t.tagFull w = if tg = true ∧ pa / 4 ≤ w ∧ w < pa / 4 + 512 then true else s.tagFull w) ∧
          { t with carafe := s.carafe, mem := s.mem, tags := s.tags, poison := s.poison } = s) ∧
      (op = 7 → p.i + 1 ≠ p.iters →
        ∃ t, exec (.rowStep bank) s = .next t ∧ BankIs s t bank (boundary p.ba0 p.ba1) ∧ { t with carafe := s.carafe } = s)) ∧
    (p.st = .yielding →
      let atEnd := ∀ w, p.words[p.mpc]? = some w → w.toNat / 2 ^ 28 = 0
      let goes (q : List NbProg) : Prop :=
        ∃ t, exec (.rowBoundaryYield bank) s = .next t ∧ BankIs s t bank q ∧ { t with carafe := s.carafe } = s
      (¬atEnd → goes ({ p with st := .running } :: rest)) ∧
      (atEnd → p.i + 1 < p.iters → goes ({ p with st := .running, i := p.i + 1, mpc := 0 } :: rest)) ∧
      (atEnd → p.iters ≤ p.i + 1 →
        let done := ∀ b, b < 32 → p.banks.getLsbD b = true → b = bank % 32 ∨
          ∃ q ∈ s.carafe.reports, q.ctx = p.ctx ∧ q.id = p.id ∧ q.bank = bank / 32 * 32 + b ∧ q.st = .ended
        ∃ t, exec (.rowBoundaryYield bank) s = .next t ∧ t.nbQueue bank = rest ∧ (∀ b, b ≠ bank → t.nbQueue b = s.nbQueue b) ∧
          t.carafe.reports = s.carafe.reports ++ [{ p with st := .ended, i := p.i + 1, mpc := 0 }] ∧
          (p.notify = true ∧ done → t.net = s.net ++ [(⟨num (coordOf p.slot.core + p.ch.toNat * 2 ^ 19), p.sender, p.xm, p.ctx, some 1, [],
            [p.slot.core], false, false, none, none, []⟩ : Msg)]) ∧ (¬(p.notify = true ∧ done) → t.net = s.net) ∧
          { t with carafe := { t.carafe with nb := s.carafe.nb, reports := s.carafe.reports }, net := s.net } = s)) ∧
    (∀ ctx place, exec (.heldRowRefresh ctx place) s = .next s)

/-- R218 and R223: what waits at a bank when its program reaches a row boundary is served there, in order of arrival: the program stays at the boundary
while something waits, only what the first of them asks may go on, and the program goes on when nothing waits any more. The order by arrival of those
that the model has in its list is the model's choice (log 46). -/
def Sys2Proof.Claims.RowBoundariesServeRequests : Prop :=
  ∀ (s : State) (bank : Nat) (p : NbProg) (rest : List NbProg), AtHead s bank p rest → p.st = .yielding →
    let here := s.carafe.waiting.filter fun w => w.bank = bank && s.stillWaits w
    (here ≠ [] → ∃ t, exec (.rowBoundaryYield bank) s = .next t ∧ t.carafe.waiting = s.carafe.waiting.filter s.stillWaits ∧
      { t with carafe := { t.carafe with waiting := s.carafe.waiting } } = s) ∧
    (here = [] → (∀ w, p.words[p.mpc]? = some w → w.toNat / 2 ^ 28 ≠ 0) → p.mpc < p.words.length →
      ∃ t, exec (.rowBoundaryYield bank) s = .next t ∧ t.nbQueue bank = { p with st := .running } :: rest ∧
        t.carafe.waiting = s.carafe.waiting.filter s.stillWaits) ∧
    (∀ w others l u, here = w :: others → l.ms = true → l.bank = bank → (∀ v ∈ s.carafe.waiting, v.user = u → v.bank = bank) →
      (s.bankOpen u l = true ↔ u = w.user))

namespace Sys2Proof.Claims

/-! ## Contexts -/

/-- R250: command op runs for context n. -/
def Commanded (s : State) (op n : Nat) : Prop := s.sched.busy = true ∧ s.sched.cmd.toNat = op ∧ s.sched.cmdCtx.toNat = n

/-- R250: the command has finished in state u: BUSY is 0, the result stands, and interrupt 3 is raised. -/
def Finishes (u t : State) (result : BitVec 8) : Prop :=
  t = { u with sched := { u.sched with busy := false, result := result,
                                       ints := u.sched.ints ++ [(u.routeInt 0, 3, num (u.sched.cmdCtx.toNat * 256 + result.toNat))] } }

/-- The doubleword of the entry of context n at an offset (R245). -/
def entryAt (s : State) (n o : Nat) : Nat := s.read (s.sched.ctxtab.toNat + 256 * n + o) 8

/-- R245: the ranges and reserved bits of an entry. -/
def GoodEntry (s : State) (n : Nat) : Prop :=
  let w := entryAt s n
  let slots (l : Nat) : Prop := 4 ≤ l ∧ l ≤ 12
  w 0 < 8 ∧ w 8 < 2 ^ 40 ∧ w 8 % 1024 = 0 ∧ w 0x20 % 2 ^ 17 ≤ 102400 ∧ w 0x20 / 2 ^ 17 % 8 = 0 ∧ 1 ≤ w 0x20 / 2 ^ 20 % 32 ∧
    w 0x20 / 2 ^ 20 % 32 ≤ 16 ∧ w 0x20 / 2 ^ 25 % 8 = 0 ∧ w 0x20 / 2 ^ 29 % 8 = 0 ∧ w 0x20 / 2 ^ 36 = 0 ∧ w 0x28 < 2 ^ 40 ∧ w 0x28 % 65536 = 0 ∧
    w 0x30 < 2 ^ 55 ∧ w 0x30 % 64 = 0 ∧ w 0x38 < 2 ^ 55 ∧ w 0x38 % 64 = 0 ∧ slots (w 0x40 % 16) ∧ slots (w 0x40 / 2 ^ 8 % 16) ∧
    w 0x40 / 2 ^ 4 % 16 = 0 ∧ w 0x40 / 2 ^ 12 = 0 ∧ (∀ i < 7, w (0x48 + 8 * i) = 0) ∧
    ∀ q < 8, w (0x80 + 16 * q) < 2 ^ 55 ∧ w (0x80 + 16 * q) % 128 = 0 ∧ w (0x88 + 16 * q) < 16 ∧
      (w (0x80 + 16 * q) ≠ 0 → slots (w (0x88 + 16 * q)))

/-- R245: no second context that is not FREE owns the brew table. -/
def OneOwner (s : State) (n : Nat) : Prop := (entryAt s n 0x20).testBit 28 = true → ∀ p ∈ s.ctxs, p.1 ≠ n → p.2.brewown = true → p.2.st = .free

/-- The fields of a context that its entry gives (R245). -/
def FromEntry (s : State) (n : Nat) (c : Ctx) : Prop :=
  let w := entryAt s n
  c.ptroot = num (w 8) ∧ c.tbndlo = num (w 0x10) ∧ c.tbndhi = num (w 0x18) ∧ c.corelim = w 0x20 % 2 ^ 17 ∧ c.accw = w 0x20 / 2 ^ 20 % 32 ∧
    c.brewown = (w 0x20).testBit 28 ∧ c.area.toNat = w 0x20 / 2 ^ 32 % 16 ∧ c.save = num (w 0x28) ∧ c.fqbase = num (w 0x30) ∧
    c.sqbase = num (w 0x38) ∧ c.fqlog = w 0x40 % 16 ∧ c.sqlog = w 0x40 / 2 ^ 8 % 16 ∧ c.diemax = s.diemaxNow ∧
    ∀ q : Fin 8, c.queues[q] = (num (w (0x80 + 16 * q.val)), w (0x88 + 16 * q.val))

/-- STATE of context n is now code in the context table, which changed nothing else in memory (R245, R250). -/
def TableSays (s u : State) (n code : Nat) : Prop :=
  let k := s.sched.ctxtab.toNat + 256 * n
  u.read k 8 = code ∧ ∀ b, b < k ∨ k + 8 ≤ b → u.byte b = s.byte b

end Sys2Proof.Claims

/-! ## Contexts -/

/-- R245 and R250: CREATE takes a FREE context to RUNNING with what its table entry says and everything else at its reset value, holding no core;
a context that is not FREE gives result 1, a broken entry 2, a second brew owner 3. That control core 0 takes interrupt 3 while no other is named is
the model's choice (log 51). -/
def Sys2Proof.Claims.ContextsAreCreated : Prop :=
  ∀ (s : State) (n : Nat), Commanded s 1 n → Memory.wf s.mem = true → mwf 512 s.crema.psel = true →
    let answers (r : BitVec 8) : Prop := ∃ t, exec (.create n) s = .next t ∧ Finishes s t r
    ((s.ctx n).st ≠ .free → answers 1) ∧
    ((s.ctx n).st = .free → ¬GoodEntry s n → answers 2) ∧
    ((s.ctx n).st = .free → GoodEntry s n → ¬OneOwner s n → answers 3) ∧
    ((s.ctx n).st = .free → GoodEntry s n → OneOwner s n → ∃ t u, exec (.create n) s = .next t ∧ Finishes u t 0 ∧
      FromEntry s n (u.ctx n) ∧ (u.ctx n).st = .running ∧ (∀ q : Fin 8, (u.ctx n).rung[q] = 0) ∧ mget 512 u.crema.psel n = 512 ∧ (u.ctx n).dep = [] ∧
      (u.ctx n).holds = [] ∧ (u.ctx n).rowlost = 0 ∧ (u.ctx n).nbNext = 0 ∧ (u.ctx n).savedCores = [] ∧
      (∀ m, m ≠ n → u.ctx m = s.ctx m) ∧ (∀ o, n < 64 → u.eng o n = EngCtx.init) ∧ TableSays s u n 1 ∧ u.cores = s.cores ∧ u.jobs = s.jobs)

/-- R90, R161, R250, R260 and R261: PREEMPT takes a RUNNING context to SAVING, and its slots halt at their boundaries. That a slot halts with a trap
that it has not taken (log 43), that a peer is asked by a frame to withdraw an access that waits there (log 53), and which control core takes
interrupt 3 (log 51) are the model's choices. A slot that can issue or is blocked halts before its instruction, one in WFE ends it with 0; a blocking access that waits on
a tag is withdrawn, and one that waits at a peer once the peer has been asked. -/
def Sys2Proof.Claims.ContextsArePreempted : Prop :=
  ∀ (s : State) (n : Nat),
    (Commanded s 3 n → Memory.wf s.mem = true →
      ((s.ctx n).st = .running → ∃ t, exec (.preempt n) s = .next t ∧ t.ctx n = { s.ctx n with st := .saving, after := .saved } ∧
        (∀ m, m ≠ n → t.ctx m = s.ctx m) ∧ TableSays s t n 2 ∧ { t with ctxs := s.ctxs, mem := s.mem } = s) ∧
      ((s.ctx n).st ≠ .running → ¬((s.ctx n).st = .saving ∧ (s.ctx n).after = .saved) → ∃ t, exec (.preempt n) s = .next t ∧ Finishes s t 1)) ∧
    ∀ sl : SlotId, isControl sl.core = false → (s.core sl.core).ctx = some n → (s.ctx n).st = .saving →
      let x := s.slot sl
      let frames := s.fab.queue ++ s.fab.sent
      ((∀ w ∈ s.waiters, w.sl ≠ sl) → s.served = s →
        ((∀ f ∈ frames, f.slot ≠ sl) →
          (x.wait = .ready ∨ x.wait = .retry → ∃ t, exec (.slotHalt sl) s = .next t ∧ OneSlot s t sl { x with wait := .halted } ∧
            { t with cores := s.cores } = s) ∧
          (∀ b, x.wait = .wfe b → ∃ t, exec (.slotHalt sl) s = .next t ∧ RegIs x (t.slot sl) x.wfeReg 0 ∧
            OneSlot s t sl { x with g := (t.slot sl).g, gt := (t.slot sl).gt, pc := x.pc + 4, wait := .halted } ∧ { t with cores := s.cores } = s)) ∧
        ∀ r f, x.wait = .sent r.num → x.reqs = [r] → s.waitsAt sl r.num = [f] → f.seq ≠ 0 →
          (∀ g ∈ frames, ¬(g.slot = sl ∧ g.req = r.num ∧ g.elem = f.elem ∧ g.body = .withdraw)) →
          ∃ t, exec (.slotHalt sl) s = .next t ∧ t.fab = { s.fab with queue := s.fab.queue ++ [{ f with trims := 0, body := .withdraw }] } ∧
            { t with fab := s.fab } = s) ∧
      ∀ r w, x.wait = .sent r.num → x.reqs = [r] → (match r.kind with | .vldf .. => False | _ => True) → s.waiters = [w] → w.sl = sl → w.req = r.num →
        s.served = s → (∀ f ∈ frames, f.slot ≠ sl) →
        ∃ t, exec (.slotHalt sl) s = .next t ∧ t.waiters = [] ∧ OneSlot s t sl { x with wait := .halted, reqs := [] } ∧
          { t with cores := s.cores, waiters := s.waiters } = s

/-- R260 to R262: once everything of a SAVING context has come to rest, its cores, jobs and near-bank programs are saved and leave the machine,
their scratchpads are emptied, the save area's header counts them, and the context is SAVED, or STOPPED after a fault record; PREEMPT then
finishes; which control core takes interrupt 3 is the model's choice (log 51). -/
def Sys2Proof.Claims.ContextsAreSaved : Prop :=
  ∀ (s : State) (n : Nat), (s.ctx n).st = .saving → (s.ctx n).after = .saved ∨ (s.ctx n).after = .stopped → s.settledCtx n = true →
    s.waiters = [] → Memory.wf s.mem = true → (s.cores.map (·.1)).Pairwise (· < ·) →
    let c := s.ctx n
    let save := c.save.toNat
    let table := s.sched.ctxtab.toNat + 256 * n
    let mine := s.cores.filter fun p => p.2.ctx = some n
    table + 8 ≤ 2 ^ 40 → save + 40 ≤ 2 ^ 40 → table + 8 ≤ save ∨ save + 40 ≤ table →
    ∃ t u, exec (.saveComplete n) s = .next t ∧ (Commanded s 3 n ∧ c.after = .saved → Finishes u t 0) ∧
      (¬(Commanded s 3 n ∧ c.after = .saved) → t = u) ∧
      (u.ctx n).st = c.after ∧ u.read table 8 = (if c.after = .saved then 3 else 4) ∧
      (u.ctx n).savedCores.map (fun k => (k.coord, k.core, k.lost)) = mine.map (fun p => (p.1, p.2, s.fencedCore p.1)) ∧
      (∀ k, (s.core k).ctx = some n → u.core k = Core.init ∧ ∀ o, o < 65536 → u.byte (2 ^ 40 + 65536 * k + o) = 0) ∧
      (∀ k, (s.core k).ctx ≠ some n → u.core k = s.core k) ∧
      (∀ o, u.jobsOf o = (s.jobsOf o).filter fun j => j.ctx ≠ n || isControl j.owner.core) ∧
      (∀ b, u.nbQueue b = (s.nbQueue b).filter fun p => p.ctx ≠ n) ∧
      (u.ctx n).savedJobs = (s.jobsOfCtx n).map (fun p => (p.1, p.2.saved)) ∧ (u.ctx n).savedNb = s.nbOf n ∧
      u.read save 8 = mine.length % 2 ^ 64 ∧ u.read (save + 8) 8 = (s.octetsOf n (s.coresOf n)).length % 2 ^ 64 ∧ u.read (save + 24) 8 = 4096 ∧ u.read (save + 32) 8 = c.nbNext.toNat ∧
      ∀ m, m ≠ n → u.ctx m = s.ctx m

/-- R120, R264, R304 and R250: RESUME binds a SAVED or STOPPED context to the cores that the coordinate doublewords of its blocks name: each has its
contents, empty caches, and the channel table that its area holds, its slots issue from their saved pc, the limits of its requests run anew, its jobs
join their queues, and the context runs; a block that was lost and that the kernel has rewritten gives its core what it holds now. It waits while a core
or a window is not free. A state that does not allow it gives result 1; a lost block, a coordinate that names no live core, or two that name one core,
5: of these R304 gives a lost block and a die above DIEMAX, and that a cluster above 99 and two blocks with one core give 5 as well is the model's
choice (log 61), as is the control core that takes interrupt 3 (log 51). DESTROY frees the context with its launches, grants and brew table. -/
def Sys2Proof.Claims.ContextsAreResumedAndDestroyed : Prop :=
  ∀ (s : State) (n : Nat), Memory.wf s.mem = true → s.waiters = [] → s.sched.ctxtab.toNat + 256 * n + 8 ≤ 2 ^ 40 →
    let c := s.ctx n
    let out := c.st = .saved ∨ c.st = .stopped
    let save := entryAt s n 0x28 + 131072
    let cores := (List.range c.savedCores.length).map fun i => s.read (save + 114688 * i + 0x1A500) 8
    let engines := (List.range (s.octetsOf n c.savedCores).length).map fun i => s.read (save + c.corelim * 114688 + 344064 * i + 0x1A500) 8
    let named (w : Nat) : Nat := coreAt (w / 2 ^ 16 % 8) (w / 2 ^ 9 % 128) (w / 4 % 128)
    let bad := (∃ w ∈ cores ++ engines, w.testBit 63 = true ∨ 100 ≤ w / 2 ^ 9 % 128 ∨ s.diemaxNow.toNat < w / 2 ^ 16 % 8) ∨
      ¬(cores.map named).Nodup
    let free := s.canBind n c (entryAt s n 0x20 / 2 ^ 20 % 32) (cores.map named) (engines.map fun w => named w / 8)
    let unmoved := cores.map named = c.savedCores.map (·.coord) ∧ engines.map (fun w => named w / 8) = s.octetsOf n c.savedCores
    (Commanded s 2 n →
      (¬out → ∃ t, exec (.resume n) s = .next t ∧ Finishes s t 1) ∧
      (out → GoodEntry s n → OneOwner s n → bad → ∃ t, exec (.resume n) s = .next t ∧ Finishes s t 5) ∧
      (out → GoodEntry s n → OneOwner s n → ¬bad → free = false → exec (.resume n) s = .next s) ∧
      (out → GoodEntry s n → OneOwner s n → ¬bad → free = true → c.savedRows = [] → (c.savedCores.map (·.coord)).Nodup →
        (∀ k ∈ c.savedCores, k.lost = false ∧ ∀ x ∈ k.core.slots.toList, ∀ p ∈ x.parked, p.kind ≠ 3) →
        (∀ k ∈ c.savedCores, ∀ p ∈ k.pad, 2 ^ 40 + 65536 * k.coord ≤ p.1 ∧ p.1 < 2 ^ 40 + 65536 * (k.coord + 1)) →
        ∃ t u, exec (.resume n) s = .next t ∧ Finishes u t 0 ∧ FromEntry s n (u.ctx n) ∧ (u.ctx n).st = .running ∧
          (u.ctx n).savedCores = [] ∧ (u.ctx n).dep = c.dep ∧ u.crema = s.crema ∧ (∀ m, m ≠ n → u.ctx m = s.ctx m) ∧
          (∀ (i : Nat) (k : SavedCore) (w : Nat), c.savedCores[i]? = some k → cores[i]? = some w →
            let a := k.core.areaKey (named w) 0
            u.core (named w) = { k.core with
              dcache := [], icache := [],
              slots := k.core.slots.map fun x => { x with reqs := x.reqs.map fun r => { r with since := s.time },
                                                          wait := if x.wait = .halted then .ready else x.wait },
              outq := k.core.outq.map fun m => { m with region := m.region.map fun r => (⟨named w, r.1.slot⟩, r.2) },
              ch := (u.core (named w)).ch, top := num (u.read (a + 0x400) 8), bottom := num (u.read (a + 0x408) 8) } ∧
            ∀ q : BitVec 5, ((u.core (named w)).chan q).haddr = num (u.read (a + 32 * q.toNat) 8)) ∧
          (∀ m, m ∉ cores.map named → u.core m = s.core m) ∧
          (unmoved → (∀ o, u.jobsOf o = s.jobsOf o ++ (c.savedJobs.filter fun p => p.1 = o).map (·.2)) ∧
            ∀ b, u.nbQueue b = s.nbQueue b ++ c.savedNb.filter fun p => p.bank = b)) ∧
      (∀ k w, out → GoodEntry s n → OneOwner s n → ¬bad → free = true → c.savedRows = [] → c.savedCores = [k] → k.lost = true → cores = [w] →
        (∀ o, o < 65536 → s.byte (2 ^ 40 + 65536 * named w + o) = 0) →
        ∃ t u, exec (.resume n) s = .next t ∧ Finishes u t 0 ∧ (u.ctx n).st = .running ∧
          (∀ o, o < 65536 → u.byte (2 ^ 40 + 65536 * named w + o) = s.byte (save + o)) ∧
          (∀ (v : Fin 128) (l : Fin 16), ((u.core (named w)).v[v])[l] = BitVec.ofNat 32 (s.read (save + 0x10800 + 64 * v.val + 4 * l.val) 4)) ∧
          ∀ (i : Fin 4) (q : Fin 32), let x := u.slot ⟨named w, i⟩
            let image := save + 0x13000 + 2048 * i.val
            x.pc.toNat = s.read image 8 / 4 * 4 ∧ x.wait = .ready ∧ (q ≠ 0 → x.g[q].toNat = s.read (image + 64 + 8 * q.val) 8))) ∧
    (Commanded s 4 n →
      (¬out → ∃ t, exec (.destroy n) s = .next t ∧ Finishes s t 1) ∧
      (out → (∀ g ∈ s.grantsOf n, s.grantBusy g = false) → ∃ t u, exec (.destroy n) s = .next t ∧ Finishes u t 0 ∧ u.ctx n = Ctx.init ∧ (∀ m, m ≠ n → u.ctx m = s.ctx m) ∧
        TableSays s u n 0 ∧ u.fab = { s.fab with grants := s.fab.grants.filter fun p => p.2.ctx.toNat ≠ n } ∧
        u.brew = (if c.brewown then Brew.init else s.brew) ∧ u.cores = s.cores ∧
        u.sched.launches = s.sched.launches.filter (fun l => l.ctx ≠ n) ∧ u.sched.groups = s.sched.groups.filter fun g => g.ctx ≠ n))

namespace Sys2Proof.Claims

/-! ## Launches and the brew table -/

/-- Doubleword i of a descriptor that lies at some keys (R225). -/
def descWord (s : State) (k : List Nat) (i : Nat) : Nat := leNat (s.bytes ((k.drop (8 * i)).take 8))

/-- R227: a descriptor that may be launched, its handler address apart. -/
def GoodDesc (w : Nat → Nat) : Prop :=
  w 0 / 2 ^ 48 = 0 ∧ w 0 / 2 ^ 12 % 2 = 0 ∧ w 0 / 2 ^ 2 % 64 = 0 ∧ w 0 / 2 ^ 32 % 2 ^ 16 ≠ 0 ∧ 1 ≤ w 0 / 2 ^ 24 % 256 ∧
    w 0 / 2 ^ 24 % 256 ≤ 128 ∧ w 0 / 2 ^ 8 % 16 ≤ 12 ∧ w 1 % 4 = 0 ∧ w 2 % 8 = 0 ∧ w 3 / 2 ^ 57 = 0 ∧ w 3 / 2 ^ 41 % 128 = 0 ∧
    w 4 / 2 ^ 32 = 0 ∧ w 5 = 0 ∧ w 6 = 0 ∧ w 7 = 0 ∧ w 14 = 0 ∧ w 15 = 0

/-- R225: the fields of a descriptor. -/
def fieldsOf (w : Nat → Nat) : Desc :=
  { ngrp := w 0 / 2 ^ 32 % 2 ^ 16, gsize := w 0 / 2 ^ 24 % 256, stage := BitVec.ofNat 8 (w 0 / 2 ^ 16), staged := (w 0).testBit 15,
    octalign := (w 0).testBit 14, xm := (w 0).testBit 13, argw := w 0 / 2 ^ 8 % 16, prio := BitVec.ofNat 2 (w 0), entry := num (w 1),
    pmap := num (w 2), deps := num (w 3), launchid := num (w 4),
    args := ((List.range 6).map fun i => [BitVec.ofNat 32 (w (8 + i)), BitVec.ofNat 32 (w (8 + i) / 2 ^ 32)]).flatten }

/-- R228: the two needs of a launch: channel and count. -/
def needs (d : Desc) : (Nat × Nat) × (Nat × Nat) :=
  ((d.deps.toNat % 256, d.deps.toNat / 2 ^ 8 % 256), (d.deps.toNat / 2 ^ 16 % 256, d.deps.toNat / 2 ^ 24 % 256))

/-- The launch as it enters the scheduler (R229). -/
def newLaunch (s : State) (ctx : Nat) (q : Option Nat) (d : Desc) (brew : Option (Nat × BitVec 2 × BitVec 12 × Word)) : Launch :=
  ⟨s.sched.nextLaunch, ctx, q, d, if (needs d).1.2 = 0 ∧ (needs d).2.2 = 0 then .ready else .waitdep, s.time, s.nextReq, 0, brew⟩

/-- The launches are those of s and one more. -/
def Launches (s t : State) (l : Launch) : Prop :=
  t.sched = { s.sched with launches := s.sched.launches ++ [l], nextLaunch := s.sched.nextLaunch + 1 } ∧ t.nextReq = s.nextReq + 1

/-- R228: the needs of a launch are met; both on one channel, it must hold their sum. -/
def Met (s : State) (l : Launch) : Prop :=
  let n := needs l.desc
  let have_ (c : Nat) : Nat := (mget 0 (s.ctx l.ctx).dep c).toNat
  if n.1.1 = n.2.1 then n.1.2 + n.2.2 ≤ have_ n.1.1 else n.1.2 ≤ have_ n.1.1 ∧ n.2.2 ≤ have_ n.2.1

/-- R230: launch k is served before launch l: a lower effective priority, which falls by one for each 65,536 cy of waiting (7 to 4 ns), then the
PLACING launches that keep the turn, the one placed last first, then the contexts round-robin, then the order in which they became READY. -/
def Before (s : State) (k l : Launch) : Prop :=
  let key (x : Launch) : List Nat := [x.desc.prio.toNat - (s.time - x.since) * 7 / 4 / 65536, s.sched.holders.idxOf x.num,
    (x.ctx + 63 - s.sched.turn) % 64, x.order]
  ∃ i < 4, (∀ j < i, (key k).getD j 0 = (key l).getD j 0) ∧ (key k).getD i 0 < (key l).getD i 0

/-- R232: a core is free to a context: no context holds it, or this one does and no group that has not exited is on it. -/
def FreeTo (s : State) (ctx k : Nat) : Prop := (s.core k).ctx = none ∨ ((s.core k).ctx = some ctx ∧ s.groupOf k = none)

/-- R232 and R245: the next group of l fits on the cores from number a of cluster c of die v: they are free, the cluster is not fenced, the limit of
the context allows them, and their octets have a window of accumulators for it. -/
def Fits (s : State) (l : Launch) (v c a : Nat) : Prop :=
  let core (r : Nat) : Nat := v * 12800 + c * 128 + r
  let n := l.desc.gsize
  c < 100 ∧ a + n ≤ 128 ∧ (l.desc.octalign = true → a % 8 = 0) ∧ (∀ r, r < 128 → ∀ u ∈ s.repair.fenced, unitCovers u (core r) = false) ∧
    (∀ r, r < n → FreeTo s l.ctx (core (a + r)) ∧ s.windowFree l.ctx (core (a + r) / 8) = true) ∧
    (s.cores.filter fun p => p.2.ctx = some l.ctx).length + ((List.range n).filter fun r => (s.core (core (a + r))).ctx ≠ some l.ctx).length ≤
      (s.ctx l.ctx).corelim

/-- R231: the bytes of the next group of l in the home stack of die v. -/
def homeBytes (s : State) (l : Launch) (v : Nat) : Nat := s.groupBytes l.ctx l.placed (s.homeStack v) (s.placement l.ctx l.desc.pmap)

/-- R232: the cores of die v that groups hold which have not exited. -/
def loadOf (s : State) (v : Nat) : Nat :=
  ((s.sched.groups.filter fun g => g.die = v && !g.exited && ((s.ctx g.ctx).st = .running || (s.ctx g.ctx).st = .saving)).map (·.size)).sum

/-- R232: the cores of a cluster that are free to the context of l. -/
def freeCores (s : State) (l : Launch) (v c : Nat) : Nat := ((List.range 128).filter fun r => s.coreFree l.ctx (v * 12800 + c * 128 + r)).length

/-- R232: die v is live. -/
def Live (s : State) (v : Nat) : Prop := v < 8 ∧ (s.repair.diemap.toList[v]?).map (·.1) = some true

/-- R232: the run of the next group of l: of the live dies on which it fits, that with the most bytes in its home stack, then the least load, then the
lowest number; of its clusters, that with the fewest free cores, then the lowest number; there, the lowest run. -/
def ChosenRun (s : State) (l : Launch) (v c a : Nat) : Prop :=
  Live s v ∧ Fits s l v c a ∧
    (∀ v' c' a', Live s v' → Fits s l v' c' a' → homeBytes s l v' < homeBytes s l v ∨
      (homeBytes s l v' = homeBytes s l v ∧ (loadOf s v < loadOf s v' ∨ (loadOf s v = loadOf s v' ∧ v ≤ v')))) ∧
    (∀ c' a', Fits s l v c' a' → freeCores s l v c < freeCores s l v c' ∨ (freeCores s l v c = freeCores s l v c' ∧ c ≤ c')) ∧
    ∀ a', Fits s l v c a' → a ≤ a'

/-- R230: a launch keeps its turn while groups of it are to be placed and the next of them can be. -/
def keepsTurn (s : State) (num : Nat) : Bool :=
  match s.waiting.find? fun k => k.num = num with
  | some k => k.placed ≠ k.desc.ngrp && (s.placeFor k).isSome
  | none => false

/-- Launch l stands in the scheduler's list between those of pre and post, and its number is its own. -/
def InList (s : State) (pre : List Launch) (l : Launch) (post : List Launch) : Prop :=
  s.sched.launches = pre ++ l :: post ∧ ∀ k ∈ pre ++ post, k.num ≠ l.num

/-- The answer to a peer's frame is in the send queue of its device, and of the fabric nothing else changed beside the frame taken. -/
def Answered (s t : State) (f : Frame) (code : Nat) (data : List Byte) (entry : Option Nat) : Prop :=
  t.fab = { s.fab with arrived := s.fab.arrived.erase f, applied := t.fab.applied,
                       queue := s.fab.queue ++ [⟨s.fab.devno.toNat, f.src, f.slot, f.req, f.elem, 0, 0, 0, .reply code data entry⟩] } ∧
    { t with fab := s.fab, mem := s.mem, tags := s.tags, poison := s.poison, xlats := s.xlats, crema := s.crema, fresh := s.fresh,
             waiters := s.waiters, net := s.net } = s

/-- R278 and R286: frame f is the first of its source slot that has arrived and is not applied; PCOLL's blocks have an order among themselves no
more than with the rest. -/
def FirstOf (s : State) (f : Frame) : Prop :=
  ∃ before after, s.fab.arrived = before ++ f :: after ∧
    (isBlockBody f.body = true ∨ ∀ g ∈ before, ¬(g.src = f.src ∧ g.slot = f.slot ∧ isBlockBody g.body = false))

end Sys2Proof.Claims

/-! ## Launches and the brew table -/

/-- R224 to R227 and R229: the scheduler takes a full slot of a launch queue: HEAD rises by one, the slot's first words are empty, and the launch
waits for its needs, or is ready without any; a descriptor with a reserved bit or a size outside its range is dropped with an ACCESS record. A
queue whose last launch still waits is not looked at. -/
def Sys2Proof.Claims.DescriptorsAreTaken : Prop :=
  ∀ (s : State) (n q : Nat) (hdr : Word) (log : Nat) (h k : List Nat), (s.ctx n).queues.toList[q]? = some (hdr, log) → hdr ≠ 0 →
    (s.ctx n).st = .running → s.waiters = [] → Memory.wf s.mem = true → mwf true s.tags = true →
    let a := hdr.toNat % 2 ^ 56
    let head := leNat (s.bytes (h.take 8))
    let w := descWord s k
    ((∃ l ∈ s.sched.launches, l.ctx = n ∧ l.queue = some q ∧ l.st = .waitdep) → exec (.descriptorTake n q) s = .next s) ∧
    ((∀ l ∈ s.sched.launches, l.ctx = n → l.queue = some q → l.st ≠ .waitdep) → s.queueLoc n a 64 = some h →
      s.queueLoc n (a + 128 + 128 * (head % 2 ^ log)) 128 = some k → s.isPoisoned k = false →
      ((∃ b ∈ k.take 8, s.tagFull (b / 4) = false) → exec (.descriptorTake n q) s = .next s) ∧
      ((∀ b ∈ k.take 8, s.tagFull (b / 4) = true) → (h ++ k).Nodup → ∃ u, wordAt u h 0 = num (head + 1) ∧ (∀ b, b ∉ h.take 8 → u.byte b = s.byte b) ∧
        (∀ x, u.tagFull x = if x ∈ (k.take 8).map (· / 4) then false else s.tagFull x) ∧
        { u with mem := s.mem, tags := s.tags, poison := s.poison, xlats := s.xlats, crema := s.crema, fresh := s.fresh } = s ∧
        (¬GoodDesc w → exec (.descriptorTake n q) s = .next (u.queueFault n
          { cause := 7, source := 7, tval := num head, slotid := 0, launchid := num (w 4 % 2 ^ 32), extra := 0, va := 0 })) ∧
        (GoodDesc w → ¬((s.ctx n).tbndlo.toNat ≤ w 1 ∧ w 1 ≤ (s.ctx n).tbndhi.toNat) → exec (.descriptorTake n q) s = .next (u.queueFault n
          { cause := 14, source := 7, tval := num (w 1), slotid := 0, launchid := num (w 4), extra := 0, va := 0 })) ∧
        (GoodDesc w → (s.ctx n).tbndlo.toNat ≤ w 1 → w 1 ≤ (s.ctx n).tbndhi.toNat →
          ∃ t, exec (.descriptorTake n q) s = .next t ∧ Launches u t (newLaunch s n (some q) (fieldsOf w) none) ∧ { t with sched := s.sched, nextReq := s.nextReq } = u)))

/-- R228 and R229: a launch whose needs are met, and no earlier taken launch of its context that waits with its needs met, takes its counts and
is READY. -/
def Sys2Proof.Claims.DependencesAreMet : Prop :=
  ∀ (s : State) (pre : List Launch) (l : Launch) (post : List Launch), InList s pre l post → l.st = .waitdep → (s.ctx l.ctx).st = .running →
    let n := needs l.desc
    let have_ (c : Nat) : Nat := (mget 0 (s.ctx l.ctx).dep c).toNat
    let first := ∀ k ∈ pre, k.ctx = l.ctx → k.st = .waitdep → ¬Met s k
    mwf 0 (s.ctx l.ctx).dep = true →
    (¬(Met s l ∧ first) → exec (.dependenceMet l.num) s = .next s) ∧
    (Met s l → first →
      ∃ t, exec (.dependenceMet l.num) s = .next t ∧
        t.sched = { s.sched with launches := pre ++ { l with st := .ready, since := s.time, order := s.nextReq } :: post } ∧
        (∀ c, (mget 0 (t.ctx l.ctx).dep c).toNat = have_ c - (if c = n.1.1 then n.1.2 else 0) - (if c = n.2.1 then n.2.2 else 0)) ∧
        { t.ctx l.ctx with dep := (s.ctx l.ctx).dep } = s.ctx l.ctx ∧ (∀ m, m ≠ l.ctx → t.ctx m = s.ctx m) ∧ t.nextReq = s.nextReq + 1 ∧
        { t with sched := s.sched, ctxs := s.ctxs, nextReq := s.nextReq } = s)

/-- R229 to R233: the next group of a waiting launch goes to the run that R232 chooses, if no launch before it in the order of R230 can be placed:
every core of the run is the context's, the first of them SVC, its channel 0 set for the launch, and a launch message goes to each, which for a brew
launch names kind, micro-batch and stash address. The launch keeps the turn until its last group is placed or the next cannot be, and so does one that it
overtook; after its last group it is RUNNING. -/
def Sys2Proof.Claims.GroupsArePlaced : Prop :=
  ∀ (s : State) (pre : List Launch) (l : Launch) (post : List Launch), InList s pre l post → l ∈ s.waiting →
    ((∀ v c a, Live s v → ¬Fits s l v c a) ↔ s.placeFor l = none) ∧
    (s.placeFor l = none → ∃ t, exec (.groupPlace l.num) s = .next t ∧ l.num ∉ t.sched.holders ∧
      { t with sched := { t.sched with holders := s.sched.holders } } = s) ∧
    ∀ d c f, ChosenRun s l d c f →
    let n := l.desc.gsize
    let core (r : Nat) : Nat := d * 12800 + c * 128 + f + r
    let turn := ∀ k ∈ s.waiting, Before s k l → s.placeFor k = none
    let more := l.placed + 1 < l.desc.ngrp
    let brew : Nat × Word := match l.brew with | some (_, kind, mb, a) => (2 ^ 16 + kind.toNat * 2 ^ 17 + mb.toNat * 2 ^ 20, a) | none => (0, 0)
    (¬turn → exec (.groupPlace l.num) s = .next s) ∧
    (turn → l.placed < l.desc.ngrp → ∃ t, exec (.groupPlace l.num) s = .next t ∧
      t.sched.launches = pre ++ { l with placed := l.placed + 1, st := if more then .placing else .running } :: post ∧
      t.sched.groups = s.sched.groups ++ [⟨l.num, l.placed, l.ctx, d, c, f, n, false, false⟩] ∧ t.sched.turn = l.ctx ∧
      t.sched.holders = (l.num :: s.sched.holders.filter (· ≠ l.num)).filter (keepsTurn t) ∧
      (∀ r < n, (t.core (core r)).ctx = some l.ctx ∧ (t.core (core r)).svc = decide (r = 0) ∧
        ((s.core (core r)).ctx = none → (t.core (core r)).area = (s.ctx l.ctx).area) ∧
        (t.core (core r)).chan 0 =
          { haddr := l.desc.entry, reload := 0, count := 0, pnum := 0, busy := false, loss := false, xmbad := false, xm := l.desc.xm, mask := false,
            armed := false, prio := l.desc.prio, rlen := 16, rbase := BitVec.ofNat 16 (((t.core (core r)).area.toNat + 1) % 16 * 4096) }) ∧
      t.net = s.net ++ (List.range n).map (fun r =>
        { dest := num (coordOf (core r) + (6 + l.desc.argw) * 2 ^ 24), sender := 0, xm := l.desc.xm, ctx := l.ctx, dec := none,
          body := [BitVec.ofNat 32 l.desc.entry.toNat, BitVec.ofNat 32 (l.desc.entry.toNat / 2 ^ 32), BitVec.ofNat 32 l.placed,
            BitVec.ofNat 32 (r + (n - 1) * 256 + brew.1), BitVec.ofNat 32 brew.2.toNat, BitVec.ofNat 32 (brew.2.toNat / 2 ^ 32)] ++
            l.desc.args.take l.desc.argw,
          targets := [core r], refused := false, fabric := false,
          launch := some (l.num, l.placed, if l.desc.staged then l.desc.stage else 0), region := none, after := [] }) ∧
      (∀ k, (∀ r < n, k ≠ core r) → t.core k = s.core k) ∧ t.ctxs = s.ctxs)

/-- R229 and R234: a group whose cores are all quiescent, with its launch messages delivered and its stores performed, exits; the stores that it may
have read of other cores, which the slices of its die hold, are performed too (R155). When every group of a
launch whose groups have all been placed has triggered or exited, the launch is TRIGGERED and raises the dependence channel TCH; when all have
exited, it retires and raises RCH, after TCH if no TRIG came, and a brew launch retires its entry. -/
def Sys2Proof.Claims.GroupsExit : Prop :=
  ∀ (s : State) (pre : List Launch) (l : Launch) (post : List Launch) (before : List Group) (g : Group) (after : List Group),
    InList s pre l post → s.sched.groups = before ++ g :: after → g.launch = l.num → g.exited = false →
    (∀ h ∈ before ++ after, ¬(h.launch = l.num ∧ h.idx = g.idx)) → (∀ m ∈ s.net, ∀ x, m.launch = some x → ¬(x.1 = l.num ∧ x.2.1 = g.idx)) →
    (∀ r < g.size, let c := g.die * 12800 + g.cluster * 128 + g.first + r
      (s.core c).ctx = some g.ctx ∧ s.quiescent c = true ∧ (∀ k, (s.slot ⟨c, k⟩).performedAt 4 = true) ∧
        ∀ e ∈ s.slices, dieOf e.sl.core ≠ dieOf c) →
    mwf 0 (s.ctx l.ctx).dep = true →
    let others (p : Group → Prop) : Prop := ∀ h ∈ before ++ after, h.launch = l.num → p h
    let done (h : Group) : Prop := h.triggered = true ∨ h.exited = true
    let d := l.desc.deps
    let raised (t : State) (trig ret : Bool) : Prop :=
      (∀ k, (mget 0 (t.ctx l.ctx).dep k).toNat = min 65535 ((mget 0 (s.ctx l.ctx).dep k).toNat +
        (if trig ∧ d.getLsbD 40 ∧ k = d.toNat / 2 ^ 32 % 256 then 1 else 0) + if ret ∧ d.getLsbD 56 ∧ k = d.toNat / 2 ^ 48 % 256 then 1 else 0)) ∧
      { t.ctx l.ctx with dep := (s.ctx l.ctx).dep } = s.ctx l.ctx ∧ (∀ m, m ≠ l.ctx → t.ctx m = s.ctx m) ∧
      { t with sched := s.sched, ctxs := s.ctxs, brew := s.brew } = s
    let out := before ++ { g with exited := true } :: after
    (l.placed < l.desc.ngrp ∨ (l.st = .running ∧ ¬others done) ∨ (l.st = .triggered ∧ ¬others (·.exited = true)) →
      ∃ t, exec (.groupExit l.num g.idx) s = .next t ∧ t.sched = { s.sched with groups := out } ∧ { t with sched := s.sched } = s) ∧
    (l.desc.ngrp ≤ l.placed → l.st = .running → others done → ¬others (·.exited = true) → ∃ t, exec (.groupExit l.num g.idx) s = .next t ∧
      t.sched = { s.sched with groups := out, launches := pre ++ { l with st := .triggered } :: post } ∧ t.brew = s.brew ∧ raised t true false) ∧
    (l.desc.ngrp ≤ l.placed → l.st = .running ∨ l.st = .triggered → others (·.exited = true) → ∃ t, exec (.groupExit l.num g.idx) s = .next t ∧
      t.sched.launches = pre ++ post ∧ t.sched.groups = (before ++ after).filter (fun h => h.launch ≠ l.num) ∧
      raised t (decide (l.st = .running)) true ∧ (l.brew = none → t.brew = s.brew) ∧
      (∀ e x, l.brew = some (e, x) → e < 256 → mwf 0 s.brew.states = true →
        (∀ i, mget 0 t.brew.states i = if i = e then 2 else mget 0 s.brew.states i) ∧
        (t.brew.done = true ↔ s.brew.done = true ∨ (s.brew.armed = true ∧ s.brew.last < s.brew.head ∧
          ∀ i < 256, s.brew.first ≤ i → i ≤ s.brew.last → mget 0 t.brew.states i = 2)) ∧
        { t.brew with states := s.brew.states, done := s.brew.done } = s.brew))

/-- R235 to R237: the head of an armed window launches when its channels and stash slot allow, with its template, stage, kind, micro-batch and stash
address; it takes one count from each channel it waits on and a READ entry holds its stash slot. While no group of the window runs, a head that waits for its
upstream channel counts an upstream bubble, one that waits for its downstream channel alone a downstream one, and one that waits for its stash slot or,
under SERIAL, for a running entry a resources one, as do launches whose groups are still to be placed; with no owner nothing is counted. -/
def Sys2Proof.Claims.BrewEntriesLaunch : Prop :=
  ∀ (s : State),
    let b := s.brew
    let e := (mget 0 b.entries b.head).toNat
    let chan (c : Nat) : Nat := (mget 0 b.chans c).toNat
    let up := e / 2 ^ 40 % 64
    let down := e / 2 ^ 48 % 64
    let place := e / 2 ^ 32 % 64
    let stash := mget Stash.init b.stash place
    let owner (n : Nat) : Prop := (s.ctxs.find? fun c => c.2.brewown && c.2.st ≠ .free).map (·.1) = some n
    let head : Prop := b.armed = true ∧ b.done = false ∧ b.head ≤ b.last
    let serialHeld : Prop := b.serial = true ∧ ∃ i < 256, b.first ≤ i ∧ i ≤ b.last ∧ mget 0 b.states i = 1
    let upMet : Prop := e.testBit 46 = true → 1 ≤ chan up
    let downMet : Prop := e.testBit 54 = true → e / 2 ^ 56 ≤ chan down
    let stashMet : Prop := e % 4 = 0 → e.testBit 38 = true → stash.held = none
    let idle : Prop := (∀ g ∈ s.sched.groups, g.exited = true) ∧
      ∀ l ∈ s.sched.launches, ∀ x, l.brew = some x → l.desc.ngrp ≤ l.placed
    (s.ctxs = [] → ∃ t, exec .brewEvaluate s = .next t ∧ t = { s with brew := { b with cause := 0 } }) ∧
    (∀ n, owner n → (s.ctx n).st = .running → head → idle → e.testBit 46 = true → chan up = 0 → ∃ t, exec .brewEvaluate s = .next t ∧
      t = { s with brew := { b with cause := 1, up := b.up + 1 } }) ∧
    (∀ n, owner n → (s.ctx n).st = .running → head → idle → upMet → ¬downMet → ∃ t, exec .brewEvaluate s = .next t ∧
      t = { s with brew := { b with cause := 2, down := b.down + 1 } }) ∧
    (∀ n, owner n → (s.ctx n).st = .running → head → idle → upMet → downMet → ¬stashMet ∨ serialHeld → ∃ t, exec .brewEvaluate s = .next t ∧
      t = { s with brew := { b with cause := 3, res := b.res + 1 } }) ∧
    (∀ n, owner n → (s.ctx n).st = .running → b.armed = true → b.done = false → b.last < b.head → (∀ g ∈ s.sched.groups, g.exited = true) →
      (∃ l ∈ s.sched.launches, ∃ i x, l.brew = some (i, x) ∧ b.first ≤ i ∧ i ≤ b.last ∧ l.placed < l.desc.ngrp) →
      ∃ t, exec .brewEvaluate s = .next t ∧ t = { s with brew := { b with cause := 3, res := b.res + 1 } }) ∧
    (∀ n, owner n → (s.ctx n).st = .running → head → idle → ¬serialHeld → upMet → downMet → (e.testBit 54 = true → 1 ≤ e / 2 ^ 56) → stashMet →
      mwf 0 b.chans = true → mwf 0 b.states = true → mwf Stash.init b.stash = true → (e.testBit 46 = true → e.testBit 54 = true → up ≠ down) →
      ∃ t, exec .brewEvaluate s = .next t ∧
        Launches s t (newLaunch s n none { descOf (mget [] b.templates (e / 2 ^ 28 % 16)) with staged := true, stage := BitVec.ofNat 8 (e / 2 ^ 8) }
          (some (b.head, BitVec.ofNat 2 e, BitVec.ofNat 12 (e / 2 ^ 16), if e.testBit 38 then stash.addr else 0))) ∧
        t.brew.head = b.head + 1 ∧ (∀ i, mget 0 t.brew.states i = if i = b.head then 1 else mget 0 b.states i) ∧
        (∀ c, (mget 0 t.brew.chans c).toNat =
          chan c - (if e.testBit 46 ∧ c = up then 1 else 0) - (if e.testBit 54 ∧ c = down then 1 else 0)) ∧
        (∀ i, mget Stash.init t.brew.stash i = if e % 4 = 0 ∧ e.testBit 38 ∧ i = place then { stash with held := some (BitVec.ofNat 12 (e / 2 ^ 16)) }
          else mget Stash.init b.stash i) ∧
        { t with sched := s.sched, brew := b, nextReq := s.nextReq } = s ∧
        { t.brew with head := b.head, states := b.states, chans := b.chans, stash := b.stash, cause := b.cause } = b)

/-- R241, R277 and R282: a post adds its count to its channel, at most to 65,535, in the order of its slot's posts. A post of this package ends
its request; a peer's, in the order of its slot, is answered with 0, or with 2 when no grant entry lets its device post. -/
def Sys2Proof.Claims.PostsArrive : Prop :=
  ∀ (s : State) (i : Nat),
    let sum (m : SMap (BitVec 16)) (ch : BitVec 8) (n : BitVec 16) (c : Nat) : Nat :=
      if c = ch.toNat then min 65535 ((mget 0 m c).toNat + n.toNat) else (mget 0 m c).toNat
    (∀ p : Post, s.posts[i]? = some p →
      let t0 := { s with posts := s.posts.eraseIdx i }
      let behind := ∃ q ∈ s.posts.take i, q.slot = p.slot ∧ q.dependence = p.dependence ∧ q.ch = p.ch
      (behind → exec (.brwpostArrival i) s = .next s) ∧
      (¬behind → p.dependence = true → mwf 0 (s.ctx p.ctx).dep = true → ∃ t, exec (.brwpostArrival i) s = .next t ∧
        (∀ c, (mget 0 (t.ctx p.ctx).dep c).toNat = sum (s.ctx p.ctx).dep p.ch p.count c) ∧ OneSlot s t p.slot (without (s.slot p.slot) p.req) ∧
        { t.ctx p.ctx with dep := (s.ctx p.ctx).dep } = s.ctx p.ctx ∧ (∀ m, m ≠ p.ctx → t.ctx m = s.ctx m) ∧
        { t with cores := s.cores, ctxs := s.ctxs } = t0) ∧
      (¬behind → p.dependence = false → mwf 0 s.brew.chans = true → ∃ t, exec (.brwpostArrival i) s = .next t ∧
        (∀ c, (mget 0 t.brew.chans c).toNat = sum s.brew.chans p.ch p.count c) ∧ OneSlot s t p.slot (without (s.slot p.slot) p.req) ∧
        { t with cores := s.cores, brew := s.brew } = t0 ∧ { t.brew with chans := s.brew.chans } = s.brew)) ∧
    (∀ f dep ch count, s.fab.arrived[i]? = some f → f.body = .post dep ch count →
      let i' : Instr := .brwpostArrival (s.posts.length + i)
      let granted := ∃ x ∈ s.fab.grants, x.2.recalled = false ∧ x.2.brew = true ∧ x.2.gdev.toNat = f.src ∧ (s.ctx x.2.ctx.toNat).brewown = true
      (¬FirstOf s f → exec i' s = .next s) ∧
      (FirstOf s f → mwf 0 s.brew.chans = true → ∃ t code, exec i' s = .next t ∧ (granted → code = 0) ∧ (¬granted → code = 2) ∧
        Answered s { t with brew := s.brew } f code [] none ∧ t.fab.applied = s.fab.applied ∧
        (∀ c, (mget 0 t.brew.chans c).toNat = if code = 0 then sum s.brew.chans ch count c else (mget 0 s.brew.chans c).toNat) ∧
        t.mem = s.mem ∧ t.net = s.net ∧ { t.brew with chans := s.brew.chans } = s.brew))

namespace Sys2Proof.Claims

/-! ## The fabric -/

/-- Steps between two places of a ring of ten, the shorter way. -/
def ringAway (a b : Nat) : Nat := min ((a + 10 - b) % 10) ((b + 10 - a) % 10)

/-- R8 and R266: hops between two cluster routers of the 10 × 10 torus. -/
def away (p q : Nat) : Nat := ringAway (p % 10) (q % 10) + ringAway (p / 10) (q / 10)

/-- Packet q is packet p one cy later, at a router next to it. -/
def Hop (p q : Packet) : Prop := q = { p with pos := q.pos, age := min 4095 (p.age + 1) } ∧ q.pos < 100 ∧ away p.pos q.pos = 1

/-- R271: slot n of the table in force is current at offset o inside it. -/
def SlotNow (s : State) (n o : Nat) : Prop :=
  let e (i : Nat) : Nat := ((s.fab.slots.toList.take (s.fab.ctrl.toNat % 128)).map (fun x => x.1.toNat / 2 ^ 32)).getD i 0
  let start (i : Nat) : Nat := ((List.range i).map e).sum
  s.fab.ctrl.toNat / 256 % 2 = 1 ∧ s.fab.rotbase.toNat ≤ s.time ∧ n < s.fab.ctrl.toNat % 128 ∧ n < 64 ∧
    (s.time - s.fab.rotbase.toNat) % start (min 64 (s.fab.ctrl.toNat % 128)) = start n + o ∧ o < e n

/-- R270: what doubleword 1 of slot n names for port die p: a valid destination with its device number. -/
def Names16 (s : State) (n p dev : Nat) : Prop := p < 4 ∧ ((s.fab.slots.toList.map fun e => e.2.toNat).getD n 0) / 2 ^ (16 * p) % 2 ^ 16 = 2 ^ 15 + dev

/-- R272: the window of slot n is open at offset o. -/
def WindowOpen (s : State) (n o : Nat) : Prop :=
  let d := (s.fab.slots.toList.map fun e => e.1.toNat).getD n 0
  o + d % 2 ^ 32 < d / 2 ^ 32

/-- R299: an error-log record in the next free place of the log, the host and the kernel told; with no free place, LOGDROP counts. -/
def Logged (s t : State) (event unit cause : Nat) (ctx : Option Nat) (location extent repl count : Nat) : Prop :=
  let r := s.repair
  let n := if r.elogbase.toNat % 16 = 0 then 0 else 2 ^ (r.elogbase.toNat % 16)
  let used := r.eloghead.toNat - r.elogtail.toNat
  let k := keysFrom (r.elogbase.toNat / 4096 % 2 ^ 28 * 4096 + 64 * (r.eloghead.toNat % n)) 64
  (n ≤ used → t = { s with repair := { r with logdrop := BitVec.ofNat 16 (min 65535 (r.logdrop.toNat + 1)) } }) ∧
    (used < n → r.elogtail.toNat ≤ r.eloghead.toNat → Memory.wf s.mem = true →
      (∀ i v, [event + 2 ^ 8 * unit + 2 ^ 16 * cause + (match ctx with | some c => 2 ^ 32 * c + 2 ^ 38 | none => 0), location, extent, s.time, repl,
        count, 0, 0][i]? = some v → wordAt t k i = num v) ∧ (∀ b, b ∉ k → t.byte b = s.byte b) ∧
      t.repair = { r with eloghead := r.eloghead + 1 } ∧ t.host = { s.host with msi := s.host.msi ++ [0] } ∧
      t.sched = { s.sched with ints := s.sched.ints ++ [(s.routeInt 0, 4, r.eloghead)] } ∧
      { t with mem := s.mem, poison := s.poison, repair := r, host := s.host, sched := s.sched } = s)

/-- R275: entry i is the lowest-indexed loaded one that serves n bytes of device dev at a window offset. -/
def Serves (s : State) (dev off n i : Nat) (g : Grant) : Prop :=
  let fits (g : Grant) : Prop := g.gdev.toNat = dev ∧ g.wlo ≤ off ∧ off + n ≤ g.whi
  ∃ before after, s.fab.grants = before ++ (i, g) :: after ∧ fits g ∧ ∀ x ∈ before, ¬fits x.2

/-- The LDN request number n of a slot outside a remote region ends with a code of R281: its register is poisoned with cause REMOTEFAIL; beside
the slot only the fabric may have changed. -/
def LdnFails (s t : State) (sl : SlotId) (n code dev : Nat) (rd : Reg) : Prop :=
  Poisons (s.slot sl) (t.slot sl) rd 10 (num (code + dev * 2 ^ 40)) ∧ OneSlot s t sl { without (s.slot sl) n with gt := (t.slot sl).gt } ∧
    { t with cores := s.cores, fab := s.fab } = s

/-- No near-bank unit is at work on the bank where l lies. -/
def NoUnit (s : State) (l : Loc) : Prop := l.ms = true → s.unitAt l.bank = none

/-- A frame that is numbered and waits for a step of its own once it is taken in: an access, a message or a post. -/
def Waiting (b : FrameBody) : Prop := (∃ op, b = .access op) ∨ (∃ m, b = .msg m) ∨ ∃ d c n, b = .post d c n

/-- The key of a slot and a device in the tables of sequence numbers. -/
def flow (dev : Nat) (sl : SlotId) : Nat := dev * 2 ^ 19 + sl.core * 4 + sl.slot.val

/-- Every end of the die links has paid back the credits that it owed. -/
def NothingOwed (s : State) : Prop := ∀ x (k : Fin 4), (s.kdpEnd x).owed[k] = 0

/-- A packet of channel vc can cross from end e: it has one of the 16 slots of its channel at the other end, or one of the pool (R268). -/
def HasSlot (s : State) (e vc : Nat) : Prop :=
  (s.kdpEnd e).spent.toList.getD vc 0 < 16 ∨ ((s.kdpEnd e).spent.toList.map fun n => n - 16).sum < Config.poolSlots

/-- Of the die links only end e, the packets on their way and what is named of ports may have changed. -/
def OnlyEnd (s t : State) (e : Nat) : Prop := (∀ x, x ≠ e → t.kdpEnd x = s.kdpEnd x) ∧ { t with kdp := s.kdp } = s

/-- The port at an end of the hub link to die port e / 2: that of the die, or the hub, 0. -/
def portOf (e : Nat) : Nat := if e % 2 = 0 then e / 2 else 0

/-- The other end of a link. -/
def otherEnd (e : Nat) : Nat := if e % 2 = 0 then e + 1 else e - 1

/-- R316: the header of a packet with n data flits, a CTX field, and m credits of channel c. -/
def header (type : Nat) (seq : BitVec 12) (n src dst ctx c m : Nat) : Word :=
  num (([0, 0, 0, 0, 0, 1, 1, 2, 2, 3, 3, 3, 3, 3, 3, 3].getD type 0) * 2 ^ 62 + type * 2 ^ 56 + seq.toNat * 2 ^ 44 + n % 8 * 2 ^ 41 +
    src % 256 * 2 ^ 33 + dst % 256 * 2 ^ 25 + ctx % 64 * 2 ^ 19 + c * 2 ^ 17 + m * 2 ^ 12)

/-- The packet that brings one credit of channel c back from end e, and where it is on its way to (R316; log 48). -/
def creditBack (e c : Nat) : Nat × KdpPacket := (otherEnd e, ⟨header 12 0 0 (portOf e) (portOf (otherEnd e)) 0 c 1, 0, [], none⟩)

end Sys2Proof.Claims

/-! ## Routers, slots and frames -/

/-- R266: in a cy of a die every packet of the torus leaves its router, each by a port of its own: it is delivered at its target, or makes a hop to a
router next to its own; the oldest goes one hop nearer to its target, or to the local port there; a packet whose way is taken is deflected; a core injects
only where a port is free. Packets of other dies stay, and nothing else changes. No router holds more than four packets, one for each of its ports. -/
def Sys2Proof.Claims.TorusPacketsMove : Prop :=
  ∀ (s : State) (die : Nat) (picks : List Nat) (inject : List (Nat × Nat)), ∃ t, exec (.routerCycle die picks inject) s = .next t ∧
    { t with fab := { t.fab with torus := s.fab.torus } } = s ∧
    t.fab.torus.filter (fun p => p.die ≠ die) = s.fab.torus.filter (fun p => p.die ≠ die) ∧
    (let here := s.fab.torus.filter fun p => p.die = die
     (∀ p ∈ here, p.pos < 100 ∧ p.target < 100) → (∀ a, (here.filter fun p => p.pos = a).length ≤ 4) →
      ∃ (out : List (Packet × Option Packet)) (new : List Packet), (out.map (·.1)).Perm here ∧
        t.fab.torus.filter (fun p => p.die = die) = out.filterMap (·.2) ++ new ∧
        (∀ x ∈ out, (x.2 = none → x.1.pos = x.1.target) ∧ ∀ q, x.2 = some q → Hop x.1 q) ∧
        out.Pairwise (fun x y => x.1.pos = y.1.pos → x.2.map (·.pos) ≠ y.2.map (·.pos)) ∧
        ∀ q ∈ new, ∃ x ∈ inject, Hop ⟨die, x.1, x.1, x.2, 0⟩ q ∧
          ∀ y ∈ out, y.1.pos = x.1 → y.2.map (·.pos) ≠ some q.pos) ∧
    (∀ p rest, s.fab.torus = p :: rest → p.die = die → p.pos < 100 → p.target < 100 → p.age ≤ 4095 →
      (∀ q ∈ rest, q.die = die → q.age < p.age ∨ (q.age = p.age ∧ p.src < q.src)) → p.pos ≠ p.target →
      ∃ q, q ∈ t.fab.torus ∧ Hop p q ∧ away q.pos p.target + 1 = away p.pos p.target) ∧
    (∀ p, s.fab.torus = [p] → p.die = die → p.pos = p.target → inject = [] → t.fab.torus = []) ∧
    (∀ p q, s.fab.torus = [p, q] → p.die = die → q.die = die → p.pos < 100 → p.target < 100 → q.pos = p.pos → q.target = p.target →
      away p.pos p.target = 1 → q.age < p.age → p.age ≤ 4095 → inject = [] →
      ∃ p' q', t.fab.torus = [p', q'] ∧ Hop p p' ∧ Hop q q' ∧ p'.pos = p.target ∧ q'.pos ≠ q.target) ∧
    (∀ a b, s.fab.torus = [] → a < 100 → b < 100 → a ≠ b → inject = [(a, b)] →
      ∃ q, t.fab.torus = [q] ∧ Hop ⟨die, a, a, b, 0⟩ q ∧ away q.pos b + 1 = away a b) ∧
    (∀ p1 p2 p3 p4 a b, s.fab.torus = [p1, p2, p3, p4] → (∀ p ∈ s.fab.torus, p.die = die ∧ p.pos = a ∧ p.target ≠ a) → a ≠ b → inject = [(a, b)] →
      t.fab.torus.length = 4)

/-- R268, R316 and R317: a packet with a reserved type, a type on the wrong virtual channel or more than four data flits is dropped, its credit
goes back, and a record of EVENT 2 counts for the link. A good one returns credits, with which a packet that waited crosses, and takes a buffer slot; one
that has been applied before frees it again, one ahead of its turn is held; an identify request in its turn is answered with the die's vendor code and
word, a read with the bytes at its address; at the hub a packet is forwarded to its target's link and a copy is kept until it is answered, and without a
slot there it waits. One slot for a packet whatever its length, credits that go with the packets of the lowest channel that owes some and else in packets
of their own at the end of a step, the payload's layout, and the length of a read's answer are the model's choices (log 48), as is the record's link as
UNIT 12 (log 58). -/
def Sys2Proof.Claims.KdpPacketsAct : Prop :=
  ∀ (link e : Nat) (h0 h1 : Word) (data : List Byte) (pre post : List (Nat × KdpPacket)) (s : State),
    let i : Instr := .kdpPacket link h0 h1
    let type := h0.toNat / 2 ^ 56 % 64
    let vc := h0.toNat / 2 ^ 62
    let vcs : List Nat := [9, 0, 0, 0, 0, 1, 1, 2, 2, 3, 3, 3, 3, 3, 3, 3]
    let src := h0.toNat / 2 ^ 33 % 256
    let dst := h0.toNat / 2 ^ 25 % 256
    let ctx := h0.toNat / 2 ^ 19 % 64
    let seq := BitVec.ofNat 12 (h0.toNat / 2 ^ 44)
    let good := 1 ≤ type ∧ type ≤ 15 ∧ vcs[type]? = some vc ∧ h0.toNat / 2 ^ 41 % 8 ≤ 4
    let d := s.kdpEnd e
    let f := pre ++ post
    let p : KdpPacket := ⟨h0, h1, data, some e⟩
    let bare : Word := h0 &&& ~~~0x7F000#64
    let plus (v w : Vector Nat 4) (c n : Nat) : Prop := ∀ k : Fin 4, w[k] = v[k] + if k.val = c then n else 0
    1 ≤ link → link ≤ 20 → e / 2 = link → s.kdp.flight = pre ++ (e, ⟨h0, h1, data, none⟩) :: post →
    (∀ q ∈ pre, ¬(q.1 / 2 = link ∧ q.2.h0 = h0 ∧ q.2.h1 = h1)) → s.repair.rerouted = [] → s.repair.links = [] → NothingOwed s →
    (¬good → ∃ u t, exec i s = .next t ∧ Logged u t 2 12 0 none link 0 0 (s.eventsIn (.link link)) ∧ OnlyEnd s u e ∧ u.kdpEnd e = d ∧
      u.kdp.ports = s.kdp.ports ∧ u.kdp.flight = f ++ [creditBack e vc]) ∧
    (good → type = 12 → let c := h0.toNat / 2 ^ 17 % 4
      let n := h0.toNat / 2 ^ 12 % 32
      let minus (w : Vector Nat 4) (m : Nat) : Prop := ∀ k : Fin 4, w[k] = if k.val = c then d.spent[k] - n + m else d.spent[k]
      (d.queue = [] → ∃ t, exec i s = .next t ∧ OnlyEnd s t e ∧ t.kdp.ports = s.kdp.ports ∧ t.kdp.flight = f ∧
        minus (t.kdpEnd e).spent 0 ∧ { t.kdpEnd e with spent := d.spent } = d) ∧
      (∀ q : KdpPacket, d.queue = [q] → c = 0 → q.h0.toNat / 2 ^ 62 = 0 → q.slot = none → d.spent[0] < n + 16 →
        ∃ t, exec i s = .next t ∧ OnlyEnd s t e ∧ t.kdp.ports = s.kdp.ports ∧
          t.kdp.flight = f ++ [(otherEnd e, { q with h0 := q.h0 &&& ~~~0x7F000#64 })] ∧ minus (t.kdpEnd e).spent 1 ∧ (t.kdpEnd e).queue = [] ∧
          (t.kdpEnd e).used = d.used)) ∧
    (good → type ≠ 12 → h0.toNat / 2 ^ 12 % 32 = 0 → d.queue = [] →
      let q := s.kdpPort dst
      let ahead := seq - mget 0 q.next (src * 4 + vc)
      let inTurn : Prop := ahead = 0 ∧ q.held = [] ∧ mwf 0 q.next = true ∧ mwf 0 q.sent = true ∧ src ≠ 0
      (e = 2 * link → dst = link →
        (2048 ≤ ahead.toNat → ∃ t, exec i s = .next t ∧ OnlyEnd s t e ∧ t.kdpEnd e = d ∧ t.kdp.ports = s.kdp.ports ∧
          t.kdp.flight = f ++ [creditBack e vc]) ∧
        (ahead ≠ 0 → ahead.toNat < 2048 → ∃ t, exec i s = .next t ∧ OnlyEnd s t e ∧ plus d.used (t.kdpEnd e).used vc 1 ∧
          { t.kdpEnd e with used := d.used } = d ∧ t.kdp.flight = f ∧ t.kdpPort dst = { q with held := q.held ++ [p] } ∧
          ∀ x, x ≠ dst → t.kdpPort x = s.kdpPort x) ∧
        (type = 14 ∨ type = 1 → inTurn → let c := if type = 14 then 3 else 1
          d.spent.toList.getD c 0 < 16 → ∃ t bs, exec i s = .next t ∧ (∀ x, x ≠ e → t.kdpEnd x = s.kdpEnd x) ∧
            { t with kdp := s.kdp, fresh := s.fresh } = s ∧ plus d.spent (t.kdpEnd e).spent c 1 ∧ { t.kdpEnd e with spent := d.spent } = d ∧
            (type = 14 → bs = toBytes 8 (Config.vendor link).toNat ++ toBytes 8 (Config.identity link).toNat) ∧
            (type = 1 → (∃ n ≤ 4, bs.length = 48 + 64 * n) ∧ bs = (List.range bs.length).map fun k => s.byte (h1.toNat % 2 ^ 40 + k)) ∧
            t.kdp.flight = f ++ [(otherEnd e, ⟨header (if type = 14 then 15 else 5) (mget 0 q.sent (src * 4 + c)) ((bs.length - 48) / 64) link src
              (if type = 14 then 0 else ctx) vc 1, if type = 14 then 0 else h1, bs, none⟩)] ∧
            (∀ k, mget 0 (t.kdpPort dst).next k = if k = src * 4 + vc then seq + 1 else mget 0 q.next k) ∧
            ∀ k, mget 0 (t.kdpPort dst).sent k = mget 0 q.sent k + if k = src * 4 + c then 1 else 0)) ∧
      (e = 2 * link + 1 → dst ≠ link → 1 ≤ dst → dst ≤ 20 → vc = 0 → 1 ≤ src →
        let o := 2 * dst + 1
        let kept (t : State) : Prop := (∀ x, x ≠ src → t.kdpPort x = s.kdpPort x) ∧
          t.kdpPort src = (let y := s.kdpPort src
            if y.asked.any fun a => (a.h0 &&& ~~~0x7F000#64) = bare && a.h1 = h1 then y else { y with asked := y.asked ++ [p] })
        (s.kdpEnd o).queue = [] → ∃ t, exec i s = .next t ∧ (∀ x, x ≠ e → x ≠ o → t.kdpEnd x = s.kdpEnd x) ∧ { t with kdp := s.kdp } = s ∧ kept t ∧
          (¬HasSlot s o 0 → plus d.used (t.kdpEnd e).used vc 1 ∧ { t.kdpEnd e with used := d.used } = d ∧ t.kdp.flight = f ∧
            t.kdpEnd o = { s.kdpEnd o with queue := [p] }) ∧
          (HasSlot s o 0 → t.kdpEnd e = d ∧ plus (s.kdpEnd o).spent (t.kdpEnd o).spent 0 1 ∧
            { t.kdpEnd o with spent := (s.kdpEnd o).spent } = s.kdpEnd o ∧
            t.kdp.flight = f ++ [(2 * dst, ⟨bare, h1, data, none⟩), creditBack e vc])))

/-- R271 and R273: the table and TIME alone say which slot is current, so its boundary changes nothing; at the first rotation boundary after the last
pending load, the loaded entries and control pair take effect together, and before it nothing does. -/
def Sys2Proof.Claims.PendingSlotTablesTakeEffect : Prop :=
  ∀ (s : State),
    let f := s.fab
    let p := ((f.slots.toList.take (f.ctrl.toNat % 128)).map fun e => e.1.toNat / 2 ^ 32).sum
    exec .slotBoundary s = .next s ∧ (∀ n o, f.current s.time = some (n, o) ↔ SlotNow s n o) ∧
    (f.ctrl.toNat / 256 % 2 = 1 → f.rotbase.toNat ≤ f.pendAt → f.pendAt ≤ s.time → 1 ≤ p →
      ((¬∃ k, f.pendAt < f.rotbase.toNat + k * p ∧ f.rotbase.toNat + k * p ≤ s.time) → exec .rotationBoundary s = .next s) ∧
      (∀ k, f.pendAt < f.rotbase.toNat + k * p → f.rotbase.toNat + k * p ≤ s.time → (f.pendSlots ≠ [] ∨ f.pendCtrl ≠ none) →
        ∃ t, exec .rotationBoundary s = .next t ∧ t.fab.pendSlots = [] ∧ t.fab.pendCtrl = none ∧
          (f.pendCtrl = none → t.fab.ctrl = f.ctrl ∧ t.fab.rotbase = f.rotbase) ∧
          (∀ c, f.pendCtrl = some c → t.fab.ctrl = c.1 ∧ t.fab.rotbase = c.2) ∧
          (∀ i (h : i < 64), (∀ x ∈ f.pendSlots, x.1 ≠ i) → t.fab.slots[i] = f.slots[i]) ∧
          (∀ before x after, f.pendSlots = before ++ x :: after → (∀ y ∈ after, y.1 ≠ x.1) → ∀ h : x.1 < 64, t.fab.slots[x.1] = x.2) ∧
          { t with fab := { f with slots := t.fab.slots, ctrl := t.fab.ctrl, rotbase := t.fab.rotbase, pendSlots := t.fab.pendSlots,
                                   pendCtrl := t.fab.pendCtrl } } = t ∧ { t with fab := f } = s))

/-- R272, R278, R279 and R306: while the window of the current slot is open and names a device for a live port die, the port dies that it names
serve the device's queue in turn: the first packet leaves, numbered if it has no number and its kind has one, and stays as a retransmit copy if
the die has room for it; the first block leaves only if its charge on the live wavelengths ends by the window's end; outside the window nothing
leaves. One turn of the port dies for packets and blocks together (log 55), the room of retransmitSpace + 1 copies (log 54) and that a receipt alone has
no copy (log 26) are the model's choices. -/
def Sys2Proof.Claims.WindowsSendTheFirstFrame : Prop :=
  ∀ (s : State) (port dev n o : Nat), SlotNow s n o →
    let x := s.fab
    let waves (p : Nat) : Nat := (x.waves.toList[p]?).getD 0
    let open_ (p : Nat) : Prop := WindowOpen s n o ∧ Names16 s n p dev ∧ waves p ≠ 0
    let rank (p : Nat) : Nat := (p + 7 - mget 3 x.turn dev % 4) % 4
    let turn := open_ port ∧ ∀ q < 4, open_ q → rank port ≤ rank q
    let left := ((x.slots.toList.map fun e => e.1.toNat / 2 ^ 32 - e.1.toNat % 2 ^ 32).getD n 0) - o
    let first (f : Frame) (block : Bool) : Prop := ∃ before after, x.queue = before ++ f :: after ∧ f.dst = dev ∧ isBlockBody f.body = block ∧
      ∀ g ∈ before, ¬(g.dst = dev ∧ isBlockBody g.body = block)
    let room := (x.sent.filter fun g => g.port = port).length ≤ Config.retransmitSpace
    let seq (f : Frame) : Nat := if f.seq = 0 ∧ isNumbered f.body = true then mget 0 x.next (flow dev f.slot) + 1 else f.seq
    let leaves (t : State) (f : Frame) : Prop := t.fab.queue = x.queue.erase f ∧ mget 3 t.fab.turn dev = port ∧
      (∀ d, d ≠ dev → mget 3 t.fab.turn d = mget 3 x.turn d) ∧
      t.fab.sent = (if isKept f.body then x.sent ++ [{ f with port := port, seq := seq f }] else x.sent) ∧
      (∀ k, mget 0 t.fab.next k = if k = flow dev f.slot ∧ f.seq = 0 ∧ isNumbered f.body = true then seq f else mget 0 x.next k) ∧
      { t with fab := { t.fab with queue := x.queue, sent := x.sent, next := x.next, turn := x.turn, busy := x.busy, leaving := x.leaving } } = s
    mwf 3 x.turn = true → mwf 0 x.next = true →
    (∀ block, ¬turn → exec (.windowSend port dev block) s = .next s) ∧
    (turn →
      (∀ f block, first f block → isKept f.body = true → ¬room → exec (.windowSend port dev block) s = .next s) ∧
      (∀ f, first f false → isKept f.body = false ∨ room → ∃ t, exec (.windowSend port dev false) s = .next t ∧ leaves t f ∧
        t.fab.busy = x.busy ∧ t.fab.leaving = x.leaving) ∧
      (∀ f off bs r w y z, first f true → f.body = .block off bs r w y z → (∀ b, x.busy.toList[port]? = some b → b ≤ s.time) →
        let charge := (bs.length * 192 + 1024 * waves port - 1) / (1024 * waves port)
        (left < charge → exec (.windowSend port dev true) s = .next s) ∧
        (charge ≤ left → room → ∃ t, exec (.windowSend port dev true) s = .next t ∧ leaves t f ∧
          t.fab.leaving = (dev, s.time + charge) :: x.leaving.filter (fun p => s.time < p.2) ∧
          ∀ q b, t.fab.busy.toList[q]? = some b → if q = port then b = s.time + charge else x.busy.toList[q]? = some b)))

/-- R269, R278 and R280: a frame whose source the current slot does not name for the port die is discarded. A numbered one is taken in when its
number is the next of its source slot, with those held behind it, is held behind a gap, and is dropped if it came before; blocks have no number. A
frame that a full buffer trims sends a pull to its source and leaves its number open; at the ninth trim it fails with code 3 and its number is
passed over. An answer ends its request, with a receipt to its source, and a frame that a pull asked for ends the copy of the pull. Numbers on accesses,
messages and posts alone and passing over the number of a failed operation (log 52), and the receipt of code 14 (log 26), are the model's choices. -/
def Sys2Proof.Claims.FramesAreTakenInOrder : Prop :=
  ∀ (s : State) (port n o : Nat) (f : Frame) (full : Bool), SlotNow s n o →
    let x := s.fab
    let k := flow f.src f.slot
    let last := mget 0 x.expect k
    let i (full : Bool) : Instr := .frameReceive port full f
    let sent := x.sent.filter fun g => !(g.body = .pull (isReply f.body) && sameElement f g && g.dst = f.src)
    let with_ (t : State) (held : List (Bool × Frame)) (arrived queue : List Frame) (num : Nat) : Prop :=
      (∀ j, mget 0 t.fab.expect j = if j = k then num else mget 0 x.expect j) ∧
        t = { s with fab := { x with held := held, arrived := arrived, queue := queue, expect := t.fab.expect, sent := sent } }
    let back (b : FrameBody) : List Frame := x.queue ++ [⟨x.devno.toNat, f.src, f.slot, f.req, f.elem, 0, 0, 0, b⟩]
    (¬(Names16 s n port f.src ∧ f.dst = x.devno.toNat) → exec (i full) s = .next s) ∧
    (Names16 s n port f.src → f.dst = x.devno.toNat → mwf 0 x.expect = true →
      (Waiting f.body → f.seq = last + 1 → x.held = [] → ∃ t, exec (i false) s = .next t ∧ with_ t [] (x.arrived ++ [f]) x.queue f.seq) ∧
      (∀ h, Waiting f.body → Waiting h.body → f.seq = last + 1 → h.seq = last + 2 → h.src = f.src → h.slot = f.slot → x.held = [(false, h)] →
        ∃ t, exec (i false) s = .next t ∧ with_ t [] (x.arrived ++ [f, h]) x.queue h.seq) ∧
      (Waiting f.body → last + 1 < f.seq → (∀ p ∈ x.held, ¬(p.2.src = f.src ∧ p.2.slot = f.slot ∧ p.2.seq = f.seq)) →
        f.src < 2 ^ 15 → (∀ p ∈ x.held, p.2.slot.core < 2 ^ 17 ∧ p.2.src < 2 ^ 15) → f.slot.core < 2 ^ 17 →
        ∃ t, exec (i false) s = .next t ∧ with_ t (x.held ++ [(false, f)]) x.arrived x.queue last) ∧
      (Waiting f.body → 0 < f.seq → f.seq ≤ last → ∃ t, exec (i false) s = .next t ∧ with_ t x.held x.arrived x.queue last) ∧
      (∀ off bs r w y z, f.body = .block off bs r w y z → ∃ t, exec (i false) s = .next t ∧ with_ t x.held (x.arrived ++ [f]) x.queue last) ∧
      (Waiting f.body → f.trims < 8 → ∃ t, exec (i true) s = .next t ∧ with_ t x.held x.arrived (back (.pull false)) last) ∧
      (Waiting f.body → 8 ≤ f.trims → f.seq = last + 1 → x.held = [] → ∃ t, exec (i true) s = .next t ∧
        with_ t [] x.arrived (back (.reply 3 [] none)) f.seq) ∧
      (∀ code data entry u, f.body = .reply code data entry → code ≠ 14 → sent = x.sent → exec (.acknowledgement f.slot (f.req, f.elem) f.src code data) s = .next u →
        exec (i false) s = .next { u with fab := { u.fab with
          queue := u.fab.queue ++ [⟨u.fab.devno.toNat, f.src, f.slot, f.req, f.elem, 0, 0, 0, .reply 14 [] none⟩] } }))

/-- R269, R280 and R281: a pull has the source send the frame again from its retransmit copy, ahead of its queue, one trim later if it was
trimmed, and at the ninth trim the request fails with code 3; when a port die loses its circuit, the unacknowledged requests to the device it
serves fail with code 1, and their copies stay, which is the model's choice (log 52). -/
def Sys2Proof.Claims.PullsResendAndLostLinksFail : Prop :=
  ∀ (s : State),
    (∀ idx trimmed, s.fab.sent.length ≤ idx → exec (.pull (idx, trimmed)) s = .next s) ∧
    (∀ idx f, s.fab.sent[idx]? = some f →
      let again (k : Nat) : State := { s with fab := { s.fab with sent := s.fab.sent.erase f, queue := { f with trims := f.trims + k } :: s.fab.queue } }
      exec (.pull (idx, false)) s = .next (again 0) ∧ (f.trims < 8 → isTrimmable f.body = true → exec (.pull (idx, true)) s = .next (again 1)) ∧
      (∀ r rd z p ea op, 8 ≤ f.trims → f.body = .access op → (s.slot f.slot).req f.req = some r → r.kind = .ldn rd z p ea → r.region = false →
        f.dst < 2 ^ 15 → ∃ t, exec (.pull (idx, true)) s = .next t ∧ LdnFails s t f.slot f.req 3 f.dst rd ∧
          t.fab = { s.fab with sent := s.fab.sent.erase f })) ∧
    (∀ n o port dev f r rd z p ea op, SlotNow s n o → Names16 s n port dev → s.fab.sent = [f] → f.dst = dev → f.port = port → f.body = .access op →
      (s.slot f.slot).req f.req = some r → r.kind = .ldn rd z p ea → r.region = false →
      ∃ t, exec (.linkDown port) s = .next t ∧ LdnFails s t f.slot f.req 1 dev rd ∧ t.fab = s.fab) ∧
    (∀ port, s.fab.sent = [] → exec (.linkDown port) s = .next s)

/-- R275 and R278: a peer's access is served in the order of its slot, through the lowest grant entry that covers it, at VABASE plus the distance from
WLO in the entry's context: reads answer what memory holds, writes and AMOs change it, a synchronising load of an empty word waits there; with no
entry it fails with code 2, without the permission or a translation with code 6. Code 12, for poisoned data with the place of the first poisoned byte and
for a walk that met uncorrectable data, is the model's choice (log 26). At a bank where a near-bank unit runs an access waits for its turn (R218, R223). -/
def Obligations.PeerAccessesAreServed : Prop :=
  ∀ (s : State) (f : Frame) (op : PeerOp), f.body = .access op →
    (¬FirstOf s f → exec (.peerAccess f) s = .next s) ∧
    (FirstOf s f →
      (∀ o n, op = .read o n → (∀ i g, ¬Serves s f.src o n i g) → ∃ t, exec (.peerAccess f) s = .next t ∧ Answered s t f 2 [] none ∧ SameMemory s t) ∧
      (∀ i g, Serves s f.src (peerAsk op).1 (peerAsk op).2.1 i g → g.recalled = true → exec (.peerAccess f) s = .next s) ∧
      (∀ i g, Serves s f.src (peerAsk op).1 (peerAsk op).2.1 i g → g.recalled = false →
        let ag : Agent := ⟨g.ctx.toNat, none, false⟩
        let va := g.vabase + ((peerAsk op).1 - g.wlo)
        (∀ o n, op = .read o n →
          (g.r = false → ∃ t, exec (.peerAccess f) s = .next t ∧ Answered s t f 6 [] (some i) ∧ SameMemory s t) ∧
          (g.r = true → (∀ e, s.resolve ag va n permR = .error e → ∃ t, exec (.peerAccess f) s = .next t ∧
              Answered s t f (if e = 12 then 12 else 6) [] (some i) ∧ SameMemory s t) ∧
            (∀ l, s.resolve ag va n permR = .ok l → l.ms = true → s.unitAt l.bank = some false → ⟨l.bank, .peer f⟩ ∉ s.carafe.waiting →
              ∃ t, exec (.peerAccess f) s = .next t ∧ t.carafe.waiting = s.carafe.waiting.filter s.stillWaits ++ [⟨l.bank, .peer f⟩] ∧
                { t with carafe := { t.carafe with waiting := s.carafe.waiting } } = s) ∧
            (∀ l b, s.resolve ag va n permR = .ok l → NoUnit s l → b < l.keys.length → (∀ j k, l.keys[j]? = some k → (mget false s.poison (k / 4) = true → b ≤ j) ∧
                (j = b → mget false s.poison (k / 4) = true)) →
              ∃ t, exec (.peerAccess f) s = .next t ∧ Answered s t f 12 (toBytes 8 b) (some i) ∧ SameMemory s t) ∧
            (∀ l, s.resolve ag va n permR = .ok l → NoUnit s l → s.isPoisoned l.keys = false → ∃ t, exec (.peerAccess f) s = .next t ∧
              Answered s t f 0 (l.keys.map s.byte) (some i) ∧ SameMemory s t))) ∧
        (∀ o bs, op = .write o bs → (g.w = false → ∃ t, exec (.peerAccess f) s = .next t ∧ Answered s t f 6 [] (some i) ∧ SameMemory s t) ∧
          (∀ l, g.w = true → s.resolve ag va bs.length permW = .ok l → NoUnit s l → s.sliceOver computeCores l.keys = false → s.poison = [] → Memory.wf s.mem = true → l.keys.Nodup →
            ∃ t, exec (.peerAccess f) s = .next t ∧ Answered s t f 0 [] (some i) ∧ Stored s t l (leNat bs) ∧ t.tags = s.tags)) ∧
        (∀ fn o b c l, op = .amo fn true o b c → g.r = true → g.w = true → fn ≤ 9 → s.resolve ag va 8 permRW = .ok l → NoUnit s l → s.sliceOver computeCores l.keys = false → s.poison = [] →
          Memory.wf s.mem = true → l.keys.Nodup → l.keys.length = 8 →
          let old := leNat (s.bytes l.keys)
          ∃ t, exec (.peerAccess f) s = .next t ∧ Answered s t f 0 (l.keys.map s.byte) (some i) ∧ t.tags = s.tags ∧
            (fn = 0 → Stored s t l ((old + b.toNat) % 2 ^ 64)) ∧ (fn = 8 → Stored s t l b.toNat) ∧
            (fn = 9 → Stored s t l (if old = c.toNat then b.toNat else old))) ∧
        (∀ o n l, op = .syncLoad o n false → g.r = true → s.resolve ag va n permR = .ok l → NoUnit s l → s.isPoisoned l.keys = false →
          ((l.tagged = false ∨ ∀ k ∈ l.keys, s.tagFull (k / 4) = true) → ∃ t, exec (.peerAccess f) s = .next t ∧
            Answered s t f 0 (l.keys.map s.byte) (some i) ∧ SameMemory s t) ∧
          (l.tagged = true → (∃ k ∈ l.keys, s.tagFull (k / 4) = false) → ∃ t, exec (.peerAccess f) s = .next t ∧
            t.fab = { s.fab with arrived := s.fab.arrived.erase f } ∧ SameMemory s t ∧ t.waiters = s.waiters ++
              [⟨⟨allCores, 0⟩, f.req, l.keys.headD 0, l.keys.length, .peer f i g.ctx.toNat va⟩]))))

/-- R277 and R282: a peer's message goes, in the order of its slot, to the context of the lowest grant entry of its device with MSG; with none it is
dropped with a record of EVENT 11, cause ACCESS and source 8, and is answered. That the record names no context and the answer is 0 is the model's choice
(log 57). -/
def Sys2Proof.Claims.PeerMessagesAreRouted : Prop :=
  ∀ (s : State) (dev : Nat) (m : Msg) (f : Frame) (before after : List Frame), s.fab.arrived = before ++ f :: after → f.src = dev → f.body = .msg m →
    (∀ g ∈ before, ¬(g.src = dev ∧ g.body = .msg m)) → FirstOf s f →
    (∀ pre i g post, s.fab.grants = pre ++ (i, g) :: post → g.recalled = false → g.gdev.toNat = dev → g.msg = true →
      (∀ x ∈ pre, ¬(x.2.recalled = false ∧ x.2.gdev.toNat = dev ∧ x.2.msg = true)) →
      exec (.peerMessage dev m) s = .next { s with
        fab := { s.fab with arrived := s.fab.arrived.erase f },
        net := s.net ++ [{ m with region := some (f.slot, f.req), ctx := g.ctx.toNat, fabric := true, refused := false, launch := none, after := [] }] }) ∧
    ((∀ x ∈ s.fab.grants, ¬(x.2.recalled = false ∧ x.2.gdev.toNat = dev ∧ x.2.msg = true)) →
      ∃ u t, exec (.peerMessage dev m) s = .next t ∧ Logged s u 11 0 7 none m.dest.toNat 0 0 8 ∧ { t with fab := s.fab } = u ∧
        t.fab = { s.fab with
          arrived := s.fab.arrived.erase f,
          queue := s.fab.queue ++
            [⟨s.fab.devno.toNat, m.sender.toNat / 2 ^ 25 % 2 ^ 15, f.slot, f.req, 0, 0, 0, 0, .reply 0 [] none⟩] })

/-- R286, R287 and R290: a peer's block is applied wholly and once: PUT writes its bytes and makes each whole word full, REDUCE adds FP32 words with
tags unchanged; a NOTIFY then sends a counter message with decrement 1, and the block is acknowledged; a block that comes again is only acknowledged;
without grant it fails with code 2, without the permission with code 6. The answer 0 to a block whose NOTIFY is dropped is the model's choice (log 57). -/
def Sys2Proof.Claims.PeerBlocksAreAppliedOnce : Prop :=
  ∀ (s : State) (f : Frame) (off : Nat) (bs : List Byte) (reduce : Bool) (w sender : Word) (xm : Bool), f.body = .block off bs reduce w sender xm →
    let mark : Nat × SlotId × Nat := (f.src, f.slot, f.req)
    (¬FirstOf s f → exec (.blockApply f) s = .next s) ∧
    (FirstOf s f → mark ∈ s.fab.applied → ∃ t, exec (.blockApply f) s = .next t ∧ Answered s t f 0 [] none ∧ SameMemory s t ∧ t.net = s.net) ∧
    (FirstOf s f → mark ∉ s.fab.applied → (∀ i g, ¬Serves s f.src off bs.length i g) → ∃ t, exec (.blockApply f) s = .next t ∧
      Answered s t f 2 [] none ∧ SameMemory s t) ∧
    (∀ i g, FirstOf s f → mark ∉ s.fab.applied → Serves s f.src off bs.length i g → g.recalled = false →
      let ag : Agent := ⟨g.ctx.toNat, none, false⟩
      let va := g.vabase + (off - g.wlo)
      ((g.w = false ∨ (reduce = true ∧ g.r = false)) → ∃ t, exec (.blockApply f) s = .next t ∧ Answered s t f 6 [] (some i) ∧ SameMemory s t) ∧
      (∀ l, g.w = true → g.r = true → s.resolve ag va bs.length (if reduce then permRW else permW) = .ok l → 0 < bs.length → va % 65536 + bs.length ≤ 65536 →
        bs.length % 4 = 0 → l.keys = keysFrom (l.keys.headD 0) bs.length → l.keys.headD 0 % 4 = 0 → s.poison = [] → s.waiters = [] →
        (l.ms = true → ∀ k ∈ l.keys, s.unitAt (bankOf k) = none) → s.sliceOver computeCores l.keys = false → Memory.wf s.mem = true → mwf true s.tags = true →
        (w = 0 ∨ ∃ x ∈ s.fab.grants, x.2.recalled = false ∧ x.2.gdev.toNat = f.src ∧ x.2.msg = true) → ∃ t, exec (.blockApply f) s = .next t ∧ Answered s t f 0 [] (some i) ∧
          t.fab.applied = mark :: s.fab.applied ∧ (∀ k, k ∉ l.keys → t.byte k = s.byte k) ∧
          (reduce = false → (∀ j b, bs[j]? = some b → t.byte (l.keys.headD 0 + j) = b) ∧ Tagged s t l true) ∧
          (reduce = true → t.tags = s.tags ∧ ∀ j, 4 * j < bs.length →
            t.read (l.keys.headD 0 + 4 * j) 4 =
              (fAdd 0 0 (BitVec.ofNat 32 (s.read (l.keys.headD 0 + 4 * j) 4)) (BitVec.ofNat 32 (leNat ((bs.drop (4 * j)).take 4)))).1.toNat) ∧
          (w = 0 → t.net = s.net) ∧
          (∀ pre e post, w ≠ 0 → w.toNat / 2 ^ 9 % 128 < 100 → s.fab.grants = pre ++ e :: post → e.2.recalled = false → e.2.gdev.toNat = f.src → e.2.msg = true →
            (∀ x ∈ pre, ¬(x.2.recalled = false ∧ x.2.gdev.toNat = f.src ∧ x.2.msg = true)) →
            t.net = s.net ++ [{ dest := w, sender := sender, xm := xm, ctx := e.2.ctx.toNat, dec := some 1, body := [], targets := [coreOf w],
                                refused := false, fabric := true, launch := none, region := none, after := [] }])))

namespace Sys2Proof.Claims

/-! ## Host, errors and repair -/

/-- The host's part of the state is now h, and nothing else changed. -/
def HostIs (s t : State) (h : HostSide) : Prop := t = { s with host := h }

/-- R311: t is s with the entries of these ports written in the topology table: 16 bytes each, in port order from physical address 0x1000; vendor code
and identity word are those of the last answer to an identify request, or those that boot found (R316). -/
def Entries (s t : State) (ports : List Nat) : Prop :=
  let at_ (p : Nat) : Nat := 0x1000 + 16 * p
  let words (p : Nat) : Word × Word := (mfind s.kdp.idents p).getD ((Config.vendor p).setWidth 64, Config.identity p)
  { t with mem := s.mem, poison := s.poison } = s ∧
    (Memory.wf s.mem = true → (∀ b, (∀ p ∈ ports, b < at_ p ∨ at_ p + 16 ≤ b) → t.byte b = s.byte b) ∧ ∀ p ∈ ports, t.read (at_ p + 1) 1 = p ∧
      (Config.present p = false → t.read (at_ p) 1 = 0xFF ∧ t.read (at_ p + 2) 6 = 0 ∧ t.read (at_ p + 8) 8 = 0) ∧
      (Config.present p = true →
        t.read (at_ p) 1 = (if p = 0 then 1 else if p ≤ 8 then 2 else if p ≤ 16 then 3 else 4) ∧
        t.read (at_ p + 4) 2 = (words p).1.toNat % 2 ^ 16 ∧ t.read (at_ p + 6) 2 = 0 ∧ t.read (at_ p + 8) 8 = (words p).2.toNat ∧
        t.read (at_ p + 3) 1 = (if p ∈ s.repair.links then 0 else if p = 0 then (Config.modules p).toNat else if p ≤ 8 then 1 else if p ≤ 16 then 16
          else 3) ∧
        (p = 0 → t.read (at_ p + 2) 1 = 8) ∧
        (9 ≤ p → p ≤ 16 → t.read (at_ p + 2) 1 = if RUnit.dramStack (p - 9) ∈ s.repair.retired then 0 else 8) ∧
        (∀ n : Fin 4, p = 17 + n.val → t.read (at_ p + 2) 1 = if s.fab.waves[n] = 0 then 0 else 8) ∧
        (∀ v : Fin 8, 1 ≤ p → p ≤ 8 → s.repair.diemap[v] = (true, BitVec.ofNat 3 (p - 1)) →
          (∀ u : Fin 8, u < v → s.repair.diemap[u] ≠ (true, BitVec.ofNat 3 (p - 1))) → t.read (at_ p + 2) 1 = v.val + 8) ∧
        (1 ≤ p → p ≤ 8 → (∀ v : Fin 8, s.repair.diemap[v] ≠ (true, BitVec.ofNat 3 (p - 1))) → t.read (at_ p + 2) 1 = 0)))

/-- The physical die that a virtual one names (R9). -/
def physOf (s : State) (d : Nat) : Nat := (s.repair.diemap.toList.map fun p => p.2.toNat).getD d 0

/-- R295 and R299: UNIT, LOCATION and EXTENT of a unit, or of the unit that a finer resource belongs to, in the error log; the spec gives no place of a Crema unit, a slice or a pour engine, so
each of those is a free value. -/
def placeOf (s : State) : RUnit → Nat × Nat × Nat
  | .dramRow st ch b r => (1, st * 2 ^ 37 + r * 2 ^ 21 + b * 2 ^ 16 + ch * 2 ^ 11, 2 ^ 11)
  | .dramBank st ch b => (2, st * 2 ^ 37 + b * 2 ^ 16 + ch * 2 ^ 11, 2 ^ 27)
  | .dramStack st | .channel st _ | .dramDie st _ | .carafe st => (3, st * 2 ^ 37, 2 ^ 37)
  | .cremaFrame .. => (4, (Config.freeValue s.fresh).toNat, (Config.freeValue (s.fresh + 1)).toNat)
  | .cremaBank .. => (5, (Config.freeValue s.fresh).toNat, (Config.freeValue (s.fresh + 1)).toNat)
  | .slice _ => (6, (Config.freeValue s.fresh).toNat, 0)
  | .pour _ => (7, (Config.freeValue s.fresh).toNat, 0)
  | .core c => (8, coordOf c + physOf s (c / 12800) * 2 ^ 61, 0)
  | .cluster d c | .router d c | .matrixEngine d c | .copyUnit d c | .sramTier d c => let k := d * 12800 + c * 128; (9, coordOf k + physOf s (k / 12800) * 2 ^ 61, 0)
  | .die d => let k := d * 12800; (10, coordOf k + physOf s d * 2 ^ 61, 0)
  | .lane l n => (11, l % 256 + n % 256 * 256, 0)
  | .link l => (12, l % 256, 0)
  | .wavelength _ f w => (13, f % 64 + w % 16 * 256, 0)
  | .controlCore n => (14, coordOf (102400 + n), 0)

/-- The number of free values that the record of a unit takes. -/
def freeIn : RUnit → Nat
  | .cremaFrame .. | .cremaBank .. => 2
  | .slice _ | .pour _ => 1
  | _ => 0

/-- Unit u is a part of unit v (R295). -/
def PartOf : RUnit → RUnit → Prop
  | .dramRow st ch b _, .dramBank st' ch' b' => st = st' ∧ ch = ch' ∧ b = b'
  | .dramRow st _ _ _, .dramStack st' | .dramBank st _ _, .dramStack st' => st = st'
  | .cremaFrame b _, .cremaBank b' => b = b'
  | .lane l _, .link l' => l = l'
  | .core k, .cluster d c => k / 12800 = d ∧ k / 128 % 100 = c
  | .core k, .die d => k / 12800 = d
  | .cluster e _, .die d => e = d
  | _, _ => False

/-- R295: nothing takes the place of a retired unit of the kind. -/
def Unreplaced : RUnit → Prop
  | .dramRow .. | .dramBank .. | .lane .. | .core _ | .cluster .. => False
  | _ => True

/-- Neither unit u nor one that it is part of is fenced, or retired with nothing in its place. -/
def Standing (s : State) (u : RUnit) : Prop :=
  (∀ v ∈ s.repair.fenced, v ≠ u ∧ ¬PartOf u v) ∧ ∀ v ∈ s.repair.retired, Unreplaced v → v ≠ u ∧ ¬PartOf u v

/-- R295: the unit of a resource: the smallest that contains it. -/
def unitWith : RUnit → RUnit
  | .channel st _ | .dramDie st _ | .carafe st => .dramStack st
  | .router d c | .matrixEngine d c | .copyUnit d c | .sramTier d c => .cluster d c
  | u => u

/-- R299: a record of an event of unit u. -/
def UnitLogged (s t : State) (event : Nat) (u : RUnit) (cause repl count : Nat) : Prop :=
  let p := placeOf s u
  Logged { s with fresh := s.fresh + freeIn u } t event p.1 cause none p.2.1 p.2.2 repl count

/-- R295: unit u is retired, `rest` the retired units beside it: SERVICE is set, with its interrupt to the host the first time; records say that it
is retired and, where a spare stands in at once, which; the rest of its effect lies between; the entry of a die in the topology table is written
again. -/
def RetiredAs (s t : State) (u : RUnit) (rest : List RUnit) (spare : Option Nat) (n : Nat) (effect : State → State → Prop) (port : Option Nat) : Prop :=
  ∃ b c d, UnitLogged { s with
      repair := { s.repair with retired := rest ++ [u], service := true },
      host := if s.repair.service then s.host else { s.host with msi := s.host.msi ++ [1] } } b 3 u 0 (spare.getD 0) n ∧
    effect b c ∧ (match spare with | some k => UnitLogged c d 4 u 0 k n | none => d = c) ∧ (match port with | some p => Entries d t [p] | none => t = d)

/-- R293: a step makes u lasting, by n corrected events within the window (EVENT 1) or by an uncorrectable one (EVENT 2); `times` are then the
events that are kept of every resource. -/
def MakesLasting (i : Instr) (s : State) (u : RUnit) (event cause n : Nat) (times : List (RUnit × List Nat)) : Prop :=
  let w := s.repair.errwin.toNat * 1000
  let ts := s.repair.timesOf u
  let last := (ts ++ [s.time]).drop (ts.length + 1 - 16)
  (i = .uncorrectableError u none ∧ event = 2 ∧ cause = 12 ∧ n = (ts.filter fun x => s.time - x < w).length ∧ times = s.repair.times) ∨
    (i = .correctedError u ∧ event = 1 ∧ cause = 0 ∧ last.length = 16 ∧ (∀ x ∈ last, x ≤ s.time ∧ s.time - x < w) ∧ n = 16 ∧
      times = (s.repair.times.filter fun q => q.1 ≠ u) ++ [(u, last)])

/-- R213, R214 and R295: every place that holds a row for which p holds is marked, to lose it at the next resume, and the retired unit v is being copied
to its spare until TIME passes; nothing else changes. -/
def LosesRows (b c : State) (v : RUnit) (p : Nat → Bool) : Prop :=
  let lose (q : Nat × Hold) : Nat × Hold := (q.1, { q.2 with retired := q.2.retired || (q.2.row.map fun x => p x.2).getD false })
  c = { b with repair := { b.repair with copying := (b.repair.copying.filter fun q => q.2 = b.time) ++ [(v, b.time)] }, ctxs := b.ctxs.map fun q => (q.1, { q.2 with holds := q.2.holds.map lose, savedRows := q.2.savedRows.map lose }) }

/-- R305: the way round hub link l: the hub link of a neighbour of its die in the ring that is live and whose ring link and hub link have not failed
(ring link 21 + d is that between dies d and d + 1, log 23). -/
def Way (s : State) (l via : Nat) : Prop :=
  ∃ next, (next = l % 8 + 1 ∧ 20 + l ∉ s.repair.links ∨ next = (l + 6) % 8 + 1 ∧ 20 + next ∉ s.repair.links) ∧
    (∃ v : Fin 8, s.repair.diemap[v] = (true, BitVec.ofNat 3 (next - 1)) ∧ RUnit.die v.val ∉ s.repair.fenced) ∧ next ∉ s.repair.links ∧ via = next

/-- The number of the ring link between the dies at two ports that are neighbours (log 23). -/
def ringLink (p q : Nat) : Nat := if q = p % 8 + 1 then 20 + p else 20 + q

/-- No traffic goes round by link l: neither as the hub link of a neighbour nor as the ring link to one. -/
def CarriesNone (s : State) (l : Nat) : Prop := ∀ p ∈ s.repair.rerouted, p.2 ≠ l ∧ ringLink p.1 p.2 ≠ l

/-- R299 and R305: the traffic of failed hub link l, at which nothing waits, goes round by a neighbour, with a record of EVENT 6; with no way, it
does not. -/
def GoesRound (s t : State) (l : Nat) : Prop :=
  let rest := s.repair.rerouted.filter fun p => p.1 ≠ l
  let n := ((s.repair.timesOf (.link l)).filter fun x => s.time - x < s.repair.errwin.toNat * 1000).length
  ((∀ via, ¬Way s l via) → t = { s with repair := { s.repair with rerouted := rest } }) ∧
    ((∃ via, Way s l via) → (s.kdpEnd (2 * l)).queue = [] → (s.kdpEnd (2 * l + 1)).queue = [] → NothingOwed s →
      ∃ via a, Way s l via ∧ a.repair = { s.repair with rerouted := rest ++ [(l, via)] } ∧ (∀ e, a.kdpEnd e = s.kdpEnd e) ∧
        (∀ p, a.kdpPort p = s.kdpPort p) ∧ a.kdp.flight = s.kdp.flight ∧ { a with repair := s.repair, kdp := s.kdp } = s ∧ Logged a t 6 12 0 none (l % 256) 0 0 n)

/-- R303: the contents of a context that is out name no core of die a but name it b; a block of die b in an octet of which the context has cores of
die a too keeps a name of its own, which is the model's choice (log 61). -/
def Renamed (gen : Nat) (c d : Ctx) (a b : Nat) : Prop :=
  let shares (k : Nat) : Bool := k / 12800 = b && c.savedCores.any fun q => q.coord / 12800 = a && q.coord % 12800 / 8 = k % 12800 / 8
  d.savedCores.map (·.coord) =
    c.savedCores.map (fun k => if shares k.coord then k.coord + 204800 * (gen + 1)
      else if k.coord / 12800 = a then b * 12800 + k.coord % 12800 else k.coord)

end Sys2Proof.Claims

/-! ## Bring-up and the host -/

/-- R310: power good starts phase 1; a phase that ends leaves what the rule says and the next begins; one that fails stops the boot with FAIL and
DETAIL. Phase 1 takes the device number unless it is 0x7FFF, 3 empties DRAM, 4 sets the die map, in physical order (the model's choice, log 41), and
the topology table (R311), 5 TIME, 6 starts the kernel, 7 shows the device to the host. What a phase finds comes with the step (log 11). -/
def Obligations.BootRunsItsPhases : Prop :=
  ∀ (s : State) (detail : BitVec 8) (val : Word),
    let h := s.host
    let go := exec (.bootPhase true detail val) s
    let u : State := { s with host := { h with phase := if h.phase = 7 then 7 else h.phase + 1 } }
    (h.powered = true → exec .powerGood s = .next s) ∧
    (h.powered = false → ∃ t, exec .powerGood s = .next t ∧ HostIs s t { h with powered := true, phase := 1 }) ∧
    (∀ ok, (h.phase = 0 ∨ h.fail = true ∨ h.up = true) → exec (.bootPhase ok detail val) s = .next s) ∧
    (h.phase ≠ 0 → h.fail = false → h.up = false →
      (∃ t, exec (.bootPhase false detail val) s = .next t ∧ HostIs s t { h with fail := true, detail := detail }) ∧
      (h.phase = 1 → val.toNat % 2 ^ 15 = 0x7FFF → go = .next u) ∧
      (h.phase = 1 → val.toNat % 2 ^ 15 ≠ 0x7FFF →
        go = .next { u with fab := { s.fab with devno := BitVec.ofNat 15 (val.toNat % 2 ^ 15), devset := true } }) ∧
      (h.phase = 2 → go = .next u) ∧
      (h.phase = 3 → Memory.wf s.mem = true → mwf true s.tags = true → ∃ t, go = .next t ∧ (∀ k, t.byte k = if k < 2 ^ 40 then 0 else s.byte k) ∧
        (∀ w, t.tagFull w = if w < 2 ^ 38 then true else s.tagFull w) ∧ { t with mem := s.mem, tags := s.tags, poison := s.poison } = u) ∧
      (h.phase = 4 → ∃ t, go = .next t ∧
        (∀ v p : Fin 8, t.repair.diemap[v] = (true, BitVec.ofFin p) ↔
          val.getLsbD p.val = true ∧ ((List.range p.val).filter fun q => val.getLsbD q).length = v.val) ∧
        Entries { u with repair := { s.repair with diemap := t.repair.diemap },
                         sched := { s.sched with ctxtab := num (val.toNat % 2 ^ 40 / 2 ^ 14 * 2 ^ 14) } } t (List.range 21)) ∧
      (h.phase = 5 → let time := max s.time val.toNat
        go = .next { u with time := time, repair := { s.repair with exchanged := time, periodEnd := time + s.repair.timectl.toNat / 2 ^ 12 % 2 ^ 20 * 1000 } }) ∧
      (h.phase = 6 → ∃ t, go = .next t ∧ (∀ sl : SlotId, t.slot sl = if 102400 ≤ sl.core ∧ sl.core < 102416 ∧ sl.slot = 0 then
          { s.slot sl with pc := num (val.toNat / 4 * 4), act := some ⟨.kernel, 0, none⟩, wait := .ready } else s.slot sl) ∧
        (∀ n, { t.core n with slots := (s.core n).slots } = s.core n) ∧ { t with cores := s.cores } = u) ∧
      (h.phase = 7 → go = .next { u with host := { u.host with up := true } }))

/-- R312 to R314; that an offset of BAR0 that no rule names ignores writes is the model's choice (log 70): host writes of BAR0 registers that the rule lets take effect, the one write of DEVNUM, the read that clears HOSTSTAT, bytes written
through BAR2 without tags, but not into a part of a poisoned word (R297); anything else changes nothing. The host reads the mirrors, its registers,
a doorbell's index and bytes through BAR2. The clock goes by one step of 25 MHz, bounded (log 11's model of power). -/
def Sys2Proof.Claims.HostAccessesAct : Prop :=
  ∀ (s : State),
    let h := s.host
    exec .unsupportedRequest s = .next s ∧
    (h.up = false → exec .hoststat s = .next s ∧ (∀ v, exec (.devnum v) s = .next s) ∧ (∀ o v, exec (.hostRegisterWrite o v) s = .next s) ∧
      (∀ o b, exec (.hostMemoryWrite o b) s = .next s) ∧ (∀ c q v, exec (.doorbell c q v) s = .next s)) ∧
    (h.up = true →
      (∃ t, exec .hoststat s = .next t ∧ HostIs s t { h with dbbad := 0 }) ∧
      (∀ v, (s.fab.devset = true ∨ v.toNat % 2 ^ 15 = 0x7FFF ∨ ∃ c ∈ s.ctxs, c.2.st ≠ .free) → exec (.devnum v) s = .next s) ∧
      (∀ v, s.fab.devset = false → v.toNat % 2 ^ 15 ≠ 0x7FFF → (∀ c ∈ s.ctxs, c.2.st = .free) →
        exec (.devnum v) s = .next { s with fab := { s.fab with devno := BitVec.ofNat 15 (v.toNat % 2 ^ 15), devset := true } }) ∧
      (∀ v, ∃ t, exec (.hostRegisterWrite 0x18 v) s = .next t ∧ HostIs s t { h with bar2sel := BitVec.ofNat 4 (v.toNat % 16) }) ∧
      (∀ v, 1000 ≤ v.toNat → v.toNat ≤ 3600 →
        ∃ t, exec (.hostRegisterWrite 0x100 v) s = .next t ∧ HostIs s t { h with pwrlim := BitVec.ofNat 16 v.toNat }) ∧
      (∀ v, ¬(1000 ≤ v.toNat ∧ v.toNat ≤ 3600) → exec (.hostRegisterWrite 0x100 v) s = .next s) ∧
      (∀ o v, o ≠ 0x18 → o ≠ 0x100 → exec (.hostRegisterWrite o v) s = .next s) ∧
      (∀ o bs, o + bs.length ≤ 2 ^ 36 → Memory.wf s.mem = true → ∃ t, exec (.hostMemoryWrite o bs) s = .next t ∧
        (∀ k, t.byte k = if h.bar2sel.toNat * 2 ^ 36 + o ≤ k ∧ k < h.bar2sel.toNat * 2 ^ 36 + o + bs.length
            ∧ (mget false s.poison (k / 4) = false ∨ h.bar2sel.toNat * 2 ^ 36 + o ≤ k / 4 * 4 ∧ k / 4 * 4 + 4 ≤ h.bar2sel.toNat * 2 ^ 36 + o + bs.length)
          then bs.getD (k - (h.bar2sel.toNat * 2 ^ 36 + o)) 0 else s.byte k) ∧ { t with mem := s.mem, poison := s.poison } = s)) ∧
    (∀ power temp : BitVec 16,
      (h.pwrlim.toNat < power.toNat → h.clockSteps < 69 →
        ∃ t, exec (.pwrlimClockStep (power, temp)) s = .next t ∧ HostIs s t { h with pwrnow := power, tempmax := temp, clockSteps := h.clockSteps + 1 }) ∧
      (power.toNat ≤ h.pwrlim.toNat →
        ∃ t, exec (.pwrlimClockStep (power, temp)) s = .next t ∧ HostIs s t { h with pwrnow := power, tempmax := temp, clockSteps := h.clockSteps - 1 })) ∧
    s.bar0 0x10 = s.repair.eloghead ∧ (s.bar0 0x08).toNat = h.phase.toNat + (if h.fail then 16 else 0) + 256 * h.detail.toNat ∧
    (s.bar0 0x18).toNat = h.bar2sel.toNat ∧ (s.bar0 0x20).toNat = h.dbbad.toNat ∧ (s.bar0 0x100).toNat = h.pwrlim.toNat ∧
    (s.bar0 0x28).toNat = s.fab.devno.toNat + (if s.fab.devset then 2 ^ 15 else 0) ∧ (s.bar0 0x108).toNat = h.pwrnow.toNat ∧
    (s.bar0 0x110).toNat = h.tempmax.toNat ∧
    (∀ n q r, n < 64 → (s.ctx n).rung.toList[q]? = some r → s.bar0 (0x10000 + 64 * n + 8 * q) = r) ∧
    (∀ o n, o + n ≤ 2 ^ 36 → s.bar2 o n = (List.range n).map fun k => s.byte (h.bar2sel.toNat * 2 ^ 36 + o + k))

/-- R314: a doorbell sets full the first pair of every slot from the index last rung to T - 1, and T becomes that index; with T out of range, a FREE
context, no such queue, or a pair that cannot be set, nothing is filled and DBBAD rises by one. -/
def Sys2Proof.Claims.DoorbellsFillSlots : Prop :=
  ∀ (s : State) (n q : Nat) (t : Word) (hdr : Word) (log : Nat) (r : Word), s.host.up = true → n < 64 →
    (s.ctx n).queues.toList[q]? = some (hdr, log) → (s.ctx n).rung.toList[q]? = some r →
    let bad := ∃ u, exec (.doorbell n q t) s = .next u ∧ HostIs s u { s.host with dbbad := BitVec.ofNat 16 (min 65535 (s.host.dbbad.toNat + 1)) }
    let pair (i : Nat) : Nat := hdr.toNat % 2 ^ 56 + 128 + 128 * (i % 2 ^ log)
    let inRange := (s.ctx n).st ≠ .free ∧ hdr ≠ 0 ∧ r.toNat < t.toNat ∧ t.toNat ≤ r.toNat + 2 ^ log
    (¬inRange → bad) ∧
    (inRange → (∃ i, r.toNat ≤ i ∧ i < t.toNat ∧ ∀ l, s.resolve ⟨n, none, false⟩ (pair i) 8 permW = .ok l → l.tagged = false) → bad) ∧
    (∀ at_ : Nat → Loc, inRange → (∀ i, r.toNat ≤ i → i < t.toNat → s.resolve ⟨n, none, false⟩ (pair i) 8 permW = .ok (at_ i) ∧
        (at_ i).tagged = true) → s.waiters = [] → mwf true s.tags = true →
      ∃ u, exec (.doorbell n q t) s = .next u ∧
        (∀ w, (∃ i, r.toNat ≤ i ∧ i < t.toNat ∧ ∃ k ∈ (at_ i).keys, k / 4 = w) → u.tagFull w = true) ∧
        (∀ w, (∀ i, r.toNat ≤ i → i < t.toNat → ∀ k ∈ (at_ i).keys, k / 4 ≠ w) → u.tagFull w = s.tagFull w) ∧
        (u.ctx n).rung.toList[q]? = some t ∧ (∀ p, p ≠ q → (u.ctx n).rung.toList[p]? = (s.ctx n).rung.toList[p]?) ∧
        { u.ctx n with rung := (s.ctx n).rung } = s.ctx n ∧ (∀ m, m ≠ n → u.ctx m = s.ctx m) ∧
        { u with ctxs := s.ctxs, tags := s.tags } = s)

/-! ## Errors and repair -/

/-- R292, R293 and R297: a corrected event adds its time to the last 16 of its resource, and beside making it lasting changes nothing; an
uncorrectable event of a memory word poisons it, its value and tag as they were. -/
def Sys2Proof.Claims.ErrorsAreCounted : Prop :=
  ∀ (s : State) (u : RUnit),
    let ts := s.repair.timesOf u ++ [s.time]
    let last := ts.drop (ts.length - 16)
    ((last.length < 16 ∨ s.repair.errwin.toNat * 1000 ≤ s.time - last.headD 0) →
      ∃ t, exec (.correctedError u) s = .next t ∧ t.repair.timesOf u = last ∧ (∀ v, v ≠ u → t.repair.timesOf v = s.repair.timesOf v) ∧
        { t with repair := { t.repair with times := s.repair.times } } = s) ∧
    (∀ w, mwf false s.poison = true →
      ∃ a : State, (∀ x, mget false a.poison x = if x = w then true else mget false s.poison x) ∧ { a with poison := s.poison } = s ∧
        exec (.uncorrectableError u (some w)) s = exec (.uncorrectableError u none) a)

/-- R293, R295 to R298 and R306: a lasting unit is retired: a row, bank or lane, whose spare stands in at once, or what contains it when none is
left; a core, or its cluster at the fifth, a cluster or a die, fenced at once, its context given an UNCORR record; a stack, to be evacuated; a link, a wavelength,
a control core, a Crema unit, a slice or a pour engine, with no spare; a finer resource, such as a channel or a router, retires the unit that contains it.
That what replaces a unit starts with no events (log 58), that a control core is fenced (log 59), and that the parts of a retired unit leave the lists
(log 60) are the model's choices. -/
def Sys2Proof.Claims.LastingUnitsAreRetired : Prop :=
  ∀ (i : Instr) (s : State) (u : RUnit) (event cause n : Nat) (times : List (RUnit × List Nat)), MakesLasting i s u event cause n times → Standing s (unitWith u) →
    let R := s.repair.retired
    let as_ (v : RUnit) (rest : List RUnit) (spare : Option Nat) (keeps : Bool) (port : Option Nat) (effect : State → State → Prop) : Prop :=
      ∃ a c t, exec i s = .next t ∧ UnitLogged { s with repair := { s.repair with times := times } } a event u cause 0 n ∧
        RetiredAs a c v rest spare n effect port ∧
        t = if keeps then c else { c with repair := { c.repair with times := times.filter fun q => q.1 ≠ u } }
    let same (b c : State) : Prop := c = b
    let rows (st ch b : Nat) (v : RUnit) : Bool := match v with | .dramRow x y z _ => x == st && y == ch && z == b | _ => false
    let banks (st ch : Nat) (v : RUnit) : Bool := match v with | .dramBank x y _ => x == st && y == ch | _ => false
    let stack (st : Nat) (v : RUnit) : Bool := match v with | .dramRow x _ _ _ => x == st | .dramBank x _ _ => x == st | _ => false
    let cores (d c : Nat) (v : RUnit) : Bool := match v with | .core k => k / 12800 == d && k / 128 % 100 == c | _ => false
    let clusters (d : Nat) (v : RUnit) : Bool := match v with | .cluster e _ => e == d | _ => false
    let onDie (d : Nat) (v : RUnit) : Bool := match v with | .core k => k / 12800 == d | .cluster e _ => e == d | _ => false
    let lanes (l : Nat) (v : RUnit) : Bool := match v with | .lane x _ => x == l | _ => false
    let frames (b : Nat) (v : RUnit) : Bool := match v with | .cremaFrame x _ => x == b | _ => false
    let inRow (st ch b r pa : Nat) : Bool := pa / 2 ^ 37 % 8 * 1024 + pa / 2 ^ 11 % 32 * 32 + pa / 2 ^ 16 % 32 == st * 1024 + ch * 32 + b && pa / 2 ^ 21 % 2 ^ 16 == r
    let inBank (st ch b pa : Nat) : Bool := inRow st ch b (pa / 2 ^ 21 % 2 ^ 16) pa
    let evacuate (st : Nat) (b c : State) : Prop := UnitLogged { b with repair := { b.repair with lostMaps := (b.repair.lostMaps ++ b.allLost).dedup } } c 5 (.dramStack st) 0 0 n
    let fenced (v : RUnit) (parts : RUnit → Bool) (k : Nat) (covers : Nat → Prop) (rest : List RUnit) (port : Option Nat) : Prop :=
      let fence (b : State) : State := { b with repair := { b.repair with fenced := (s.repair.fenced.filter fun w => !parts w) ++ [v] } }
      ((∀ p ∈ s.cores, covers p.1 → p.2.ctx = none) → as_ v rest none true port fun b c => c = fence b) ∧
      (∀ m, (∀ p ∈ s.cores, covers p.1 → p.2.ctx = none ∨ p.2.ctx = some m) → (∃ p ∈ s.cores, covers p.1 ∧ p.2.ctx = some m) →
        as_ v rest none true port fun b c => c = (fence b).queueFault m
          { cause := 12, source := 7, tval := num (coordOf k), slotid := 0, launchid := 0, extra := 0, va := 0 })
    let cluster (d c : Nat) : Prop :=
      fenced (.cluster d c) (cores d c) (d * 12800 + c * 128) (fun k => k < 102400 ∧ k / 12800 = d ∧ k / 128 % 100 = c) (R.filter fun w => !cores d c w) none
    let toStack (st : Nat) : Prop := as_ (.dramStack st) (R.filter fun v => !stack st v) none true (some (9 + st)) (evacuate st)
    let toCluster (d c : Nat) : Prop := (R.filter (clusters d)).length < 4 → cluster d c
    let link (l : Nat) : Prop := as_ (.link l) (R.filter fun v => !lanes l v) none true none fun b c =>
      let d : State := { b with repair := { b.repair with links := s.repair.links ++ [l] } }
      if 1 ≤ l ∧ l ≤ 8 then GoesRound d c l else c = d
    let die (d : Nat) : Prop := CarriesNone s (physOf s d + 1) →
      fenced (.die d) (onDie d) (d * 12800) (fun k => k < 102400 ∧ k / 12800 = d) (R.filter fun w => !onDie d w) (some (physOf s d + 1))
    (∀ st ch b r, u = .dramRow st ch b r →
      ((R.filter (rows st ch b)).length < 64 →
        as_ u R (some (R.filter (rows st ch b)).length) false none fun x y => LosesRows x y u (inRow st ch b r)) ∧
      (64 ≤ (R.filter (rows st ch b)).length → (R.filter (banks st ch)).length < 2 →
        as_ (.dramBank st ch b) (R.filter fun v => !rows st ch b v) (some (R.filter (banks st ch)).length) false none fun x y => LosesRows x y (.dramBank st ch b) (inBank st ch b)) ∧
      (64 ≤ (R.filter (rows st ch b)).length → 2 ≤ (R.filter (banks st ch)).length → toStack st)) ∧
    (∀ st ch b, u = .dramBank st ch b →
      ((R.filter (banks st ch)).length < 2 →
        as_ u (R.filter fun v => !rows st ch b v) (some (R.filter (banks st ch)).length) false none fun x y => LosesRows x y u (inBank st ch b)) ∧
      (2 ≤ (R.filter (banks st ch)).length → toStack st)) ∧
    (∀ st, unitWith u = .dramStack st → toStack st) ∧
    (∀ k, u = .core k → k < 102400 →
      ((R.filter (cores (k / 12800) (k / 128 % 100))).length < 4 → fenced u (fun _ => false) k (fun x => x = k) R none) ∧
      (4 ≤ (R.filter (cores (k / 12800) (k / 128 % 100))).length →
        toCluster (k / 12800) (k / 128 % 100) ∧ (4 ≤ (R.filter (clusters (k / 12800))).length → die (k / 12800)))) ∧
    (∀ d c, unitWith u = .cluster d c → toCluster d c ∧ (4 ≤ (R.filter (clusters d)).length → d < 8 → die d)) ∧
    (∀ d, u = .die d → d < 8 → die d) ∧
    (∀ l x, u = .lane l x →
      ((R.filter (lanes l)).length < Config.spareLanes l → as_ u R (some (R.filter (lanes l)).length) false none same) ∧
      (Config.spareLanes l ≤ (R.filter (lanes l)).length → CarriesNone s l → link l)) ∧
    (∀ l, u = .link l → CarriesNone s l → link l) ∧
    (∀ p f w, u = .wavelength p f w →
      as_ u R none true none fun b c => { c with fab := s.fab } = b ∧ { c.fab with waves := s.fab.waves } = s.fab ∧
        ∀ q : Fin 4, c.fab.waves[q] = s.fab.waves[q] - (if q.val = p then 1 else 0)) ∧
    (∀ k, u = .controlCore k → as_ u R none true none fun b c => c = { b with repair := { b.repair with fenced := s.repair.fenced ++ [u] } }) ∧
    (∀ x y, (u = .cremaFrame x y ∨ u = .slice x ∨ u = .pour x) → as_ u R none true none same) ∧
    (∀ x, u = .cremaBank x → as_ u (R.filter fun v => !frames x v) none true none same)

/-- R296 and R299: once no context is resident on its cluster, a spare takes the coordinate of a fenced core or cluster, with a record of EVENT 4 that
counts the events of the old one; before, and for a unit that is not fenced, nothing happens. That the spare starts with no events, in its parts either,
is the model's choice (log 58). -/
def Sys2Proof.Claims.SparesReplaceFencedCores : Prop :=
  ∀ (s : State) (d c : Nat) (u : RUnit), d < 8 → c < 100 → (u = .cluster d c ∨ ∃ k, k < 128 ∧ u = .core (d * 12800 + c * 128 + k)) →
    Memory.wf s.mem = true → s.cores.Pairwise (fun p q => p.1 < q.1) →
    let here (p : Nat × Core) : Prop := p.1 < 102400 ∧ p.1 / 128 = d * 100 + c
    let mine (k : Nat) : Prop := match u with | .core x => k = x | _ => k < 102400 ∧ k / 128 = d * 100 + c
    let part (v : RUnit) : Bool := unitOf v == u || match u, v with | .cluster _ _, .core k => k / 12800 == d && k / 128 % 100 == c | _, _ => false
    let group (v : RUnit) : Bool := match u, v with
      | .core _, .core x => x / 12800 == d && x / 128 % 100 == c
      | .cluster _ _, .cluster e _ => e == d
      | _, _ => false
    ((u ∉ s.repair.fenced ∨ ∃ p ∈ s.cores, here p ∧ p.2.ctx ≠ none) → exec (.spareReplacement u) s = .next s) ∧
    (u ∈ s.repair.fenced → (∀ p ∈ s.cores, here p → p.2.ctx = none) →
      let n := ((s.repair.timesOf u).filter fun x => s.time - x < s.repair.errwin.toNat * 1000).length
      ∃ a t, exec (.spareReplacement u) s = .next t ∧ UnitLogged a t 4 u 0 ((s.repair.retired.filter group).length - 1) n ∧
        a.repair = { s.repair with fenced := s.repair.fenced.filter (· ≠ u), times := s.repair.times.filter fun q => !part q.1 } ∧
        (∀ k, ¬mine k → a.core k = s.core k) ∧
        (∀ b, (∀ k, mine k → ¬(padKey k 0 ≤ b ∧ b < padKey k 0 + 65536)) → a.byte b = s.byte b) ∧
        { a with cores := s.cores, mem := s.mem, tags := s.tags, poison := s.poison, repair := s.repair } = s)

/-- R296 and R303: contexts on the retired die or the top one are first descheduled with an UNCORR record, then awaited; when none is left the top die
takes the retired one's number, in the die map and in every context that is out, DIEGEN rises, EVENT 7 is recorded with the events of the retired die and both entries of
the topology table are written. The coordinate in the record, that of the renumbered die before, is the model's choice (log 58), and so are names of the
cores of a context that is out which would share a coordinate (log 61). -/
def Sys2Proof.Claims.DiesAreRenumbered : Prop :=
  ∀ (s : State) (v : Nat),
    let top := s.diemaxNow.toNat
    let i : Instr := .dieRenumbering v
    let on (n : Nat) : Prop := ∃ p ∈ s.cores, p.1 < 102400 ∧ (p.1 / 12800 = v ∨ p.1 / 12800 = top) ∧ p.2.ctx = some n
    ((RUnit.die v ∉ s.repair.fenced ∨ top < v) → exec i s = .next s) ∧
    (RUnit.die v ∈ s.repair.fenced → v ≤ top →
      (∀ n, on n → (s.ctx n).st = .running → (∀ m, on m → m = n) → exec i s = .next (s.queueFault n
        { cause := 12, source := 7, tval := num (v * 2 ^ 16), slotid := 0, launchid := 0, extra := 0, va := 0 })) ∧
      (∀ n, on n → (∀ m, on m → (s.ctx m).st ≠ .running) → exec i s = .next s) ∧
      ((∀ n, ¬on n) → s.waiters = [] → Memory.wf s.mem = true → ∃ a b t, exec i s = .next t ∧
        Logged a b 7 10 0 none (top * 2 ^ 16 + physOf s top * 2 ^ 61) 0 v
          ((s.repair.timesOf (.die v)).filter fun x => s.time - x < s.repair.errwin.toNat * 1000).length ∧ Entries b t [physOf s v + 1, physOf s top + 1] ∧
        a.repair.diegen = s.repair.diegen + 1 ∧ (∀ k : Fin 8, k.val = top → a.repair.diemap[k].1 = false) ∧
        (∀ k : Fin 8, k.val ≠ top → a.repair.diemap[k] = if k.val = v then (true, BitVec.ofNat 3 (physOf s top)) else s.repair.diemap[k]) ∧
        a.time = s.time ∧ a.fab = s.fab ∧ a.jobs = s.jobs ∧ a.host = s.host ∧ a.brew = s.brew ∧ a.kdp = s.kdp ∧
        (∀ n, ((s.ctx n).st = .running ∨ (s.ctx n).st = .free ∨ (s.ctx n).st = .saving) → a.ctx n = s.ctx n) ∧
        (∀ g ∈ a.sched.groups, v ≠ top → g.die ≠ top) ∧
        (∀ n c, s.ctxs = [(n, c)] → (c.st = .saved ∨ c.st = .stopped) → v ≠ top → (∀ k ∈ c.savedCores, k.coord < 102400) →
          Renamed s.repair.diegen.toNat c (a.ctx n) top v ∧
          ∀ k, c.savedCores = [k] →
            let w := c.save.toNat + 131072 + 0x1A500
            s.read w 8 / 2 ^ 16 % 8 = top → a.read w 8 = s.read w 8 - top * 2 ^ 16 + v * 2 ^ 16)))

/-- R305: when the hub link of a die has failed its traffic goes round by a live neighbour, REROUTE is set and EVENT 6 recorded; a request that waits at
the hub to cross the link goes back to its source as a NACK on VC 3, which holds its header and takes the credit of its freed slot along. Without a way,
and before a failure, nothing happens. The numbers of the ring links (log 23) and the hub as the NACK's source with the packet's header as its data (log
48) are the model's choices. -/
def Sys2Proof.Claims.FailedHubLinksAreRerouted : Prop :=
  ∀ (s : State) (die : Nat),
    let link := physOf s die + 1
    let i : Instr := .linkReroute die
    ((8 ≤ die ∨ link ∉ s.repair.links ∨ ∃ via, (link, via) ∈ s.repair.rerouted) → exec i s = .next s) ∧
    (die < 8 → link ∈ s.repair.links → (∀ via, (link, via) ∉ s.repair.rerouted) → ∃ t, exec i s = .next t ∧ GoesRound s t link ∧
      ((∃ via, Way s link via) → t.repair.devstat.toNat / 4 % 2 = 1) ∧
      (∀ p, (∃ via, Way s link via) → NothingOwed s → (s.kdpEnd (2 * link)).queue = [] → (s.kdpEnd (2 * link + 1)).queue = [p] →
        let src := p.h0.toNat / 2 ^ 33 % 256
        let vc := p.h0.toNat / 2 ^ 62
        let e := 2 * src + 1
        let d := s.kdpEnd e
        p.slot = some e → 0 < src → src ≤ 20 → src ≠ link → (∀ x, (src, x) ∉ s.repair.rerouted) → src ∉ s.repair.links → HasSlot s e 3 → d.queue = [] →
        (s.kdpPort 0).asked = [] →
        let q := mget 0 (s.kdpPort 0).sent (4 * src + 3)
        (t.kdpEnd (2 * link + 1)).queue = [] ∧
          t.kdp.flight = s.kdp.flight ++ [(2 * src, ⟨header 9 q 0 0 src (p.h0.toNat / 2 ^ 19 % 64) vc 1, p.h1,
            toBytes 8 (p.h0 &&& ~~~0x7F000#64).toNat, none⟩)] ∧
          ∀ c : Fin 4, (t.kdpEnd e).used[c] = d.used[c] - (if c.val = vc then 1 else 0) ∧ (t.kdpEnd e).owed[c] = 0 ∧
            (t.kdpEnd e).spent[c] = d.spent[c] + if c.val = 3 then 1 else 0))

/-- R308 and R309: the period's exchange with the master, over the first window of the period that names it, leaves an offset for TIME to make good and, after a loss, EVENT 9;
SKEW takes its bound when the period ends, and TIMEOK holds while the bound is not 0xFFFF_FFFF. Three periods without one clear both and record
EVENT 8, once. A package without master and source makes no exchange. -/
def Sys2Proof.Claims.TimeAlignmentIsKept : Prop :=
  ∀ (s : State) (t1 t2 t3 t4 : Int) (skew : BitVec 32),
    let r := s.repair
    let master := r.timectl.toNat % 2 = 1
    let srcv := r.timectl.toNat / 2 ^ 47 % 2 = 1
    let i : Instr := .alignmentExchange t1 t2 t3 t4 skew
    let period := r.timectl.toNat / 2 ^ 12 % 2 ^ 20 * 1000
    let offset := if master then 0 else ((t2 - t1) - (t4 - t3)) / 2
    let after : State := { s with repair := { r with
      exchanged := s.time, alignLost := false, pendSkew := some skew, slew := offset, slewRun := 0 } }
    let open_ (time : Nat) : Prop := ∃ n : Fin 4, s.fab.open? time n (r.timectl.toNat / 2 ^ 32 % 2 ^ 15) = true
    let seen := open_ s.time ∧ ∀ m o, SlotNow s m o → ∀ time, r.periodEnd - max 1000 period ≤ time → time + o < s.time → ¬open_ time
    ((¬master ∧ (¬srcv ∨ ¬seen) ∨ r.pendSkew ≠ none) → exec i s = .next s) ∧
    ((master ∨ srcv ∧ seen) → r.pendSkew = none → (r.alignLost = false → exec i s = .next after) ∧
      (r.alignLost = true → ∃ t, exec i s = .next t ∧ Logged after t 9 0 0 none 0 0 0 0)) ∧
    ((r.alignLost = true ∨ s.time < r.exchanged + 3 * period) → exec .alignmentLost s = .next s) ∧
    (r.alignLost = false → r.exchanged + 3 * period ≤ s.time → ∃ t, exec .alignmentLost s = .next t ∧
      Logged { s with repair := { r with skew := 0xFFFFFFFF, pendSkew := none, alignLost := true } } t 8 0 0 none 0 0 0 0) ∧
    (r.devstat.toNat / 8 % 2 = 1 ↔ (master ∨ srcv) ∧ r.skew ≠ 0xFFFFFFFF) ∧
    (∀ b, r.pendSkew = some b → r.periodEnd ≤ s.time → s.endPeriod.repair.skew = b ∧ s.endPeriod.repair.pendSkew = none ∧ s.time < s.endPeriod.repair.periodEnd) ∧
    (s.time < r.periodEnd → s.endPeriod = s) ∧
    ((r.slew = 0 → ∀ ns, (s.slewed ns).time = s.time + ns) ∧ ∀ ns, s.time ≤ (s.slewed ns).time ∧ (s.slewed ns).time ≤ s.time + ns + (r.slewRun + ns) / 10000)

namespace Sys2Proof.Claims

/-! ## The whole machine -/

/-- The row that a word of several rows decodes to: ENG fn 15, BREW fn 1 and POUR fn 7 are told apart by their operands, not by their words
(log 13). -/
def firstRow : Instr → Instr
  | .abandon d a b x y => .eresume d a b x y
  | .disarm d a b x y => .brwarm d a b x y
  | .pslotStoreEntries d a b x y => .pslotLoadEntries d a b x y
  | .pslotLoadControl d a b x y => .pslotLoadEntries d a b x y
  | .pslotStatus d a b x y => .pslotLoadEntries d a b x y
  | i => i

/-- R17, R90 and R117: slot sl can issue: its core executes, it has an activation and does not wait, and nothing interrupts it. -/
def Issuing (s : State) (sl : SlotId) : Prop :=
  let x := s.slot sl
  sl.core < 102416 ∧ (∀ u ∈ s.repair.fenced, unitCovers u sl.core = false) ∧
    (sl.core < 102400 → ∃ n, (s.core sl.core).ctx = some n ∧ (s.ctx n).st = .running) ∧ x.act ≠ none ∧ (x.wait = .ready ∨ x.wait = .wfe true) ∧
    x.trap = none ∧ x.events = [] ∧ (∀ g, x.region = some g → g.failed = none) ∧ ∀ p ∈ x.parked, p.kind = 3

/-- R118: the issue priority of a slot's activation, and how far the slot stands behind the one that issued last at that priority. -/
def prioOf (s : State) (sl : SlotId) : Nat := ((s.slot sl).act.map fun a => a.prio.toNat).getD 3
def turnOf (s : State) (sl : SlotId) : Nat := (sl.slot.val + 3 - ((s.core sl.core).rr.toList.map Fin.val).getD (prioOf s sl) 0) % 4

/-- R118: sl is the slot that its core, that of `cur`, lets issue: lowest priority number first, round-robin within a number. -/
def Chosen (s : State) (sl : SlotId) : Prop :=
  sl.core = s.cur.core ∧ ∀ o, o.core = sl.core → o ≠ sl → Issuing s o →
    prioOf s sl < prioOf s o ∨ prioOf s sl = prioOf s o ∧ turnOf s sl < turnOf s o

/-- The key in the instruction cache of the word at the pc of slot sl: the pc, under the slot's CTXID. -/
def pcKey (s : State) (sl : SlotId) : Nat := (s.ctxidOf sl).toNat * 2 ^ 64 + (s.slot sl).pc.toNat

/-- R36: the core's instruction cache does not list the word at the pc of slot sl, which a program may execute at location l. -/
def FetchesFrom (s : State) (sl : SlotId) (l : Loc) : Prop :=
  (s.slot sl).pc.toNat < 2 ^ 55 ∧ mfind (s.core sl.core).icache (pcKey s sl) = none ∧ s.resolve (s.agent sl) (s.slot sl).pc.toNat 4 permX = .ok l

/-- R36: the core fetches word w at the pc of slot sl, in a page that may be executed, and its instruction cache does not list it: what its die sees
there, or the value from before a store, until a fence has made the store reach fetch (log 8). -/
def Holds (s : State) (sl : SlotId) (w : Word32) : Prop :=
  ∃ l, FetchesFrom s sl l ∧ s.isPoisoned l.keys = false ∧ leNat (s.fetched sl.core l.keys) = w.toNat

/-- State u is s after slot sl has issued: it is the last that did at its priority, and beside that at most the instruction cache of its core, the
cached translations and the lines of the Crema differ. -/
def Fetched (s u : State) (sl : SlotId) : Prop :=
  (∀ n, { u.core n with icache := (s.core n).icache, rr := (s.core n).rr } = s.core n) ∧ (∀ n, n ≠ sl.core → u.core n = s.core n) ∧
    (∀ q : Fin 4, (u.core sl.core).rr[q] = if q.val = prioOf s sl then sl.slot else (s.core sl.core).rr[q]) ∧
    { u with cores := s.cores, xlats := s.xlats, crema := s.crema } = s

end Sys2Proof.Claims

/-! ## Division -/

/-- R69: division never traps; a zero divisor, and the most negative number by minus one, have the results the rule gives; the worked example. -/
def Obligations.DivisionNeverTraps : Prop :=
  (∀ (s : State) (d a b : Reg) (x y : Bool), CanRead s a → CanRead s b → CanWrite s d →
    ∀ p ∈ divTable, Gives (p.1 d a b x y) s d (p.2 (s.me.readG a) (s.me.readG b))) ∧
  ∀ s : State, CanRead s 6 → CanWrite s 5 → s.me.readG 6 = 7 →
    Gives (.divu 5 6 0 false false) s 5 0xFFFFFFFFFFFFFFFF ∧ Gives (.remu 5 6 0 false false) s 5 7

/-! ## Words and steps -/

/-- R24 to R33: decoding the word of a well-formed instruction gives it back, every operand at every value; rows that share words give the first of
them. -/
def Obligations.EncodedInstructionsDecode : Prop := ∀ (i : Instr) (w : Word32), i.wf = true → encode i = some w → decode w = .ok (firstRow i)

/-- R34: a word decodes only to a well-formed instruction whose word it is: no reserved bit is dropped, and two words never give one instruction. -/
def Obligations.DecodedWordsEncodeBack : Prop := ∀ (w : Word32) (i : Instr), decode w = .ok i → i.wf = true ∧ encode i = some w

/-- Words that the spec writes out, one or more of most families, decode to what they stand for; a word with a function that no row has, and one with a reserved bit set, are refused (R34). -/
def Obligations.SpecWordsDecode : Prop :=
  decode 0x08000000 = .ok (.addi 0 0 false 0) ∧ decode 0x740A0001 = .ok (.taskend 10 false) ∧ decode 0x7800A001 = .ok (.fencesc 5) ∧
  decode 0x78640005 = .ok (.waitc 3 4 false) ∧
  decode 0x79200002 = .ok (.rbegin 9) ∧ decode 0x78000003 = .ok .rcommit ∧ decode 0x78050004 = .ok (.rabort 5 false) ∧
  decode 0x94A63800 = .ok (.lcopy 5 6 7 false false) ∧ decode 0x94A63803 = .ok (.ptag 5 6 7 false false) ∧
  decode 0x94A63804 = .ok (.premap 5 6 7 false false) ∧ decode 0x94A63806 = .ok (.pcoll 5 6 7 false false) ∧
  decode 0x94A60008 = .ok (.pq 5 6 false) ∧ decode 0x9CA60288 = .ok (.routld 5 6 40) ∧ decode 0x9CA00010 = .ok (.csrr 5 1) ∧
  decode 0x9C0580B1 = .ok (.csrw 0 5 0x80B) ∧ decode 0x9CA60014 = .ok (.trap 5 6 1) ∧
  (∃ e, decode 0x79200022 = .error e) ∧ ∃ e, decode 0x94A60808 = .error e

/-- R17, R34, R36, R90 and R118: when the next turn is that of a slot that can issue, named by the agenda or chosen by the core of `cur`, the step runs
the instruction that the word at its pc decodes to, or ILLOP where it decodes to none; a word already in the core's instruction cache runs from
there; a fault of the fetch traps; a WFE that an event has ended gives 0. -/
def Sys2Proof.Claims.StepRunsTheDecodedInstruction : Prop :=
  ∀ (s : State) (sl : SlotId) (rest : List Turn), (s.agenda = .slot sl :: rest ∨ (s.agenda = [] ∧ rest = [] ∧ Chosen s sl)) → Issuing s sl →
    let s0 := { s with agenda := rest, cur := sl }
    let x := s.slot sl
    let pc := x.pc.toNat
    (x.wait = .ready →
      (∀ w, Holds s sl w → (∀ i, decode w = .ok i → ∃ u, step s = exec i u ∧ Fetched s0 u sl) ∧
        ∀ e, decode w = .error e → ∃ u, step s = exec (.illop w) u ∧ Fetched s0 u sl) ∧
      (∀ w i, pc < 2 ^ 55 → mfind (s.core sl.core).icache (pcKey s sl) = some w → decode w = .ok i →
        ∃ u, step s = exec i u ∧ Fetched s0 u sl ∧ (u.core sl.core).icache = (s.core sl.core).icache ∧ u.xlats = s.xlats ∧ u.crema = s.crema) ∧
      (2 ^ 55 ≤ pc → ∃ u, step s = u.trapAt 7 pc ∧ Fetched s0 u sl) ∧
      (∀ c, pc < 2 ^ 55 → mfind (s.core sl.core).icache (pcKey s sl) = none → s.resolve (s.agent sl) pc 4 permX = .error c →
        ∃ u, step s = u.trapAt c pc ∧ Fetched s0 u sl) ∧
      ∀ l, FetchesFrom s sl l → s.isPoisoned l.keys = true → ∃ u, step s = u.trapAt 12 pc ∧ Fetched s0 u sl) ∧
    (x.wait = .wfe true → ∃ t, step s = .next t ∧ RegIs x (t.slot sl) x.wfeReg 0 ∧
      OneSlot s0 t sl { x with g := (t.slot sl).g, gt := (t.slot sl).gt, pc := x.pc + 4, wait := .ready } ∧ { t with cores := s.cores } = s0)

/-- The model's agenda (log 3): a step of the device that the agenda names is that row's meaning, and a tick lets TIME pass. TIME never passes 500 ns
(875 cy) after the request to pre-empt a context while a slot of it has still to halt, one whose access waits on a tag too (R4, R260 and R261). In a
package that aligns to another, a third period without an exchange loses the alignment as TIME passes (R308; log 4). -/
def Sys2Proof.Claims.AgendaStepsRun : Prop :=
  ∀ (s : State) (rest : List Turn),
    (∀ i, s.agenda = .event i :: rest → encode i = none → i.wf = true → inInstruction i = false → step s = exec i { s with agenda := rest }) ∧
    ∀ n, s.agenda = .tick n :: rest → s.repair.slew = 0 →
      let r := s.repair
      let lost := r.timectl.toNat % 2 = 0 ∧ r.timectl.toNat / 2 ^ 47 % 2 = 1 ∧ r.alignLost = false ∧
        r.exchanged + 3 * (r.timectl.toNat / 2 ^ 12 % 2 ^ 20 * 1000) ≤ s.time + n
      let u : State := { s with agenda := rest, time := s.time + n, repair := { r with slewRun := (r.slewRun + n) % 10000 } }
      (s.fab.pendSlots = [] → s.fab.pendCtrl = none → s.brew.armed = false → s.brew.cause = 0 → s.time + n < r.periodEnd →
        (∀ c ∈ s.ctxs, c.2.st ≠ .saving) → (s.sched.busy = false ∨ s.sched.cmd ≠ 3) →
        (¬lost → step s = .next u) ∧
        (lost → ∃ t, step s = .next t ∧
          Logged { u with repair := { u.repair with skew := 0xFFFFFFFF, pendSkew := none, alignLost := true } } t 8 0 0 none 0 0 0 0)) ∧
      ∀ p ∈ s.cores, ∀ c, p.2.ctx = some c → ((s.ctx c).st = .saving ∨ (Commanded s 3 c ∧ (s.ctx c).st = .running)) →
        (∀ u ∈ r.fenced, unitCovers u p.1 = false) →
        (∃ k, let x := s.slot ⟨p.1, k⟩
          x.act ≠ none ∧ (x.wait = .ready ∨ x.wait = .retry ∨ (∃ b, x.wait = .wfe b) ∨
            ∃ w ∈ s.waiters, w.sl = ⟨p.1, k⟩ ∧ x.wait = .sent w.req)) →
        ∃ t, step s = .next t ∧ s.time ≤ t.time ∧ t.time ≤ max s.time ((s.ctx c).haltAt + 500)

/-- A step stops only where the agenda or `cur` names a slot that the package does not have (R8): from every other state there is a next one. -/
def Obligations.EveryStepCompletes : Prop := ∀ s : State, NamesRealSlots s → Completes s

/-- Memory, tags and poison, which the model holds as lists (log 2), keep their canonical forms, so that equal contents are equal data, whatever step is taken. -/
def Obligations.EveryStepKeepsMemoryCanonical : Prop := ∀ s t : State, Canonical s → step s = .next t → Canonical t

/-- Memory is canonical at reset, and the slot that is to issue is one of the package; the reset values that R294, R298, R299, R308, R309 and R310
give, and no context. The rest of the state after reset is the model's choice (log 1). -/
def Obligations.ResetIsCanonical : Prop :=
  let s := State.reset
  Canonical s ∧ NamesRealSlots s ∧ s.mem = [] ∧ s.tags = [] ∧ s.ctxs = [] ∧ s.fab.devset = false ∧ s.fab.ctrl = 0 ∧ s.fab.grants = [] ∧
    s.repair.errwin = 1000000 ∧ s.repair.service = false ∧ s.repair.timeok = false ∧ s.repair.diegen = 0 ∧ s.repair.logdrop = 0 ∧
    s.repair.elogbase = 0 ∧ s.repair.eloghead = 0 ∧ s.repair.elogtail = 0 ∧ s.repair.timectl = num (1000 * 2 ^ 12 + 1) ∧ s.repair.skew = 0xFFFFFFFF ∧
    s.sched.busy = false ∧ s.host.phase = 0 ∧ s.host.dbbad = 0 ∧
    ∀ (n : Nat) (c : BitVec 5), (s.core n).chan c = Channel.init ∧ (s.core n).limit = 64 ∧ (s.core n).ctx = none

/-! ## Statements of several parts -/

/-- The ALU instructions of one and two sources write their result to gd and nothing else. -/
def Obligations.AluInstructionsWriteTheirResult : Prop :=
  Claims.AluTwoSourcesWriteTheirResult ∧ Claims.AluOneSourceWritesItsResult

/-- Immediate forms, shifts by an immediate, LUI, LIH and ADDPC write their result. -/
def Obligations.ImmediatesAndConstantsAreWritten : Prop :=
  Claims.ImmediateFormsWriteTheirResult ∧ Claims.ConstantsAreBuilt

/-- Branches and jumps move the pc; pointer instructions keep the format. -/
def Obligations.ControlTransfersAndPointersAct : Prop :=
  Claims.BranchesMoveThePcAlone ∧ Claims.JumpsLinkAndGo ∧ Claims.PointerInstructionsKeepTheFormat

/-- LD writes what memory holds; LDN and ST leave a request. -/
def Obligations.LoadsAndPostedAccessesAct : Prop :=
  Claims.LoadWritesWhatMemoryHolds ∧ Claims.LdnAndStLeaveARequest

/-- LDF and LDFE wait for full words; STE and STF fill theirs. -/
def Obligations.SynchronizingAccessesUseTheTags : Prop :=
  Claims.SynchronizingLoadsWaitForFull ∧ Claims.SynchronizingStoresFillTheirWords

/-- AMOs replace a word and return the old one; blocking accesses to a peer are sent. -/
def Obligations.AmosAndPeerAccessesAct : Prop :=
  Claims.AmosReplaceAWordAndReturnIt ∧ Claims.BlockingPeerAccessesAreSent

/-- Scalar floating-point instructions write result and flags; special values; FCVT. -/
def Obligations.ScalarFloatsAct : Prop :=
  Claims.ScalarFloatsWriteResultAndFlags ∧ Claims.FloatSpecialValues ∧ Claims.FcvtConverts

/-- Vector operands are bounded; integer operations and comparisons write the active lanes. -/
def Obligations.VectorIntegersAct : Prop :=
  Claims.VectorOperandsAreBounded ∧ Claims.VectorIntegersWriteActiveLanes ∧ Claims.VectorComparesWriteAMask

/-- Vector floating-point operations write the active lanes; VRED reduces in a tree. -/
def Obligations.VectorFloatsAct : Prop :=
  Claims.VectorFloatsWriteActiveLanes ∧ Claims.VredReducesInATree

/-- Block conversions, lane moves, mask instructions and VIADD. -/
def Obligations.VectorMovesAct : Prop :=
  Claims.BlockConversionsUseRegisterPairs ∧ Claims.VectorMovesMoveLanes ∧ Claims.MasksAndViadd

/-- Vector loads, stores and VLDF leave a request with their elements. -/
def Obligations.VectorMemoryLeavesRequests : Prop :=
  Claims.VectorLoadsLeaveARequest ∧ Claims.VectorStoresLeaveARequest ∧ Claims.VldfLanesWaitOnTheirWords

/-- Sends check their destination and queue one message. -/
def Obligations.SendsCheckAndQueueOneMessage : Prop :=
  Claims.DestinationsAreChecked ∧ Claims.SendsQueueOneMessage

/-- Channel entries are read and written; CHMASK; the ends of an activation. -/
def Obligations.ChannelsAreReadAndWritten : Prop :=
  Claims.ActivationsEnd ∧ Claims.ChannelEntriesAreReadAndWritten ∧ Claims.ChmaskMasksThenUnmasks

/-- FORK pushes a task; JOINCH swaps the join channel; TRIG marks the group. -/
def Obligations.TasksAndJoinsAct : Prop :=
  Claims.TasksArePushed ∧ Claims.JoinchSwapsAndTrigMarksTheGroup

/-- Fences wait and invalidate; remote regions open, commit and abort; WAITC waits. -/
def Obligations.FencesAndRegionsAct : Prop :=
  Claims.FencesWaitAndInvalidate ∧ Claims.WaitcWaitsBelowItsThreshold ∧ Claims.RemoteRegionsOpenCommitAndAbort

/-- SHIP and CHAIN leave a request, wait, or trap. -/
def Obligations.ShippedCallsAndChainsAreRequests : Prop :=
  Claims.ShippedCallsAreRequests ∧ Claims.ChainsAreRequests

/-- Rows are held and released; near-bank programs are queued and reported. -/
def Obligations.RowsAndNearBankProgramsAct : Prop :=
  Claims.RowsAreHeldAndReleased ∧ Claims.NearBankProgramsAreQueuedAndReported

/-- Engine registers are read and written; jobs are queried and controlled. -/
def Obligations.EngineRegistersAndJobControlAct : Prop :=
  Claims.EngineRegistersAreReadAndWritten ∧ Claims.JobsAreQueriedAndControlled

/-- Matrix jobs enter the queue of the octet, or trap as their rules say. -/
def Obligations.MatrixWorkEntersTheQueue : Prop :=
  Claims.MatrixJobsEnterTheQueue ∧ Claims.FieldsArePermutedAndRemapped

/-- The slot table and the brew table are loaded, stored, armed and queried. -/
def Obligations.SlotAndBrewTablesAreLoaded : Prop :=
  Claims.SlotTableIsLoadedStoredAndQueried ∧ Claims.BrewTableIsLoadedArmedPostedAndQueried

/-- Taking a trap saves pc, cause and value and goes to the handler, or stops the slot. -/
def Obligations.TrapsAreTaken : Prop :=
  Claims.TakingATrapSavesAndGoesToTheHandler ∧ Claims.UndeliverableTrapsStopTheSlot

/-- Trap events are delivered; UPRET and ERET restore; WFE, TRAP and routine loads. -/
def Obligations.TrapsReturnAndServicesWait : Prop :=
  Claims.TrapEventsAreDelivered ∧ Claims.ReturnsRestore ∧ Claims.ServicesWaitsAndRoutineLoads

/-- Blocked slots are tried again, WFE times out, regions roll back, producers land. -/
def Obligations.WaitingSlotsAndProducersGoOn : Prop :=
  Claims.WaitingSlotsGoOn ∧ Claims.ProducersLand

/-- Posted stores wait for earlier overlapping ones and are performed; faulting accesses park. -/
def Obligations.PostedStoresArePerformedOrParked : Prop :=
  Claims.PostedStoresArePerformed ∧ Claims.FaultingAccessesPark

/-- Tag waiters are served in order; routines and chain steps run at the owner. -/
def Obligations.OwnersServeWaitersAndRoutines : Prop :=
  Claims.TagWaitersAreServed ∧ Claims.RoutinesRunAtTheOwner ∧ Claims.ChainsStepAndReply

/-- Active and counter messages arrive, are refused, saved, dropped or sent on. -/
def Obligations.MessagesArrive : Prop :=
  Claims.ActiveMessagesArrive ∧ Claims.CounterMessagesAreApplied

/-- A free slot starts a handler, a counter firing or a task. -/
def Obligations.ActivationsStart : Prop :=
  Claims.ActiveMessagesStartHandlers ∧ Claims.CounterFiringsStartHandlers ∧ Claims.TasksArePoppedAndStolen

/-- Jobs start, progress by units, stop on faults and complete; remaps. -/
def Obligations.JobsRunToTheirEnd : Prop :=
  Claims.JobsStartAndComplete ∧ Claims.MatrixJobsProgress ∧ Claims.FieldJobsProgress ∧ Claims.PourJobsProgress ∧ Claims.FaultingJobsStop ∧ Claims.RemapsStartAndComplete

/-- Near-bank programs pass tags, step rows, yield and refresh held rows; row boundaries serve requests. -/
def Obligations.NearBankProgramsRun : Prop :=
  Claims.NearBankStepsRun ∧ Claims.RowBoundariesServeRequests

/-- Contexts are created from their table entry and pre-empted at instruction boundaries. -/
def Obligations.ContextsAreCreatedAndPreempted : Prop :=
  Claims.ContextsAreCreated ∧ Claims.ContextsArePreempted

/-- Contexts are saved, resumed where they can be bound, and destroyed. -/
def Obligations.ContextsAreSavedAndResumed : Prop :=
  Claims.ContextsAreSaved ∧ Claims.ContextsAreResumedAndDestroyed

/-- Descriptors are taken from launch queues; dependences are met. -/
def Obligations.LaunchesBecomeReady : Prop :=
  Claims.DescriptorsAreTaken ∧ Claims.DependencesAreMet

/-- Groups are placed on free cores, and exit when they are quiescent. -/
def Obligations.GroupsArePlacedAndExit : Prop :=
  Claims.GroupsArePlaced ∧ Claims.GroupsExit

/-- Brew entries launch when channels and stash allow, or say the bubble that holds them; posts arrive. -/
def Obligations.BrewEntriesLaunchAndPostsArrive : Prop :=
  Claims.BrewEntriesLaunch ∧ Claims.PostsArrive

/-- Every torus packet of a die is delivered or leaves its router; KDP packets take slots and credits. -/
def Obligations.RoutersMoveAndDiesDropPackets : Prop :=
  Claims.TorusPacketsMove ∧ Claims.KdpPacketsAct

/-- Pending slot tables take effect at a rotation boundary; open windows send. -/
def Obligations.SlotTablesAndWindowsSend : Prop :=
  Claims.PendingSlotTablesTakeEffect ∧ Claims.WindowsSendTheFirstFrame

/-- Frames are taken in order, trimmed and pulled; lost links fail their requests. -/
def Obligations.FramesArriveOrAreSentAgain : Prop :=
  Claims.FramesAreTakenInOrder ∧ Claims.PullsResendAndLostLinksFail

/-- A peer's messages are routed or dropped; its blocks are applied once. -/
def Obligations.PeerMessagesAndBlocksAreApplied : Prop :=
  Claims.PeerMessagesAreRouted ∧ Claims.PeerBlocksAreAppliedOnce

/-- Host registers, memory writes and doorbells act as the host link says. -/
def Obligations.HostAccessesAndDoorbellsAct : Prop :=
  Claims.HostAccessesAct ∧ Claims.DoorbellsFillSlots

/-- Errors are counted; a lasting unit is retired with its effect and records. -/
def Obligations.ErrorsRetireUnits : Prop :=
  Claims.ErrorsAreCounted ∧ Claims.LastingUnitsAreRetired

/-- Spares, renumbered dies, rerouted links and time alignment. -/
def Obligations.RepairAndTimeAlignment : Prop :=
  Claims.SparesReplaceFencedCores ∧ Claims.DiesAreRenumbered ∧ Claims.FailedHubLinksAreRerouted ∧ Claims.TimeAlignmentIsKept

/-- A step of a slot that can issue runs the instruction its pc's word decodes to. -/
def Obligations.StepsRunTheDecodedInstruction : Prop :=
  Claims.StepRunsTheDecodedInstruction ∧ Claims.AgendaStepsRun
end

