-- ==== Sys2Proof/Laws/Map.lean ====
section
/-!
SUPPORT. Sparse maps: a read after a write, and that every operation keeps the canonical form.
-/

namespace Sys2Proof.Machine

variable {β : Type}

@[simp] theorem mget_nil (d : β) (k : Nat) : mget d [] k = d := rfl

theorem mget_mput (d : β) (m : SMap β) (k j : Nat) (v : β) : mget d (mput m k v) j = if k = j then v else mget d m j := by
  induction m with
  | nil => by_cases h : k = j <;> simp [mput, mget, h]
  | cons p m ih =>
    obtain ⟨k', v'⟩ := p
    simp only [mput]
    split
    · subst_vars; simp only [mget]; split <;> simp_all
    · split
      · simp only [mget]; split
        · simp_all
        · split <;> split <;> simp_all <;> omega
      · simp only [mget, ih]; split
        · split <;> simp_all
        · split <;> split <;> simp_all

@[simp] theorem mget_mput_same (d : β) (m : SMap β) (k : Nat) (v : β) : mget d (mput m k v) k = v := by simp [mget_mput]

theorem mget_mput_other (d : β) (m : SMap β) {k j : Nat} (v : β) (h : k ≠ j) : mget d (mput m k v) j = mget d m j := by
  simp [mget_mput, h]

/-- A second write of a key replaces the first. -/
@[simp] theorem mput_mput (m : SMap β) (k : Nat) (v w : β) : mput (mput m k v) k w = mput m k w := by
  induction m with
  | nil => simp [mput]
  | cons p m ih =>
    obtain ⟨k', v'⟩ := p
    simp only [mput]
    split
    · simp [mput]
    · split
      · simp [mput]
      · rename_i h1 h2; simp [mput, h1, h2, ih]

theorem mfind_mput (m : SMap β) (k j : Nat) (v : β) : mfind (mput m k v) j = if k = j then some v else mfind m j := by
  induction m with
  | nil => by_cases h : k = j <;> simp [mput, mfind, h]
  | cons p m ih =>
    obtain ⟨k', v'⟩ := p
    simp only [mput]
    split
    · subst_vars; simp only [mfind]; split <;> simp_all
    · split
      · simp only [mfind]; split
        · simp_all
        · split <;> split <;> simp_all <;> omega
      · simp only [mfind, ih]; split
        · split <;> simp_all
        · split <;> split <;> simp_all

/-! ## The canonical form -/

section
variable [DecidableEq β] {d : β}

/-- `lo` is below k. -/
def above (lo : Option Nat) (k : Nat) : Prop := match lo with | none => True | some l => l < k

theorem mwfFrom_cons {lo : Option Nat} {k : Nat} {v : β} {m : SMap β} :
    mwfFrom d lo ((k, v) :: m) = true ↔ above lo k ∧ v ≠ d ∧ mwfFrom d (some k) m = true := by
  cases lo <;> simp [mwfFrom, above, and_assoc]

theorem above_trans {lo : Option Nat} {k j : Nat} (h : above lo k) (hj : k < j) : above lo j := by
  cases lo <;> simp_all [above]; omega

theorem mwfFrom_weaken {lo lo' : Option Nat} {m : SMap β} (h : mwfFrom d lo m = true) (hl : ∀ k, above lo k → above lo' k) :
    mwfFrom d lo' m = true := by
  cases m with
  | nil => rfl
  | cons p m => obtain ⟨k, v⟩ := p; rw [mwfFrom_cons] at *; exact ⟨hl k h.1, h.2⟩

theorem mwfFrom_mput {lo : Option Nat} {m : SMap β} {k : Nat} {v : β} (h : mwfFrom d lo m = true) (hk : above lo k) (hv : v ≠ d) :
    mwfFrom d lo (mput m k v) = true := by
  induction m generalizing lo with
  | nil => exact mwfFrom_cons.2 ⟨hk, hv, rfl⟩
  | cons p m ih =>
    obtain ⟨k', v'⟩ := p
    rw [mwfFrom_cons] at h
    simp only [mput]
    split
    · subst_vars; exact mwfFrom_cons.2 ⟨hk, hv, h.2.2⟩
    · split
      · rename_i hlt; exact mwfFrom_cons.2 ⟨hk, hv, mwfFrom_cons.2 ⟨hlt, h.2⟩⟩
      · rename_i h1 h2; exact mwfFrom_cons.2 ⟨h.1, h.2.1, ih h.2.2 (by simp [above]; omega)⟩

theorem mwfFrom_mdel {lo : Option Nat} {m : SMap β} {k : Nat} (h : mwfFrom d lo m = true) : mwfFrom d lo (mdel m k) = true := by
  induction m generalizing lo with
  | nil => rfl
  | cons p m ih =>
    obtain ⟨k', v'⟩ := p
    have h' := mwfFrom_cons.1 h
    simp only [mdel]
    split
    · exact mwfFrom_weaken h'.2.2 fun j hj => above_trans h'.1 hj
    · split
      · exact h
      · exact mwfFrom_cons.2 ⟨h'.1, h'.2.1, ih h'.2.2⟩

theorem mwf_mset {m : SMap β} {k : Nat} {v : β} (h : mwf d m = true) : mwf d (mset d m k v) = true := by
  unfold mset
  split
  · exact mwfFrom_mdel h
  · rename_i hv; exact mwfFrom_mput h trivial hv

theorem mwfFrom_filter {lo : Option Nat} {m : SMap β} {p : Nat × β → Bool} (h : mwfFrom d lo m = true) :
    mwfFrom d lo (m.filter p) = true := by
  induction m generalizing lo with
  | nil => rfl
  | cons q m ih =>
    obtain ⟨k, v⟩ := q
    have h' := mwfFrom_cons.1 h
    simp only [List.filter_cons]
    split
    · exact mwfFrom_cons.2 ⟨h'.1, h'.2.1, ih h'.2.2⟩
    · exact ih (mwfFrom_weaken h'.2.2 fun j hj => above_trans h'.1 hj)

theorem mwf_mclear {m : SMap β} {lo hi : Nat} (h : mwf d m = true) : mwf d (mclear m lo hi) = true := mwfFrom_filter h

theorem mwf_mrange {m : SMap β} {lo hi : Nat} (h : mwf d m = true) : mwf d (mrange m lo hi) = true := mwfFrom_filter h

theorem mget_of_above {m : SMap β} {k : Nat} (h : mwfFrom d (some k) m = true) : mget d m k = d := by
  cases m with
  | nil => rfl
  | cons p m =>
    obtain ⟨j, v⟩ := p
    have hj : k < j := (mwfFrom_cons.1 h).1
    simp only [mget]
    rw [if_neg (by omega), if_pos hj]

theorem mget_mdel {lo : Option Nat} {m : SMap β} (h : mwfFrom d lo m = true) (k j : Nat) :
    mget d (mdel m k) j = if k = j then d else mget d m j := by
  induction m generalizing lo with
  | nil => simp [mdel]
  | cons p m ih =>
    obtain ⟨k', v'⟩ := p
    have h' := mwfFrom_cons.1 h
    simp only [mdel]
    by_cases h1 : k' = k
    · subst h1
      rw [if_pos rfl]
      by_cases h2 : k' = j
      · subst h2; rw [if_pos rfl]; exact mget_of_above h'.2.2
      · rw [if_neg h2]
        simp only [mget, h2, if_false]
        split
        · rename_i h3
          exact mget_of_above (mwfFrom_weaken h'.2.2 fun i hi => by simp [above] at *; omega)
        · rfl
    · rw [if_neg h1]
      by_cases h2 : k < k'
      · rw [if_pos h2]
        by_cases h3 : k = j
        · subst h3; rw [if_pos rfl]; simp [mget, h1, h2]
        · rw [if_neg h3]
      · rw [if_neg h2]
        simp only [mget, ih h'.2.2]
        by_cases h3 : k = j
        · subst h3; simp [h1, h2]
        · simp [h3]

/-- A read after a write, in canonical memory. -/
theorem mget_mset {m : SMap β} (h : mwf d m = true) (k j : Nat) (v : β) :
    mget d (mset d m k v) j = if k = j then v else mget d m j := by
  unfold mset
  split
  · subst_vars; exact mget_mdel h k j
  · exact mget_mput d m k j v

/-- Maps in canonical form that read alike are equal. -/
theorem mget_eq_none_of_lt {lo : Option Nat} {m : SMap β} {j : Nat} (h : mwfFrom d lo m = true) (hj : ¬ above lo j) : mget d m j = d := by
  cases m with
  | nil => rfl
  | cons p m =>
    obtain ⟨k, v⟩ := p
    have hk : above lo k := (mwfFrom_cons.1 h).1
    have : j < k := by cases lo <;> simp_all [above]; omega
    simp only [mget]
    rw [if_neg (by omega), if_pos this]

theorem eq_of_mget {lo : Option Nat} {m n : SMap β} (hm : mwfFrom d lo m = true) (hn : mwfFrom d lo n = true)
    (h : ∀ k, mget d m k = mget d n k) : m = n := by
  induction m generalizing lo n with
  | nil =>
    cases n with
    | nil => rfl
    | cons p n =>
      obtain ⟨k, v⟩ := p
      have := h k
      simp [mget] at this
      exact absurd this.symm (mwfFrom_cons.1 hn).2.1
  | cons p m ih =>
    obtain ⟨k, v⟩ := p
    have hm' := mwfFrom_cons.1 hm
    cases n with
    | nil =>
      have := h k
      simp [mget] at this
      exact absurd this hm'.2.1
    | cons q n =>
      obtain ⟨j, w⟩ := q
      have hn' := mwfFrom_cons.1 hn
      have hkj : k = j := by
        rcases Nat.lt_trichotomy k j with hl | hl | hl
        · have := h k
          simp only [mget, if_true] at this
          rw [if_neg (by omega), if_pos hl] at this
          exact absurd this hm'.2.1
        · exact hl
        · have := h j
          simp only [mget, if_true] at this
          rw [if_neg (by omega), if_pos hl] at this
          exact absurd this.symm hn'.2.1
      subst hkj
      have hvw : v = w := by have := h k; simpa [mget] using this
      subst hvw
      have : m = n := by
        refine ih hm'.2.2 hn'.2.2 fun i => ?_
        by_cases hi : k < i
        · have := h i
          simp only [mget] at this
          rw [if_neg (by omega), if_neg (by omega), if_neg (by omega), if_neg (by omega)] at this
          exact this
        · rw [mget_eq_none_of_lt hm'.2.2 (by simpa [above] using hi), mget_eq_none_of_lt hn'.2.2 (by simpa [above] using hi)]
      rw [this]

/-- Equal memories are equal data: canonical maps that read alike are one list. -/
theorem mwf_ext {m n : SMap β} (hm : mwf d m = true) (hn : mwf d n = true) (h : ∀ k, mget d m k = mget d n k) : m = n :=
  eq_of_mget hm hn h

end

end Sys2Proof.Machine
end

