-- ==== Sys2Proof/Laws/State.lean ====
section
/-!
SUPPORT. The state's updates: which fields an update leaves alone (one lemma per field and update, true by rfl), and what a
read of a core, slot or context gives after an update.
-/

namespace Sys2Proof.Machine

/-! ## Fields an update leaves alone -/

section
variable (s : State) (n : Nat) (c : Core)
@[simp] theorem State.setCore_agenda : (s.setCore n c).agenda = s.agenda := rfl
@[simp] theorem State.setCore_cur : (s.setCore n c).cur = s.cur := rfl
@[simp] theorem State.setCore_time : (s.setCore n c).time = s.time := rfl
@[simp] theorem State.setCore_jobs : (s.setCore n c).jobs = s.jobs := rfl
@[simp] theorem State.setCore_engs : (s.setCore n c).engs = s.engs := rfl
@[simp] theorem State.setCore_mem : (s.setCore n c).mem = s.mem := rfl
@[simp] theorem State.setCore_tags : (s.setCore n c).tags = s.tags := rfl
@[simp] theorem State.setCore_poison : (s.setCore n c).poison = s.poison := rfl
@[simp] theorem State.setCore_waiters : (s.setCore n c).waiters = s.waiters := rfl
@[simp] theorem State.setCore_slices : (s.setCore n c).slices = s.slices := rfl
@[simp] theorem State.setCore_past : (s.setCore n c).past = s.past := rfl
@[simp] theorem State.setCore_crema : (s.setCore n c).crema = s.crema := rfl
@[simp] theorem State.setCore_kdp : (s.setCore n c).kdp = s.kdp := rfl
@[simp] theorem State.setCore_xlats : (s.setCore n c).xlats = s.xlats := rfl
@[simp] theorem State.setCore_ctxs : (s.setCore n c).ctxs = s.ctxs := rfl
@[simp] theorem State.setCore_sched : (s.setCore n c).sched = s.sched := rfl
@[simp] theorem State.setCore_brew : (s.setCore n c).brew = s.brew := rfl
@[simp] theorem State.setCore_posts : (s.setCore n c).posts = s.posts := rfl
@[simp] theorem State.setCore_net : (s.setCore n c).net = s.net := rfl
@[simp] theorem State.setCore_fab : (s.setCore n c).fab = s.fab := rfl
@[simp] theorem State.setCore_carafe : (s.setCore n c).carafe = s.carafe := rfl
@[simp] theorem State.setCore_repair : (s.setCore n c).repair = s.repair := rfl
@[simp] theorem State.setCore_host : (s.setCore n c).host = s.host := rfl
@[simp] theorem State.setCore_fresh : (s.setCore n c).fresh = s.fresh := rfl
@[simp] theorem State.setCore_nextReq : (s.setCore n c).nextReq = s.nextReq := rfl
end

section
variable (s : State) (n : Nat) (f : Core → Core)
@[simp] theorem State.modCore_agenda : (s.modCore n f).agenda = s.agenda := rfl
@[simp] theorem State.modCore_cur : (s.modCore n f).cur = s.cur := rfl
@[simp] theorem State.modCore_time : (s.modCore n f).time = s.time := rfl
@[simp] theorem State.modCore_jobs : (s.modCore n f).jobs = s.jobs := rfl
@[simp] theorem State.modCore_engs : (s.modCore n f).engs = s.engs := rfl
@[simp] theorem State.modCore_mem : (s.modCore n f).mem = s.mem := rfl
@[simp] theorem State.modCore_tags : (s.modCore n f).tags = s.tags := rfl
@[simp] theorem State.modCore_poison : (s.modCore n f).poison = s.poison := rfl
@[simp] theorem State.modCore_waiters : (s.modCore n f).waiters = s.waiters := rfl
@[simp] theorem State.modCore_slices : (s.modCore n f).slices = s.slices := rfl
@[simp] theorem State.modCore_past : (s.modCore n f).past = s.past := rfl
@[simp] theorem State.modCore_crema : (s.modCore n f).crema = s.crema := rfl
@[simp] theorem State.modCore_kdp : (s.modCore n f).kdp = s.kdp := rfl
@[simp] theorem State.modCore_xlats : (s.modCore n f).xlats = s.xlats := rfl
@[simp] theorem State.modCore_ctxs : (s.modCore n f).ctxs = s.ctxs := rfl
@[simp] theorem State.modCore_sched : (s.modCore n f).sched = s.sched := rfl
@[simp] theorem State.modCore_brew : (s.modCore n f).brew = s.brew := rfl
@[simp] theorem State.modCore_posts : (s.modCore n f).posts = s.posts := rfl
@[simp] theorem State.modCore_net : (s.modCore n f).net = s.net := rfl
@[simp] theorem State.modCore_fab : (s.modCore n f).fab = s.fab := rfl
@[simp] theorem State.modCore_carafe : (s.modCore n f).carafe = s.carafe := rfl
@[simp] theorem State.modCore_repair : (s.modCore n f).repair = s.repair := rfl
@[simp] theorem State.modCore_host : (s.modCore n f).host = s.host := rfl
@[simp] theorem State.modCore_fresh : (s.modCore n f).fresh = s.fresh := rfl
@[simp] theorem State.modCore_nextReq : (s.modCore n f).nextReq = s.nextReq := rfl
end

section
variable (s : State) (sl : SlotId) (x : Slot)
@[simp] theorem State.setSlot_agenda : (s.setSlot sl x).agenda = s.agenda := rfl
@[simp] theorem State.setSlot_cur : (s.setSlot sl x).cur = s.cur := rfl
@[simp] theorem State.setSlot_time : (s.setSlot sl x).time = s.time := rfl
@[simp] theorem State.setSlot_jobs : (s.setSlot sl x).jobs = s.jobs := rfl
@[simp] theorem State.setSlot_engs : (s.setSlot sl x).engs = s.engs := rfl
@[simp] theorem State.setSlot_mem : (s.setSlot sl x).mem = s.mem := rfl
@[simp] theorem State.setSlot_tags : (s.setSlot sl x).tags = s.tags := rfl
@[simp] theorem State.setSlot_poison : (s.setSlot sl x).poison = s.poison := rfl
@[simp] theorem State.setSlot_waiters : (s.setSlot sl x).waiters = s.waiters := rfl
@[simp] theorem State.setSlot_slices : (s.setSlot sl x).slices = s.slices := rfl
@[simp] theorem State.setSlot_past : (s.setSlot sl x).past = s.past := rfl
@[simp] theorem State.setSlot_crema : (s.setSlot sl x).crema = s.crema := rfl
@[simp] theorem State.setSlot_kdp : (s.setSlot sl x).kdp = s.kdp := rfl
@[simp] theorem State.setSlot_xlats : (s.setSlot sl x).xlats = s.xlats := rfl
@[simp] theorem State.setSlot_ctxs : (s.setSlot sl x).ctxs = s.ctxs := rfl
@[simp] theorem State.setSlot_sched : (s.setSlot sl x).sched = s.sched := rfl
@[simp] theorem State.setSlot_brew : (s.setSlot sl x).brew = s.brew := rfl
@[simp] theorem State.setSlot_posts : (s.setSlot sl x).posts = s.posts := rfl
@[simp] theorem State.setSlot_net : (s.setSlot sl x).net = s.net := rfl
@[simp] theorem State.setSlot_fab : (s.setSlot sl x).fab = s.fab := rfl
@[simp] theorem State.setSlot_carafe : (s.setSlot sl x).carafe = s.carafe := rfl
@[simp] theorem State.setSlot_repair : (s.setSlot sl x).repair = s.repair := rfl
@[simp] theorem State.setSlot_host : (s.setSlot sl x).host = s.host := rfl
@[simp] theorem State.setSlot_fresh : (s.setSlot sl x).fresh = s.fresh := rfl
@[simp] theorem State.setSlot_nextReq : (s.setSlot sl x).nextReq = s.nextReq := rfl
end

section
variable (s : State) (sl : SlotId) (f : Slot → Slot)
@[simp] theorem State.modSlot_agenda : (s.modSlot sl f).agenda = s.agenda := rfl
@[simp] theorem State.modSlot_cur : (s.modSlot sl f).cur = s.cur := rfl
@[simp] theorem State.modSlot_time : (s.modSlot sl f).time = s.time := rfl
@[simp] theorem State.modSlot_jobs : (s.modSlot sl f).jobs = s.jobs := rfl
@[simp] theorem State.modSlot_engs : (s.modSlot sl f).engs = s.engs := rfl
@[simp] theorem State.modSlot_mem : (s.modSlot sl f).mem = s.mem := rfl
@[simp] theorem State.modSlot_tags : (s.modSlot sl f).tags = s.tags := rfl
@[simp] theorem State.modSlot_poison : (s.modSlot sl f).poison = s.poison := rfl
@[simp] theorem State.modSlot_waiters : (s.modSlot sl f).waiters = s.waiters := rfl
@[simp] theorem State.modSlot_slices : (s.modSlot sl f).slices = s.slices := rfl
@[simp] theorem State.modSlot_past : (s.modSlot sl f).past = s.past := rfl
@[simp] theorem State.modSlot_crema : (s.modSlot sl f).crema = s.crema := rfl
@[simp] theorem State.modSlot_kdp : (s.modSlot sl f).kdp = s.kdp := rfl
@[simp] theorem State.modSlot_xlats : (s.modSlot sl f).xlats = s.xlats := rfl
@[simp] theorem State.modSlot_ctxs : (s.modSlot sl f).ctxs = s.ctxs := rfl
@[simp] theorem State.modSlot_sched : (s.modSlot sl f).sched = s.sched := rfl
@[simp] theorem State.modSlot_brew : (s.modSlot sl f).brew = s.brew := rfl
@[simp] theorem State.modSlot_posts : (s.modSlot sl f).posts = s.posts := rfl
@[simp] theorem State.modSlot_net : (s.modSlot sl f).net = s.net := rfl
@[simp] theorem State.modSlot_fab : (s.modSlot sl f).fab = s.fab := rfl
@[simp] theorem State.modSlot_carafe : (s.modSlot sl f).carafe = s.carafe := rfl
@[simp] theorem State.modSlot_repair : (s.modSlot sl f).repair = s.repair := rfl
@[simp] theorem State.modSlot_host : (s.modSlot sl f).host = s.host := rfl
@[simp] theorem State.modSlot_fresh : (s.modSlot sl f).fresh = s.fresh := rfl
@[simp] theorem State.modSlot_nextReq : (s.modSlot sl f).nextReq = s.nextReq := rfl
end

section
variable (s : State) (f : Slot → Slot)
@[simp] theorem State.modMe_agenda : (s.modMe f).agenda = s.agenda := rfl
@[simp] theorem State.modMe_cur : (s.modMe f).cur = s.cur := rfl
@[simp] theorem State.modMe_time : (s.modMe f).time = s.time := rfl
@[simp] theorem State.modMe_jobs : (s.modMe f).jobs = s.jobs := rfl
@[simp] theorem State.modMe_engs : (s.modMe f).engs = s.engs := rfl
@[simp] theorem State.modMe_mem : (s.modMe f).mem = s.mem := rfl
@[simp] theorem State.modMe_tags : (s.modMe f).tags = s.tags := rfl
@[simp] theorem State.modMe_poison : (s.modMe f).poison = s.poison := rfl
@[simp] theorem State.modMe_waiters : (s.modMe f).waiters = s.waiters := rfl
@[simp] theorem State.modMe_slices : (s.modMe f).slices = s.slices := rfl
@[simp] theorem State.modMe_past : (s.modMe f).past = s.past := rfl
@[simp] theorem State.modMe_crema : (s.modMe f).crema = s.crema := rfl
@[simp] theorem State.modMe_kdp : (s.modMe f).kdp = s.kdp := rfl
@[simp] theorem State.modMe_xlats : (s.modMe f).xlats = s.xlats := rfl
@[simp] theorem State.modMe_ctxs : (s.modMe f).ctxs = s.ctxs := rfl
@[simp] theorem State.modMe_sched : (s.modMe f).sched = s.sched := rfl
@[simp] theorem State.modMe_brew : (s.modMe f).brew = s.brew := rfl
@[simp] theorem State.modMe_posts : (s.modMe f).posts = s.posts := rfl
@[simp] theorem State.modMe_net : (s.modMe f).net = s.net := rfl
@[simp] theorem State.modMe_fab : (s.modMe f).fab = s.fab := rfl
@[simp] theorem State.modMe_carafe : (s.modMe f).carafe = s.carafe := rfl
@[simp] theorem State.modMe_repair : (s.modMe f).repair = s.repair := rfl
@[simp] theorem State.modMe_host : (s.modMe f).host = s.host := rfl
@[simp] theorem State.modMe_fresh : (s.modMe f).fresh = s.fresh := rfl
@[simp] theorem State.modMe_nextReq : (s.modMe f).nextReq = s.nextReq := rfl
end

section
variable (s : State) (n : Nat) (c : Ctx)
@[simp] theorem State.setCtx_agenda : (s.setCtx n c).agenda = s.agenda := rfl
@[simp] theorem State.setCtx_cur : (s.setCtx n c).cur = s.cur := rfl
@[simp] theorem State.setCtx_time : (s.setCtx n c).time = s.time := rfl
@[simp] theorem State.setCtx_cores : (s.setCtx n c).cores = s.cores := rfl
@[simp] theorem State.setCtx_jobs : (s.setCtx n c).jobs = s.jobs := rfl
@[simp] theorem State.setCtx_engs : (s.setCtx n c).engs = s.engs := rfl
@[simp] theorem State.setCtx_mem : (s.setCtx n c).mem = s.mem := rfl
@[simp] theorem State.setCtx_tags : (s.setCtx n c).tags = s.tags := rfl
@[simp] theorem State.setCtx_poison : (s.setCtx n c).poison = s.poison := rfl
@[simp] theorem State.setCtx_waiters : (s.setCtx n c).waiters = s.waiters := rfl
@[simp] theorem State.setCtx_slices : (s.setCtx n c).slices = s.slices := rfl
@[simp] theorem State.setCtx_past : (s.setCtx n c).past = s.past := rfl
@[simp] theorem State.setCtx_crema : (s.setCtx n c).crema = s.crema := rfl
@[simp] theorem State.setCtx_kdp : (s.setCtx n c).kdp = s.kdp := rfl
@[simp] theorem State.setCtx_xlats : (s.setCtx n c).xlats = s.xlats := rfl
@[simp] theorem State.setCtx_sched : (s.setCtx n c).sched = s.sched := rfl
@[simp] theorem State.setCtx_brew : (s.setCtx n c).brew = s.brew := rfl
@[simp] theorem State.setCtx_posts : (s.setCtx n c).posts = s.posts := rfl
@[simp] theorem State.setCtx_net : (s.setCtx n c).net = s.net := rfl
@[simp] theorem State.setCtx_fab : (s.setCtx n c).fab = s.fab := rfl
@[simp] theorem State.setCtx_carafe : (s.setCtx n c).carafe = s.carafe := rfl
@[simp] theorem State.setCtx_repair : (s.setCtx n c).repair = s.repair := rfl
@[simp] theorem State.setCtx_host : (s.setCtx n c).host = s.host := rfl
@[simp] theorem State.setCtx_fresh : (s.setCtx n c).fresh = s.fresh := rfl
@[simp] theorem State.setCtx_nextReq : (s.setCtx n c).nextReq = s.nextReq := rfl
end

section
variable (s : State) (n : Nat) (f : Ctx → Ctx)
@[simp] theorem State.modCtx_agenda : (s.modCtx n f).agenda = s.agenda := rfl
@[simp] theorem State.modCtx_cur : (s.modCtx n f).cur = s.cur := rfl
@[simp] theorem State.modCtx_time : (s.modCtx n f).time = s.time := rfl
@[simp] theorem State.modCtx_cores : (s.modCtx n f).cores = s.cores := rfl
@[simp] theorem State.modCtx_jobs : (s.modCtx n f).jobs = s.jobs := rfl
@[simp] theorem State.modCtx_engs : (s.modCtx n f).engs = s.engs := rfl
@[simp] theorem State.modCtx_mem : (s.modCtx n f).mem = s.mem := rfl
@[simp] theorem State.modCtx_tags : (s.modCtx n f).tags = s.tags := rfl
@[simp] theorem State.modCtx_poison : (s.modCtx n f).poison = s.poison := rfl
@[simp] theorem State.modCtx_waiters : (s.modCtx n f).waiters = s.waiters := rfl
@[simp] theorem State.modCtx_slices : (s.modCtx n f).slices = s.slices := rfl
@[simp] theorem State.modCtx_past : (s.modCtx n f).past = s.past := rfl
@[simp] theorem State.modCtx_crema : (s.modCtx n f).crema = s.crema := rfl
@[simp] theorem State.modCtx_kdp : (s.modCtx n f).kdp = s.kdp := rfl
@[simp] theorem State.modCtx_xlats : (s.modCtx n f).xlats = s.xlats := rfl
@[simp] theorem State.modCtx_sched : (s.modCtx n f).sched = s.sched := rfl
@[simp] theorem State.modCtx_brew : (s.modCtx n f).brew = s.brew := rfl
@[simp] theorem State.modCtx_posts : (s.modCtx n f).posts = s.posts := rfl
@[simp] theorem State.modCtx_net : (s.modCtx n f).net = s.net := rfl
@[simp] theorem State.modCtx_fab : (s.modCtx n f).fab = s.fab := rfl
@[simp] theorem State.modCtx_carafe : (s.modCtx n f).carafe = s.carafe := rfl
@[simp] theorem State.modCtx_repair : (s.modCtx n f).repair = s.repair := rfl
@[simp] theorem State.modCtx_host : (s.modCtx n f).host = s.host := rfl
@[simp] theorem State.modCtx_fresh : (s.modCtx n f).fresh = s.fresh := rfl
@[simp] theorem State.modCtx_nextReq : (s.modCtx n f).nextReq = s.nextReq := rfl
end

section
variable (s : State) (k : Nat) (b : Byte)
@[simp] theorem State.setByte_agenda : (s.setByte k b).agenda = s.agenda := rfl
@[simp] theorem State.setByte_cur : (s.setByte k b).cur = s.cur := rfl
@[simp] theorem State.setByte_time : (s.setByte k b).time = s.time := rfl
@[simp] theorem State.setByte_cores : (s.setByte k b).cores = s.cores := rfl
@[simp] theorem State.setByte_jobs : (s.setByte k b).jobs = s.jobs := rfl
@[simp] theorem State.setByte_engs : (s.setByte k b).engs = s.engs := rfl
@[simp] theorem State.setByte_tags : (s.setByte k b).tags = s.tags := rfl
@[simp] theorem State.setByte_poison : (s.setByte k b).poison = s.poison := rfl
@[simp] theorem State.setByte_waiters : (s.setByte k b).waiters = s.waiters := rfl
@[simp] theorem State.setByte_slices : (s.setByte k b).slices = s.slices := rfl
@[simp] theorem State.setByte_past : (s.setByte k b).past = s.past := rfl
@[simp] theorem State.setByte_crema : (s.setByte k b).crema = s.crema := rfl
@[simp] theorem State.setByte_kdp : (s.setByte k b).kdp = s.kdp := rfl
@[simp] theorem State.setByte_xlats : (s.setByte k b).xlats = s.xlats := rfl
@[simp] theorem State.setByte_ctxs : (s.setByte k b).ctxs = s.ctxs := rfl
@[simp] theorem State.setByte_sched : (s.setByte k b).sched = s.sched := rfl
@[simp] theorem State.setByte_brew : (s.setByte k b).brew = s.brew := rfl
@[simp] theorem State.setByte_posts : (s.setByte k b).posts = s.posts := rfl
@[simp] theorem State.setByte_net : (s.setByte k b).net = s.net := rfl
@[simp] theorem State.setByte_fab : (s.setByte k b).fab = s.fab := rfl
@[simp] theorem State.setByte_carafe : (s.setByte k b).carafe = s.carafe := rfl
@[simp] theorem State.setByte_repair : (s.setByte k b).repair = s.repair := rfl
@[simp] theorem State.setByte_host : (s.setByte k b).host = s.host := rfl
@[simp] theorem State.setByte_fresh : (s.setByte k b).fresh = s.fresh := rfl
@[simp] theorem State.setByte_nextReq : (s.setByte k b).nextReq = s.nextReq := rfl
end

section
variable (s : State) (l : List (Nat × Byte))
@[simp] theorem State.setBytes_agenda : (s.setBytes l).agenda = s.agenda := rfl
@[simp] theorem State.setBytes_cur : (s.setBytes l).cur = s.cur := rfl
@[simp] theorem State.setBytes_time : (s.setBytes l).time = s.time := rfl
@[simp] theorem State.setBytes_cores : (s.setBytes l).cores = s.cores := rfl
@[simp] theorem State.setBytes_jobs : (s.setBytes l).jobs = s.jobs := rfl
@[simp] theorem State.setBytes_engs : (s.setBytes l).engs = s.engs := rfl
@[simp] theorem State.setBytes_tags : (s.setBytes l).tags = s.tags := rfl
@[simp] theorem State.setBytes_poison : (s.setBytes l).poison = s.poison := rfl
@[simp] theorem State.setBytes_waiters : (s.setBytes l).waiters = s.waiters := rfl
@[simp] theorem State.setBytes_slices : (s.setBytes l).slices = s.slices := rfl
@[simp] theorem State.setBytes_past : (s.setBytes l).past = s.past := rfl
@[simp] theorem State.setBytes_crema : (s.setBytes l).crema = s.crema := rfl
@[simp] theorem State.setBytes_kdp : (s.setBytes l).kdp = s.kdp := rfl
@[simp] theorem State.setBytes_xlats : (s.setBytes l).xlats = s.xlats := rfl
@[simp] theorem State.setBytes_ctxs : (s.setBytes l).ctxs = s.ctxs := rfl
@[simp] theorem State.setBytes_sched : (s.setBytes l).sched = s.sched := rfl
@[simp] theorem State.setBytes_brew : (s.setBytes l).brew = s.brew := rfl
@[simp] theorem State.setBytes_posts : (s.setBytes l).posts = s.posts := rfl
@[simp] theorem State.setBytes_net : (s.setBytes l).net = s.net := rfl
@[simp] theorem State.setBytes_fab : (s.setBytes l).fab = s.fab := rfl
@[simp] theorem State.setBytes_carafe : (s.setBytes l).carafe = s.carafe := rfl
@[simp] theorem State.setBytes_repair : (s.setBytes l).repair = s.repair := rfl
@[simp] theorem State.setBytes_host : (s.setBytes l).host = s.host := rfl
@[simp] theorem State.setBytes_fresh : (s.setBytes l).fresh = s.fresh := rfl
@[simp] theorem State.setBytes_nextReq : (s.setBytes l).nextReq = s.nextReq := rfl
end

section
variable (s : State) (k n v : Nat)
@[simp] theorem State.write_agenda : (s.write k n v).agenda = s.agenda := rfl
@[simp] theorem State.write_cur : (s.write k n v).cur = s.cur := rfl
@[simp] theorem State.write_time : (s.write k n v).time = s.time := rfl
@[simp] theorem State.write_cores : (s.write k n v).cores = s.cores := rfl
@[simp] theorem State.write_jobs : (s.write k n v).jobs = s.jobs := rfl
@[simp] theorem State.write_engs : (s.write k n v).engs = s.engs := rfl
@[simp] theorem State.write_tags : (s.write k n v).tags = s.tags := rfl
@[simp] theorem State.write_poison : (s.write k n v).poison = s.poison := rfl
@[simp] theorem State.write_waiters : (s.write k n v).waiters = s.waiters := rfl
@[simp] theorem State.write_slices : (s.write k n v).slices = s.slices := rfl
@[simp] theorem State.write_past : (s.write k n v).past = s.past := rfl
@[simp] theorem State.write_crema : (s.write k n v).crema = s.crema := rfl
@[simp] theorem State.write_kdp : (s.write k n v).kdp = s.kdp := rfl
@[simp] theorem State.write_xlats : (s.write k n v).xlats = s.xlats := rfl
@[simp] theorem State.write_ctxs : (s.write k n v).ctxs = s.ctxs := rfl
@[simp] theorem State.write_sched : (s.write k n v).sched = s.sched := rfl
@[simp] theorem State.write_brew : (s.write k n v).brew = s.brew := rfl
@[simp] theorem State.write_posts : (s.write k n v).posts = s.posts := rfl
@[simp] theorem State.write_net : (s.write k n v).net = s.net := rfl
@[simp] theorem State.write_fab : (s.write k n v).fab = s.fab := rfl
@[simp] theorem State.write_carafe : (s.write k n v).carafe = s.carafe := rfl
@[simp] theorem State.write_repair : (s.write k n v).repair = s.repair := rfl
@[simp] theorem State.write_host : (s.write k n v).host = s.host := rfl
@[simp] theorem State.write_fresh : (s.write k n v).fresh = s.fresh := rfl
@[simp] theorem State.write_nextReq : (s.write k n v).nextReq = s.nextReq := rfl
end

section
variable (s : State) (w : Nat) (b : Bool)
@[simp] theorem State.setTag_agenda : (s.setTag w b).agenda = s.agenda := rfl
@[simp] theorem State.setTag_cur : (s.setTag w b).cur = s.cur := rfl
@[simp] theorem State.setTag_time : (s.setTag w b).time = s.time := rfl
@[simp] theorem State.setTag_cores : (s.setTag w b).cores = s.cores := rfl
@[simp] theorem State.setTag_jobs : (s.setTag w b).jobs = s.jobs := rfl
@[simp] theorem State.setTag_engs : (s.setTag w b).engs = s.engs := rfl
@[simp] theorem State.setTag_mem : (s.setTag w b).mem = s.mem := rfl
@[simp] theorem State.setTag_poison : (s.setTag w b).poison = s.poison := rfl
@[simp] theorem State.setTag_waiters : (s.setTag w b).waiters = s.waiters := rfl
@[simp] theorem State.setTag_slices : (s.setTag w b).slices = s.slices := rfl
@[simp] theorem State.setTag_past : (s.setTag w b).past = s.past := rfl
@[simp] theorem State.setTag_crema : (s.setTag w b).crema = s.crema := rfl
@[simp] theorem State.setTag_kdp : (s.setTag w b).kdp = s.kdp := rfl
@[simp] theorem State.setTag_xlats : (s.setTag w b).xlats = s.xlats := rfl
@[simp] theorem State.setTag_ctxs : (s.setTag w b).ctxs = s.ctxs := rfl
@[simp] theorem State.setTag_sched : (s.setTag w b).sched = s.sched := rfl
@[simp] theorem State.setTag_brew : (s.setTag w b).brew = s.brew := rfl
@[simp] theorem State.setTag_posts : (s.setTag w b).posts = s.posts := rfl
@[simp] theorem State.setTag_net : (s.setTag w b).net = s.net := rfl
@[simp] theorem State.setTag_fab : (s.setTag w b).fab = s.fab := rfl
@[simp] theorem State.setTag_carafe : (s.setTag w b).carafe = s.carafe := rfl
@[simp] theorem State.setTag_repair : (s.setTag w b).repair = s.repair := rfl
@[simp] theorem State.setTag_host : (s.setTag w b).host = s.host := rfl
@[simp] theorem State.setTag_fresh : (s.setTag w b).fresh = s.fresh := rfl
@[simp] theorem State.setTag_nextReq : (s.setTag w b).nextReq = s.nextReq := rfl
end

section
variable (s : State) (ws : List Nat) (b : Bool)
@[simp] theorem State.setTags_agenda : (s.setTags ws b).agenda = s.agenda := rfl
@[simp] theorem State.setTags_cur : (s.setTags ws b).cur = s.cur := rfl
@[simp] theorem State.setTags_time : (s.setTags ws b).time = s.time := rfl
@[simp] theorem State.setTags_cores : (s.setTags ws b).cores = s.cores := rfl
@[simp] theorem State.setTags_jobs : (s.setTags ws b).jobs = s.jobs := rfl
@[simp] theorem State.setTags_engs : (s.setTags ws b).engs = s.engs := rfl
@[simp] theorem State.setTags_mem : (s.setTags ws b).mem = s.mem := rfl
@[simp] theorem State.setTags_poison : (s.setTags ws b).poison = s.poison := rfl
@[simp] theorem State.setTags_waiters : (s.setTags ws b).waiters = s.waiters := rfl
@[simp] theorem State.setTags_slices : (s.setTags ws b).slices = s.slices := rfl
@[simp] theorem State.setTags_past : (s.setTags ws b).past = s.past := rfl
@[simp] theorem State.setTags_crema : (s.setTags ws b).crema = s.crema := rfl
@[simp] theorem State.setTags_kdp : (s.setTags ws b).kdp = s.kdp := rfl
@[simp] theorem State.setTags_xlats : (s.setTags ws b).xlats = s.xlats := rfl
@[simp] theorem State.setTags_ctxs : (s.setTags ws b).ctxs = s.ctxs := rfl
@[simp] theorem State.setTags_sched : (s.setTags ws b).sched = s.sched := rfl
@[simp] theorem State.setTags_brew : (s.setTags ws b).brew = s.brew := rfl
@[simp] theorem State.setTags_posts : (s.setTags ws b).posts = s.posts := rfl
@[simp] theorem State.setTags_net : (s.setTags ws b).net = s.net := rfl
@[simp] theorem State.setTags_fab : (s.setTags ws b).fab = s.fab := rfl
@[simp] theorem State.setTags_carafe : (s.setTags ws b).carafe = s.carafe := rfl
@[simp] theorem State.setTags_repair : (s.setTags ws b).repair = s.repair := rfl
@[simp] theorem State.setTags_host : (s.setTags ws b).host = s.host := rfl
@[simp] theorem State.setTags_fresh : (s.setTags ws b).fresh = s.fresh := rfl
@[simp] theorem State.setTags_nextReq : (s.setTags ws b).nextReq = s.nextReq := rfl
end

section
variable (s : State) (m : Msg)
@[simp] theorem State.post_agenda : (s.post m).agenda = s.agenda := rfl
@[simp] theorem State.post_cur : (s.post m).cur = s.cur := rfl
@[simp] theorem State.post_time : (s.post m).time = s.time := rfl
@[simp] theorem State.post_cores : (s.post m).cores = s.cores := rfl
@[simp] theorem State.post_jobs : (s.post m).jobs = s.jobs := rfl
@[simp] theorem State.post_engs : (s.post m).engs = s.engs := rfl
@[simp] theorem State.post_mem : (s.post m).mem = s.mem := rfl
@[simp] theorem State.post_tags : (s.post m).tags = s.tags := rfl
@[simp] theorem State.post_poison : (s.post m).poison = s.poison := rfl
@[simp] theorem State.post_waiters : (s.post m).waiters = s.waiters := rfl
@[simp] theorem State.post_slices : (s.post m).slices = s.slices := rfl
@[simp] theorem State.post_past : (s.post m).past = s.past := rfl
@[simp] theorem State.post_crema : (s.post m).crema = s.crema := rfl
@[simp] theorem State.post_kdp : (s.post m).kdp = s.kdp := rfl
@[simp] theorem State.post_xlats : (s.post m).xlats = s.xlats := rfl
@[simp] theorem State.post_ctxs : (s.post m).ctxs = s.ctxs := rfl
@[simp] theorem State.post_sched : (s.post m).sched = s.sched := rfl
@[simp] theorem State.post_brew : (s.post m).brew = s.brew := rfl
@[simp] theorem State.post_posts : (s.post m).posts = s.posts := rfl
@[simp] theorem State.post_fab : (s.post m).fab = s.fab := rfl
@[simp] theorem State.post_carafe : (s.post m).carafe = s.carafe := rfl
@[simp] theorem State.post_repair : (s.post m).repair = s.repair := rfl
@[simp] theorem State.post_host : (s.post m).host = s.host := rfl
@[simp] theorem State.post_fresh : (s.post m).fresh = s.fresh := rfl
@[simp] theorem State.post_nextReq : (s.post m).nextReq = s.nextReq := rfl
end

section
variable (s : State) (n : Nat) (m : Msg)
@[simp] theorem State.enqueue_agenda : (s.enqueue n m).agenda = s.agenda := rfl
@[simp] theorem State.enqueue_cur : (s.enqueue n m).cur = s.cur := rfl
@[simp] theorem State.enqueue_time : (s.enqueue n m).time = s.time := rfl
@[simp] theorem State.enqueue_jobs : (s.enqueue n m).jobs = s.jobs := rfl
@[simp] theorem State.enqueue_engs : (s.enqueue n m).engs = s.engs := rfl
@[simp] theorem State.enqueue_mem : (s.enqueue n m).mem = s.mem := rfl
@[simp] theorem State.enqueue_tags : (s.enqueue n m).tags = s.tags := rfl
@[simp] theorem State.enqueue_poison : (s.enqueue n m).poison = s.poison := rfl
@[simp] theorem State.enqueue_waiters : (s.enqueue n m).waiters = s.waiters := rfl
@[simp] theorem State.enqueue_slices : (s.enqueue n m).slices = s.slices := rfl
@[simp] theorem State.enqueue_past : (s.enqueue n m).past = s.past := rfl
@[simp] theorem State.enqueue_crema : (s.enqueue n m).crema = s.crema := rfl
@[simp] theorem State.enqueue_kdp : (s.enqueue n m).kdp = s.kdp := rfl
@[simp] theorem State.enqueue_xlats : (s.enqueue n m).xlats = s.xlats := rfl
@[simp] theorem State.enqueue_ctxs : (s.enqueue n m).ctxs = s.ctxs := rfl
@[simp] theorem State.enqueue_sched : (s.enqueue n m).sched = s.sched := rfl
@[simp] theorem State.enqueue_brew : (s.enqueue n m).brew = s.brew := rfl
@[simp] theorem State.enqueue_posts : (s.enqueue n m).posts = s.posts := rfl
@[simp] theorem State.enqueue_net : (s.enqueue n m).net = s.net := rfl
@[simp] theorem State.enqueue_fab : (s.enqueue n m).fab = s.fab := rfl
@[simp] theorem State.enqueue_carafe : (s.enqueue n m).carafe = s.carafe := rfl
@[simp] theorem State.enqueue_repair : (s.enqueue n m).repair = s.repair := rfl
@[simp] theorem State.enqueue_host : (s.enqueue n m).host = s.host := rfl
@[simp] theorem State.enqueue_fresh : (s.enqueue n m).fresh = s.fresh := rfl
@[simp] theorem State.enqueue_nextReq : (s.enqueue n m).nextReq = s.nextReq := rfl
end

section
variable (s : State) (n : Nat)
@[simp] theorem State.dropLines_agenda : (s.dropLines n).agenda = s.agenda := rfl
@[simp] theorem State.dropLines_cur : (s.dropLines n).cur = s.cur := rfl
@[simp] theorem State.dropLines_time : (s.dropLines n).time = s.time := rfl
@[simp] theorem State.dropLines_jobs : (s.dropLines n).jobs = s.jobs := rfl
@[simp] theorem State.dropLines_engs : (s.dropLines n).engs = s.engs := rfl
@[simp] theorem State.dropLines_mem : (s.dropLines n).mem = s.mem := rfl
@[simp] theorem State.dropLines_tags : (s.dropLines n).tags = s.tags := rfl
@[simp] theorem State.dropLines_poison : (s.dropLines n).poison = s.poison := rfl
@[simp] theorem State.dropLines_waiters : (s.dropLines n).waiters = s.waiters := rfl
@[simp] theorem State.dropLines_slices : (s.dropLines n).slices = s.slices := rfl
@[simp] theorem State.dropLines_past : (s.dropLines n).past = s.past := rfl
@[simp] theorem State.dropLines_crema : (s.dropLines n).crema = s.crema := rfl
@[simp] theorem State.dropLines_kdp : (s.dropLines n).kdp = s.kdp := rfl
@[simp] theorem State.dropLines_xlats : (s.dropLines n).xlats = s.xlats := rfl
@[simp] theorem State.dropLines_ctxs : (s.dropLines n).ctxs = s.ctxs := rfl
@[simp] theorem State.dropLines_sched : (s.dropLines n).sched = s.sched := rfl
@[simp] theorem State.dropLines_brew : (s.dropLines n).brew = s.brew := rfl
@[simp] theorem State.dropLines_posts : (s.dropLines n).posts = s.posts := rfl
@[simp] theorem State.dropLines_net : (s.dropLines n).net = s.net := rfl
@[simp] theorem State.dropLines_fab : (s.dropLines n).fab = s.fab := rfl
@[simp] theorem State.dropLines_carafe : (s.dropLines n).carafe = s.carafe := rfl
@[simp] theorem State.dropLines_repair : (s.dropLines n).repair = s.repair := rfl
@[simp] theorem State.dropLines_host : (s.dropLines n).host = s.host := rfl
@[simp] theorem State.dropLines_fresh : (s.dropLines n).fresh = s.fresh := rfl
@[simp] theorem State.dropLines_nextReq : (s.dropLines n).nextReq = s.nextReq := rfl
end

section
variable (s : State) (n : Nat)
@[simp] theorem State.dropFetched_agenda : (s.dropFetched n).agenda = s.agenda := rfl
@[simp] theorem State.dropFetched_cur : (s.dropFetched n).cur = s.cur := rfl
@[simp] theorem State.dropFetched_time : (s.dropFetched n).time = s.time := rfl
@[simp] theorem State.dropFetched_jobs : (s.dropFetched n).jobs = s.jobs := rfl
@[simp] theorem State.dropFetched_engs : (s.dropFetched n).engs = s.engs := rfl
@[simp] theorem State.dropFetched_mem : (s.dropFetched n).mem = s.mem := rfl
@[simp] theorem State.dropFetched_tags : (s.dropFetched n).tags = s.tags := rfl
@[simp] theorem State.dropFetched_poison : (s.dropFetched n).poison = s.poison := rfl
@[simp] theorem State.dropFetched_waiters : (s.dropFetched n).waiters = s.waiters := rfl
@[simp] theorem State.dropFetched_slices : (s.dropFetched n).slices = s.slices := rfl
@[simp] theorem State.dropFetched_past : (s.dropFetched n).past = s.past := rfl
@[simp] theorem State.dropFetched_crema : (s.dropFetched n).crema = s.crema := rfl
@[simp] theorem State.dropFetched_kdp : (s.dropFetched n).kdp = s.kdp := rfl
@[simp] theorem State.dropFetched_xlats : (s.dropFetched n).xlats = s.xlats := rfl
@[simp] theorem State.dropFetched_ctxs : (s.dropFetched n).ctxs = s.ctxs := rfl
@[simp] theorem State.dropFetched_sched : (s.dropFetched n).sched = s.sched := rfl
@[simp] theorem State.dropFetched_brew : (s.dropFetched n).brew = s.brew := rfl
@[simp] theorem State.dropFetched_posts : (s.dropFetched n).posts = s.posts := rfl
@[simp] theorem State.dropFetched_net : (s.dropFetched n).net = s.net := rfl
@[simp] theorem State.dropFetched_fab : (s.dropFetched n).fab = s.fab := rfl
@[simp] theorem State.dropFetched_carafe : (s.dropFetched n).carafe = s.carafe := rfl
@[simp] theorem State.dropFetched_repair : (s.dropFetched n).repair = s.repair := rfl
@[simp] theorem State.dropFetched_host : (s.dropFetched n).host = s.host := rfl
@[simp] theorem State.dropFetched_fresh : (s.dropFetched n).fresh = s.fresh := rfl
@[simp] theorem State.dropFetched_nextReq : (s.dropFetched n).nextReq = s.nextReq := rfl
end

section
variable (s : State) (sl : SlotId)
@[simp] theorem State.block_agenda : (s.block sl).agenda = s.agenda := rfl
@[simp] theorem State.block_cur : (s.block sl).cur = s.cur := rfl
@[simp] theorem State.block_time : (s.block sl).time = s.time := rfl
@[simp] theorem State.block_jobs : (s.block sl).jobs = s.jobs := rfl
@[simp] theorem State.block_engs : (s.block sl).engs = s.engs := rfl
@[simp] theorem State.block_mem : (s.block sl).mem = s.mem := rfl
@[simp] theorem State.block_tags : (s.block sl).tags = s.tags := rfl
@[simp] theorem State.block_poison : (s.block sl).poison = s.poison := rfl
@[simp] theorem State.block_waiters : (s.block sl).waiters = s.waiters := rfl
@[simp] theorem State.block_slices : (s.block sl).slices = s.slices := rfl
@[simp] theorem State.block_past : (s.block sl).past = s.past := rfl
@[simp] theorem State.block_crema : (s.block sl).crema = s.crema := rfl
@[simp] theorem State.block_kdp : (s.block sl).kdp = s.kdp := rfl
@[simp] theorem State.block_xlats : (s.block sl).xlats = s.xlats := rfl
@[simp] theorem State.block_ctxs : (s.block sl).ctxs = s.ctxs := rfl
@[simp] theorem State.block_sched : (s.block sl).sched = s.sched := rfl
@[simp] theorem State.block_brew : (s.block sl).brew = s.brew := rfl
@[simp] theorem State.block_posts : (s.block sl).posts = s.posts := rfl
@[simp] theorem State.block_net : (s.block sl).net = s.net := rfl
@[simp] theorem State.block_fab : (s.block sl).fab = s.fab := rfl
@[simp] theorem State.block_carafe : (s.block sl).carafe = s.carafe := rfl
@[simp] theorem State.block_repair : (s.block sl).repair = s.repair := rfl
@[simp] theorem State.block_host : (s.block sl).host = s.host := rfl
@[simp] theorem State.block_fresh : (s.block sl).fresh = s.fresh := rfl
@[simp] theorem State.block_nextReq : (s.block sl).nextReq = s.nextReq := rfl
end

section
variable (s : State) (f : Frame) (code : Nat) (data : List Byte) (e : Option Nat)
@[simp] theorem State.answer_agenda : (s.answer f code data e).agenda = s.agenda := rfl
@[simp] theorem State.answer_cur : (s.answer f code data e).cur = s.cur := rfl
@[simp] theorem State.answer_time : (s.answer f code data e).time = s.time := rfl
@[simp] theorem State.answer_cores : (s.answer f code data e).cores = s.cores := rfl
@[simp] theorem State.answer_jobs : (s.answer f code data e).jobs = s.jobs := rfl
@[simp] theorem State.answer_engs : (s.answer f code data e).engs = s.engs := rfl
@[simp] theorem State.answer_mem : (s.answer f code data e).mem = s.mem := rfl
@[simp] theorem State.answer_tags : (s.answer f code data e).tags = s.tags := rfl
@[simp] theorem State.answer_poison : (s.answer f code data e).poison = s.poison := rfl
@[simp] theorem State.answer_waiters : (s.answer f code data e).waiters = s.waiters := rfl
@[simp] theorem State.answer_slices : (s.answer f code data e).slices = s.slices := rfl
@[simp] theorem State.answer_past : (s.answer f code data e).past = s.past := rfl
@[simp] theorem State.answer_crema : (s.answer f code data e).crema = s.crema := rfl
@[simp] theorem State.answer_kdp : (s.answer f code data e).kdp = s.kdp := rfl
@[simp] theorem State.answer_xlats : (s.answer f code data e).xlats = s.xlats := rfl
@[simp] theorem State.answer_ctxs : (s.answer f code data e).ctxs = s.ctxs := rfl
@[simp] theorem State.answer_sched : (s.answer f code data e).sched = s.sched := rfl
@[simp] theorem State.answer_brew : (s.answer f code data e).brew = s.brew := rfl
@[simp] theorem State.answer_posts : (s.answer f code data e).posts = s.posts := rfl
@[simp] theorem State.answer_net : (s.answer f code data e).net = s.net := rfl
@[simp] theorem State.answer_carafe : (s.answer f code data e).carafe = s.carafe := rfl
@[simp] theorem State.answer_repair : (s.answer f code data e).repair = s.repair := rfl
@[simp] theorem State.answer_host : (s.answer f code data e).host = s.host := rfl
@[simp] theorem State.answer_fresh : (s.answer f code data e).fresh = s.fresh := rfl
@[simp] theorem State.answer_nextReq : (s.answer f code data e).nextReq = s.nextReq := rfl
end

section
variable (s : State) (n : Nat) (c : BitVec 8) (v : Word)
@[simp] theorem State.interrupt_agenda : (s.interrupt n c v).agenda = s.agenda := rfl
@[simp] theorem State.interrupt_cur : (s.interrupt n c v).cur = s.cur := rfl
@[simp] theorem State.interrupt_time : (s.interrupt n c v).time = s.time := rfl
@[simp] theorem State.interrupt_cores : (s.interrupt n c v).cores = s.cores := rfl
@[simp] theorem State.interrupt_jobs : (s.interrupt n c v).jobs = s.jobs := rfl
@[simp] theorem State.interrupt_engs : (s.interrupt n c v).engs = s.engs := rfl
@[simp] theorem State.interrupt_mem : (s.interrupt n c v).mem = s.mem := rfl
@[simp] theorem State.interrupt_tags : (s.interrupt n c v).tags = s.tags := rfl
@[simp] theorem State.interrupt_poison : (s.interrupt n c v).poison = s.poison := rfl
@[simp] theorem State.interrupt_waiters : (s.interrupt n c v).waiters = s.waiters := rfl
@[simp] theorem State.interrupt_slices : (s.interrupt n c v).slices = s.slices := rfl
@[simp] theorem State.interrupt_past : (s.interrupt n c v).past = s.past := rfl
@[simp] theorem State.interrupt_crema : (s.interrupt n c v).crema = s.crema := rfl
@[simp] theorem State.interrupt_kdp : (s.interrupt n c v).kdp = s.kdp := rfl
@[simp] theorem State.interrupt_xlats : (s.interrupt n c v).xlats = s.xlats := rfl
@[simp] theorem State.interrupt_ctxs : (s.interrupt n c v).ctxs = s.ctxs := rfl
@[simp] theorem State.interrupt_brew : (s.interrupt n c v).brew = s.brew := rfl
@[simp] theorem State.interrupt_posts : (s.interrupt n c v).posts = s.posts := rfl
@[simp] theorem State.interrupt_net : (s.interrupt n c v).net = s.net := rfl
@[simp] theorem State.interrupt_fab : (s.interrupt n c v).fab = s.fab := rfl
@[simp] theorem State.interrupt_carafe : (s.interrupt n c v).carafe = s.carafe := rfl
@[simp] theorem State.interrupt_repair : (s.interrupt n c v).repair = s.repair := rfl
@[simp] theorem State.interrupt_host : (s.interrupt n c v).host = s.host := rfl
@[simp] theorem State.interrupt_fresh : (s.interrupt n c v).fresh = s.fresh := rfl
@[simp] theorem State.interrupt_nextReq : (s.interrupt n c v).nextReq = s.nextReq := rfl
end

/-! ## Cores, slots and contexts -/

@[simp] theorem State.core_setCore (s : State) (n k : Nat) (c : Core) :
    (s.setCore n c).core k = if n = k then c else s.core k := mget_mput _ _ _ _ _

@[simp] theorem State.setCore_setCore (s : State) (n : Nat) (c e : Core) : (s.setCore n c).setCore n e = s.setCore n e := by
  simp [State.setCore]

theorem State.setCore_cores (s : State) (n : Nat) (c : Core) : { s.setCore n c with cores := s.cores } = s := rfl

@[simp] theorem State.core_modCore (s : State) (n k : Nat) (f : Core → Core) :
    (s.modCore n f).core k = if n = k then f (s.core n) else s.core k := by simp [State.modCore]

@[simp] theorem Core.slot_setSlot (c : Core) (i j : Fin 4) (x : Slot) :
    (c.setSlot i x).slot j = if i = j then x else c.slot j := by
  simp only [Core.slot, Core.setSlot, Fin.getElem_fin, Vector.getElem_set, Fin.ext_iff]

@[simp] theorem Core.setSlot_setSlot (c : Core) (i : Fin 4) (x y : Slot) : (c.setSlot i x).setSlot i y = c.setSlot i y := by
  simp [Core.setSlot]

theorem Core.setSlot_slots (c : Core) (i : Fin 4) (x : Slot) : { c.setSlot i x with slots := c.slots } = c := rfl

theorem State.slot_setSlot (s : State) (a b : SlotId) (x : Slot) :
    (s.setSlot a x).slot b = if a = b then x else s.slot b := by
  obtain ⟨ac, ai⟩ := a
  obtain ⟨bc, bi⟩ := b
  simp only [State.slot, State.setSlot, State.core_setCore, SlotId.mk.injEq]
  by_cases h : ac = bc
  · subst h; simp
  · simp [h]

@[simp] theorem State.slot_setSlot_same (s : State) (a : SlotId) (x : Slot) : (s.setSlot a x).slot a = x := by
  simp [State.slot_setSlot]

@[simp] theorem State.slot_modSlot_same (s : State) (a : SlotId) (f : Slot → Slot) : (s.modSlot a f).slot a = f (s.slot a) := by
  simp [State.modSlot]

theorem State.slot_modSlot_other (s : State) {a b : SlotId} (f : Slot → Slot) (h : a ≠ b) : (s.modSlot a f).slot b = s.slot b := by
  simp [State.modSlot, State.slot_setSlot, h]

@[simp] theorem State.setSlot_setSlot (s : State) (a : SlotId) (x y : Slot) : (s.setSlot a x).setSlot a y = s.setSlot a y := by
  simp [State.setSlot]

@[simp] theorem State.modSlot_modSlot (s : State) (a : SlotId) (f g : Slot → Slot) :
    (s.modSlot a f).modSlot a g = s.modSlot a (g ∘ f) := by simp [State.modSlot]

@[simp] theorem State.me_modMe (s : State) (f : Slot → Slot) : (s.modMe f).me = f s.me := by
  simp [State.modMe, State.me]

theorem State.core_setSlot (s : State) (a : SlotId) (x : Slot) (n : Nat) :
    { (s.setSlot a x).core n with slots := (s.core n).slots } = s.core n := by
  simp only [State.setSlot, State.core_setCore]
  split
  · subst_vars; rfl
  · rfl

@[simp] theorem State.ctx_setCtx (s : State) (n k : Nat) (c : Ctx) :
    (s.setCtx n c).ctx k = if n = k then c else s.ctx k := mget_mput _ _ _ _ _

@[simp] theorem State.ctx_modCtx (s : State) (n k : Nat) (f : Ctx → Ctx) :
    (s.modCtx n f).ctx k = if n = k then f (s.ctx n) else s.ctx k := by simp [State.modCtx]

@[simp] theorem State.core_setCtx (s : State) (n k : Nat) (c : Ctx) : (s.setCtx n c).core k = s.core k := rfl
@[simp] theorem State.core_setBytes (s : State) (l : List (Nat × Byte)) (k : Nat) : (s.setBytes l).core k = s.core k := rfl
@[simp] theorem State.core_setTags (s : State) (ws : List Nat) (b : Bool) (k : Nat) : (s.setTags ws b).core k = s.core k := rfl
@[simp] theorem State.slot_setBytes (s : State) (l : List (Nat × Byte)) (a : SlotId) : (s.setBytes l).slot a = s.slot a := rfl
@[simp] theorem State.slot_setTags (s : State) (ws : List Nat) (b : Bool) (a : SlotId) : (s.setTags ws b).slot a = s.slot a := rfl
@[simp] theorem State.ctx_setCore (s : State) (n k : Nat) (c : Core) : (s.setCore n c).ctx k = s.ctx k := rfl
@[simp] theorem State.ctx_modSlot (s : State) (a : SlotId) (f : Slot → Slot) (k : Nat) : (s.modSlot a f).ctx k = s.ctx k := rfl

/-! ## Registers of a slot -/

/-- The write of a register: it holds the value and is full, and every other register is as before. -/
theorem Slot.readG_writeG (x : Slot) (d r : Reg) (v : Word) :
    (x.writeG d v).readG r = if r = d ∧ d ≠ 0 then v else x.readG r := by
  unfold Slot.writeG Slot.readG
  by_cases hd : d = 0
  · simp [hd]
  · by_cases hr : r = 0
    · subst hr
      grind
    · simp only [hd, hr, if_false, Vector.getElem_set, ← BitVec.toNat_eq, eq_comm (a := d), ne_eq, not_false_eq_true, and_true]

theorem Slot.tagG_writeG (x : Slot) (d r : Reg) (v : Word) :
    (x.writeG d v).tagG r = if r = d then .full else x.tagG r := by
  unfold Slot.writeG Slot.tagG
  by_cases hd : d = 0
  · subst hd; by_cases hr : r = 0 <;> grind
  · by_cases hr : r = 0
    · subst hr; simp
    · simp only [hd, hr, if_false, Vector.getElem_set, ← BitVec.toNat_eq, eq_comm (a := d)]

theorem Slot.tagG_setTagG (x : Slot) (d r : Reg) (t : Tag) :
    (x.setTagG d t).tagG r = if r = d ∧ d ≠ 0 then t else x.tagG r := by
  unfold Slot.setTagG Slot.tagG
  by_cases hd : d = 0
  · subst hd; by_cases hr : r = 0 <;> grind
  · by_cases hr : r = 0
    · subst hr
      grind
    · simp only [hd, hr, if_false, Vector.getElem_set, ← BitVec.toNat_eq, eq_comm (a := d), ne_eq, not_false_eq_true, and_true]

theorem Slot.readG_setTagG (x : Slot) (d r : Reg) (t : Tag) : (x.setTagG d t).readG r = x.readG r := by
  unfold Slot.setTagG; split <;> rfl

/-- A register write touches the g file and its tags alone. -/
theorem Slot.writeG_frame (x : Slot) (d : Reg) (v : Word) : { x.writeG d v with g := x.g, gt := x.gt } = x := by
  unfold Slot.writeG; split <;> rfl

theorem Slot.setTagG_frame (x : Slot) (d : Reg) (t : Tag) : { x.setTagG d t with gt := x.gt } = x := by
  unfold Slot.setTagG; split <;> rfl

theorem Slot.readM_writeM (x : Slot) (d m : MReg) (v : BitVec 16) :
    (x.writeM d v).readM m = if m = d ∧ d ≠ 0 then v else x.readM m := by
  unfold Slot.writeM Slot.readM
  by_cases hd : d = 0
  · simp [hd]
  · by_cases hr : m = 0
    · subst hr
      grind
    · simp only [hd, hr, if_false, Vector.getElem_set, ← BitVec.toNat_eq, eq_comm (a := d), ne_eq, not_false_eq_true, and_true]

theorem Core.readV_writeV (c : Core) (n k : Nat) (v : Vector Word32 16) :
    (c.writeV n v).readV k = if n = k ∧ n < 128 then v else c.readV k := by
  unfold Core.writeV Core.readV
  by_cases hn : n < 128
  · by_cases hk : k < 128
    · simp [hn, hk, Vector.getElem_set]
    · have : n ≠ k := by omega
      simp [hn, hk, this]
  · simp [hn]

theorem Core.tagV_writeV (c : Core) (n k : Nat) (v : Vector Word32 16) :
    (c.writeV n v).tagV k = if n = k then .full else c.tagV k := by
  unfold Core.writeV Core.tagV
  by_cases hn : n < 128
  · by_cases hk : k < 128
    · simp [hn, hk, Vector.getElem_set]
    · have : n ≠ k := by omega
      simp [hk, this]
  · by_cases hk : n = k
    · subst hk; simp [hn]
    · simp [hn, hk]

/-! ## Memory -/

theorem memPuts_wf {m : List Host.Cell} (l : List (Nat × Byte)) (h : Memory.wf m = true) : Memory.wf (memPuts m l) = true := by
  induction l generalizing m with
  | nil => exact h
  | cons p l ih => exact ih (mwf_mset h)

theorem setTags_wf {m : SMap Bool} (ws : List Nat) (b : Bool) (h : mwf true m = true) :
    mwf true (ws.foldl (fun t w => mset true t w b) m) = true := by
  induction ws generalizing m with
  | nil => exact h
  | cons w ws ih => exact ih (mwf_mset h)

theorem unpoison_wf {m : SMap Bool} (ws : List Nat) (h : mwf false m = true) :
    mwf false (ws.foldl (fun t w => mset false t w false) m) = true := by
  induction ws generalizing m with
  | nil => exact h
  | cons w ws ih => exact ih (mwf_mset h)

theorem State.setByte_wf (s : State) (k : Nat) (b : Byte) (h : Memory.wf s.mem = true) : Memory.wf (s.setByte k b).mem = true :=
  mwf_mset h

theorem State.setBytes_wf (s : State) (l : List (Nat × Byte)) (h : Memory.wf s.mem = true) :
    Memory.wf (s.setBytes l).mem = true := memPuts_wf l h

theorem State.write_wf (s : State) (k n v : Nat) (h : Memory.wf s.mem = true) : Memory.wf (s.write k n v).mem = true :=
  memPuts_wf _ h

theorem State.put_mem (s : State) (ks : List Nat) (bs : List Byte) : (s.put ks bs).mem = memPuts s.mem (ks.zip bs) := by
  unfold State.put; simp only []; split <;> rfl

theorem State.put_wf (s : State) (ks : List Nat) (bs : List Byte) (h : Memory.wf s.mem = true) :
    Memory.wf (s.put ks bs).mem = true := by rw [State.put_mem]; exact memPuts_wf _ h

/-- A byte after a write of one byte. -/
theorem State.byte_setByte (s : State) (k j : Nat) (b : Byte) (h : Memory.wf s.mem = true) :
    (s.setByte k b).byte j = if k = j then b else s.byte j := mget_mset h k j b

/-- A byte that no write names is as before. -/
theorem byte_memPuts_other {m : List Host.Cell} {l : List (Nat × Byte)} {j : Nat} (h : Memory.wf m = true)
    (hj : ∀ p ∈ l, p.1 ≠ j) : mget 0 (memPuts m l) j = mget 0 m j := by
  induction l generalizing m with
  | nil => rfl
  | cons p l ih =>
    rw [memPuts, ih (mwf_mset h) fun q hq => hj q (by simp [hq]), mget_mset h, if_neg (hj p (by simp))]

theorem State.byte_put_other (s : State) (ks : List Nat) (bs : List Byte) (j : Nat) (h : Memory.wf s.mem = true)
    (hj : j ∉ ks) : (s.put ks bs).byte j = s.byte j := by
  unfold State.byte
  rw [State.put_mem]
  exact byte_memPuts_other h fun p hp hpj => hj (hpj ▸ (List.of_mem_zip hp).1)

end Sys2Proof.Machine
end

