-- ==== Sys2Proof/Laws/Ops.lean ====
section
/-!
SUPPORT. What each shared operation can do, said once: the gate of R17 steps 3 and 4, the ends of instructions, the register
forms.
-/

namespace Sys2Proof.Machine

/-! ## The checks of R17 steps 3 and 4 -/

/-- Every source is full and no destination is empty: the instruction runs. -/
theorem withOperands_run {s : State} {srcs : List Source} {dsts : List Dest} {k : Out}
    (hs : ∀ a ∈ srcs, a.tag s.myCore s.me = .full) (hd : ∀ a ∈ dsts, a.tag s.myCore s.me ≠ .empty) :
    withOperands s srcs dsts k = k := by
  have h1 : firstPoison s.myCore s.me srcs = none := by
    induction srcs with
    | nil => rfl
    | cons a l ih => simp [firstPoison, hs a (by simp), ih fun b hb => hs b (by simp [hb])]
  have h2 : firstEmpty s.me srcs = none := by
    induction srcs with
    | nil => rfl
    | cons a l ih =>
      have hl := ih (fun b hb => hs b (by simp [hb])) (by simpa [firstPoison, hs a (by simp)] using h1)
      have ha := hs a (by simp)
      match a with
      | .g r o true => simp only [Source.tag] at ha; simp [firstEmpty, ha, hl]
      | .g r o false => simpa [firstEmpty] using hl
      | .v n => simpa [firstEmpty] using hl
  have h3 : (srcs.any fun a => a.tag s.myCore s.me == .empty) = false := by
    simp only [List.any_eq_false, beq_iff_eq]
    intro a ha; rw [hs a ha]; simp
  have h4 : (dsts.any fun a => a.tag s.myCore s.me == .empty) = false := by
    simp only [List.any_eq_false, beq_iff_eq]
    exact hd
  simp [withOperands, verdict, h1, h2, h3, h4]

/-- A poisoned source, with no poisoned one before it, traps with what it recorded. -/
theorem withOperands_poison {s : State} {srcs : List Source} {dsts : List Dest} {k : Out} {c : BitVec 8} {t : Word}
    (h : firstPoison s.myCore s.me srcs = some (c, t)) : withOperands s srcs dsts k = s.trap c t := by
  simp [withOperands, verdict, h]

/-- No source is poisoned and one read in trap mode is empty: EMPTYREG. -/
theorem withOperands_empty {s : State} {srcs : List Source} {dsts : List Dest} {k : Out} {t : Word}
    (hp : firstPoison s.myCore s.me srcs = none) (h : firstEmpty s.me srcs = some t) :
    withOperands s srcs dsts k = s.trap cEMPTYREG t := by
  simp [withOperands, verdict, hp, h]

/-- Nothing traps, and a source or the destination is empty: the slot blocks. -/
theorem withOperands_block {s : State} {srcs : List Source} {dsts : List Dest} {k : Out}
    (hp : firstPoison s.myCore s.me srcs = none) (he : firstEmpty s.me srcs = none)
    (h : (srcs.any fun a => a.tag s.myCore s.me == .empty) || (dsts.any fun a => a.tag s.myCore s.me == .empty)) :
    withOperands s srcs dsts k = s.stall := by
  simp only [withOperands, verdict, hp, he, h, if_true]

/-- Whatever the gate decides: the instruction runs, traps or blocks. -/
theorem withOperands_cases {s t : State} {srcs : List Source} {dsts : List Dest} {k : Out}
    (h : withOperands s srcs dsts k = .next t) :
    k = .next t ∨ (∃ c v, s.trap c v = .next t) ∨ s.stall = .next t := by
  unfold withOperands at h
  split at h
  · exact .inl h
  · exact .inr (.inl ⟨_, _, h⟩)
  · exact .inr (.inr h)

/-! ## Ends of instructions -/

/-- A change of the issuing slot touches no other slot, and nothing of a core but its slots. -/
theorem State.modMe_slots (s : State) (f : Slot → Slot) :
    (s.modMe f).me = f s.me ∧ (s.modMe f).cur = s.cur ∧ (∀ o, o ≠ s.cur → (s.modMe f).slot o = s.slot o) ∧
      (∀ n, { (s.modMe f).core n with slots := (s.core n).slots } = s.core n) ∧ { s.modMe f with cores := s.cores } = s :=
  ⟨s.me_modMe f, rfl, fun _ ho => s.slot_modSlot_other f ho.symm, fun n => s.core_setSlot _ _ n, rfl⟩

theorem State.retire_next (s : State) (f : Slot → Slot) : s.retire f = .next (s.modMe fun x => (f x).next) := rfl

theorem alu2_run {s : State} {d a b : Reg} {x y : Bool} (f : Word → Word → Word) (ha : s.me.tagG a = .full)
    (hb : s.me.tagG b = .full) (hd : s.me.tagG d ≠ .empty) :
    alu2 s d a b x y f = s.retireG d (f (s.me.readG a) (s.me.readG b)) :=
  withOperands_run (by simp [srcA, srcB, Source.tag, ha, hb]) (by simpa [Dest.tag] using hd)

theorem alu1_run {s : State} {d a : Reg} {x : Bool} (f : Word → Word) (ha : s.me.tagG a = .full) (hd : s.me.tagG d ≠ .empty) :
    alu1 s d a x f = s.retireG d (f (s.me.readG a)) :=
  withOperands_run (by simp [srcA, Source.tag, ha]) (by simpa [Dest.tag] using hd)

theorem branch_run {s : State} {a b : Reg} {x y : Bool} {o : BitVec 14} (p : Word → Word → Bool) (ha : s.me.tagG a = .full)
    (hb : s.me.tagG b = .full) :
    branch s a b x y o p = .next (s.modMe fun t =>
      { t with pc := if p (t.readG a) (t.readG b) then t.pc + (sext14 o <<< 2) else t.pc + 4, wait := .ready }) :=
  withOperands_run (by simp [srcA, srcB, Source.tag, ha, hb]) (by simp)

end Sys2Proof.Machine
end

