-- ==== Sys2Proof/Laws/Access.lean ====
section
/-!
SUPPORT. What an access to memory leaves alone: translations, the lines of the Crema and the data cache of the issuing core are the only
state that a read of memory changes.
-/

namespace Sys2Proof.Machine

/-- From s to t at most cached translations, the lines of the Crema, the data cache of one core and the counter of free values changed. -/
def CacheOnly (core : Nat) (s t : State) : Prop :=
  (∀ n, { t.core n with dcache := (s.core n).dcache } = s.core n) ∧
    (∀ n, n ≠ core → (t.core n).dcache = (s.core n).dcache) ∧
    { t with cores := s.cores, xlats := s.xlats, crema := s.crema, fresh := s.fresh } = s

theorem CacheOnly.refl (core : Nat) (s : State) : CacheOnly core s s := ⟨fun _ => rfl, fun _ _ => rfl, rfl⟩

theorem CacheOnly.trans {core : Nat} {s t u : State} (h : CacheOnly core s t) (g : CacheOnly core t u) : CacheOnly core s u := by
  refine ⟨fun n => ?_, fun n hn => (g.2.1 n hn).trans (h.2.1 n hn), ?_⟩
  · have := congrArg (fun c : Core => { c with dcache := (s.core n).dcache }) (g.1 n)
    exact this.trans (h.1 n)
  · have := congrArg (fun t : State => { t with cores := s.cores, xlats := s.xlats, crema := s.crema, fresh := s.fresh }) g.2.2
    exact this.trans h.2.2

/-- A core whose cache alone changed is another core. -/
theorem CacheOnly.setCore {core : Nat} {s : State} (d : List Line) (f : Nat) :
    CacheOnly core s ({ s with fresh := f }.setCore core { s.core core with dcache := d }) := by
  refine ⟨fun n => ?_, fun n hn => ?_, rfl⟩
  · rw [State.core_setCore]; split
    · subst_vars; rfl
    · rfl
  · rw [State.core_setCore, if_neg (Ne.symm hn)]; rfl

theorem CacheOnly.slot {core : Nat} {s t : State} (h : CacheOnly core s t) (o : SlotId) : t.slot o = s.slot o := by
  have := congrArg (fun c : Core => c.slot o.slot) (h.1 o.core)
  exact this

theorem CacheOnly.cur {core : Nat} {s t : State} (h : CacheOnly core s t) : t.cur = s.cur := by
  have := congrArg State.cur h.2.2; exact this

theorem CacheOnly.me {core : Nat} {s t : State} (h : CacheOnly core s t) : t.me = s.me := by
  unfold State.me; rw [h.cur, h.slot]

theorem CacheOnly.mem {core : Nat} {s t : State} (h : CacheOnly core s t) : t.mem = s.mem := by have := congrArg State.mem h.2.2; exact this
theorem CacheOnly.tags {core : Nat} {s t : State} (h : CacheOnly core s t) : t.tags = s.tags := by have := congrArg State.tags h.2.2; exact this
theorem CacheOnly.poison {core : Nat} {s t : State} (h : CacheOnly core s t) : t.poison = s.poison := by have := congrArg State.poison h.2.2; exact this
theorem CacheOnly.waiters {core : Nat} {s t : State} (h : CacheOnly core s t) : t.waiters = s.waiters := by have := congrArg State.waiters h.2.2; exact this
theorem CacheOnly.nextReq {core : Nat} {s t : State} (h : CacheOnly core s t) : t.nextReq = s.nextReq := by have := congrArg State.nextReq h.2.2; exact this
theorem CacheOnly.time {core : Nat} {s t : State} (h : CacheOnly core s t) : t.time = s.time := by have := congrArg State.time h.2.2; exact this

theorem State.keepXlat_cacheOnly (core : Nat) (s : State) (c v : Nat) : CacheOnly core s (s.keepXlat c v) := by
  unfold State.keepXlat
  split
  · exact .refl _ _
  · split <;> exact ⟨fun _ => rfl, fun _ _ => rfl, rfl⟩

theorem State.translated_cacheOnly (core : Nat) (s : State) (ag : Agent) (ea n : Nat) : CacheOnly core s (s.translated ag ea n) := by
  unfold State.translated
  split
  · exact .refl _ _
  · exact (s.keepXlat_cacheOnly core _ _).trans (State.keepXlat_cacheOnly ..)

theorem State.cremaByte_cacheOnly (core : Nat) (s : State) (ag : Agent) (ea : Nat) : CacheOnly core s (s.cremaByte ag ea) := by
  unfold State.cremaByte
  split
  · split
    · exact .refl _ _
    · unfold State.cremaAccess
      simp only
      split <;> exact ⟨fun _ => rfl, fun _ _ => rfl, rfl⟩
  · exact .refl _ _

theorem State.used_cacheOnly (core : Nat) (s : State) (ag : Agent) (ea n : Nat) : CacheOnly core s (s.used ag ea n) := by
  unfold State.used
  split
  · exact .refl _ _
  · have h := (s.translated_cacheOnly core ag ea n).trans (State.cremaByte_cacheOnly core _ ag ea)
    simp only
    split
    · exact h
    · exact h.trans (State.cremaByte_cacheOnly ..)

theorem State.touch_cacheOnly (core : Nat) (s : State) (ea n : Nat) : CacheOnly core s (s.touch ea n) :=
  s.used_cacheOnly core _ ea n

theorem State.fillLine_cacheOnly (s : State) (ag : Agent) (core ea key : Nat) : CacheOnly core s (s.fillLine ag core ea key) := by
  have h := s.cremaByte_cacheOnly core ag ea
  have hc : (s.cremaByte ag ea).cores = s.cores := by
    unfold State.cremaByte State.cremaAccess; simp only; split <;> (try split) <;> (try split) <;> rfl
  have e : s.core core = (s.cremaByte ag ea).core core := by unfold State.core; rw [hc]
  unfold State.fillLine
  simp only
  split
  · exact .refl _ _
  · rw [e]
    split
    · exact h.trans (.setCore (s := s.cremaByte ag ea) _ (s.cremaByte ag ea).fresh)
    · exact h.trans (.setCore (s := s.cremaByte ag ea) _ _)

theorem State.fillLines_cacheOnly (ag : Agent) (core : Nat) (l : List (Nat × Nat)) (s : State) :
    CacheOnly core s (s.fillLines ag core l) := by
  induction l generalizing s with
  | nil => exact .refl _ _
  | cons p l ih => exact (s.fillLine_cacheOnly ag core _ _).trans (ih _)

theorem State.loadFill_cacheOnly (s : State) (ag : Agent) (core ea : Nat) (l : Loc) : CacheOnly core s (s.loadFill ag core ea l) := by
  have h := s.translated_cacheOnly core ag ea l.keys.length
  unfold State.loadFill
  simp only
  split
  · exact h.trans (State.fillLines_cacheOnly ..)
  · exact h.trans (State.used_cacheOnly ..)

theorem State.dropLine_cacheOnly (s : State) (core ea : Nat) : CacheOnly core s (s.dropLine core ea) := by
  unfold State.dropLine
  split
  · exact .refl _ _
  · exact .setCore (s := s) _ s.fresh

theorem State.dropLines_cacheOnly (s : State) (core : Nat) : CacheOnly core s (s.dropLines core) :=
  .setCore (s := s) _ s.fresh

theorem State.storeLine_cacheOnly (s : State) (core ea : Nat) (bs : List Byte) : CacheOnly core s (s.storeLine core ea bs) := by
  unfold State.storeLine
  split
  · exact .refl _ _
  · exact .setCore (s := s) _ s.fresh

/-! ## The checks of R72 -/

/-- A pointer that fails R43 traps FMTFAULT before anything else. -/
theorem addressFault_pointer {s : State} {p : Word} {ea n : Nat} {perm : Perm} (h : ptrOk p = false) :
    addressFault s p ea n perm = some (cFMTFAULT, p) := by simp [addressFault, h]

/-- A good pointer with a misaligned address traps MISALIGN. -/
theorem addressFault_align {s : State} {p : Word} {ea n : Nat} {perm : Perm} (h : ptrOk p = true) (ha : ea % n ≠ 0) :
    addressFault s p ea n perm = some (cMISALIGN, withAddr p ea) := by simp [addressFault, h, ha]

/-- A good pointer, an aligned local address and, in the window, a core that holds it: no fault. -/
theorem addressFault_none {s : State} {p : Word} {ea n : Nat} {perm : Perm} (h : ptrOk p = true) (ha : ea % n = 0)
    (hl : isPeer ea = false) (hw : touchesWin ea n = true → ∃ l, s.resolve (s.agent s.cur) ea n perm = .ok l) :
    addressFault s p ea n perm = none := by
  unfold addressFault
  simp only [h, Bool.not_true, Bool.false_eq_true, if_false, ha, ne_eq, not_true_eq_false, State.ownDevice, hl, Bool.false_and]
  split
  · rename_i ht; obtain ⟨l, e⟩ := hw ht; rw [e]
  · rfl

/-- At a bank where no near-bank unit is at work, nothing waits. -/
theorem State.atBank_free {s : State} {l : Loc} (h : s.bankBusy l = false) (k : State → Out) : s.atBank l k = k s := by
  simp [State.atBank, State.bankOpen, State.leaveBank, h]

/-- A local access that nothing holds up runs its continuation. -/
theorem preciseAccess_local {s : State} {p : Word} {ea n : Nat} {perm : Perm} {l : Loc} (h : ptrOk p = true) (ha : ea % n = 0)
    (hl : isPeer ea = false) (hm : mustWait s ea n true = false) (hr : s.resolve (s.agent s.cur) ea n perm = .ok l)
    (hb : s.bankBusy l = false) (peer : Out) (k : State → Loc → Out) : preciseAccess s p ea n perm peer k = k s l := by
  unfold preciseAccess
  rw [addressFault_none h ha hl fun _ => ⟨l, hr⟩]
  simp [hm, hl, hr, State.atBank_free hb]

/-- The keys of an access of at least one byte. -/
theorem State.resolve_keys_length {s : State} {ag : Agent} {ea n : Nat} {p : Perm} {l : Loc} (h : s.resolve ag ea n p = .ok l) :
    l.keys.length = n := by
  have part : ∀ {ctx va m l}, s.pagePart ctx va m p = .ok l → l.keys.length = m := by
    intro ctx va m l h
    unfold State.pagePart at h
    split at h
    · cases h
    · split at h
      · cases h; simp [keysFrom]
      · cases h
  unfold State.resolve at h
  simp only at h
  split at h
  · cases h; simp_all
  · split at h
    · split at h
      · cases h
      · split at h
        · cases h
        · split at h
          · cases h
          · split at h
            · cases h; simp [keysFrom]
            · cases h
    · split at h
      · cases h
      · split at h
        · split at h
          · cases h
          · cases h; simp [keysFrom]
        · split at h
          · cases h
          · rename_i hp
            split at h
            · rename_i hf; cases h; rw [part hp, hf]
            · split at h
              · cases h
              · rename_i hq
                cases h
                simp only [List.length_append, part hp, part hq]
                omega

/-- An aligned access of at most a page lies in one piece. -/
theorem State.resolve_keys_aligned {s : State} {ag : Agent} {ea n : Nat} {p : Perm} {l : Loc} (h : s.resolve ag ea n p = .ok l)
    (hn : n ∣ 65536) (ha : ea % n = 0) : ∃ k, l.keys = keysFrom k n := by
  have part : ∀ {ctx va m l}, s.pagePart ctx va m p = .ok l → ∃ k, l.keys = keysFrom k m := by
    intro ctx va m l h
    unfold State.pagePart at h
    split at h
    · cases h
    · split at h
      · cases h; exact ⟨_, rfl⟩
      · cases h
  have hm : min n (65536 - ea % 65536) = n := by
    obtain ⟨c, hc⟩ := hn
    have h1 : ea % 65536 % n = 0 := by rw [hc, Nat.mod_mul_right_mod, ha]
    obtain ⟨e, he⟩ := Nat.dvd_of_mod_eq_zero h1
    have h2 : ea % 65536 < 65536 := Nat.mod_lt _ (by norm_num)
    have h3 : e < c := by
      by_contra hcon
      have := Nat.mul_le_mul_left n (Nat.le_of_not_lt hcon)
      omega
    have h4 : n * (e + 1) ≤ n * c := Nat.mul_le_mul_left n h3
    rw [Nat.mul_succ] at h4
    omega
  unfold State.resolve at h
  simp only [hm] at h
  split at h
  · rename_i h0; cases h; exact ⟨0, by simp [h0, keysFrom]⟩
  · split at h
    · split at h
      · cases h
      · split at h
        · cases h
        · split at h
          · cases h
          · split at h
            · cases h; exact ⟨_, rfl⟩
            · cases h
    · split at h
      · cases h
      · split at h
        · split at h
          · cases h
          · cases h; exact ⟨_, rfl⟩
        · split at h
          · cases h
          · rename_i hp; cases h; exact part hp

/-! ## Bytes that a write leaves -/

theorem toBytes_length (n v : Nat) : (toBytes n v).length = n := by
  induction n generalizing v with
  | zero => rfl
  | succ n ih => simp [toBytes, ih]

theorem toBytes_getElem (n v i : Nat) (h : i < n) : (toBytes n v)[i]? = some (BitVec.ofNat 8 (v / 256 ^ i)) := by
  induction n generalizing v i with
  | zero => omega
  | succ n ih =>
    cases i with
    | zero => simp [toBytes]
    | succ i =>
      have := ih (v / 256) i (by omega)
      simp only [toBytes, List.getElem?_cons_succ, this, Nat.div_div_eq_div_mul, Nat.pow_succ, Nat.mul_comm]

/-- Bytes written at rising keys read back. -/
theorem byte_memPuts_keysFrom {m : List Host.Cell} (hm : Memory.wf m = true) (k n i : Nat) (bs : List Byte) (hi : i < n)
    (hb : bs.length = n) : mget 0 (memPuts m ((keysFrom k n).zip bs)) (k + i) = bs[i]?.getD 0 := by
  induction n generalizing m k i bs with
  | zero => omega
  | succ n ih =>
    cases bs with
    | nil => simp at hb
    | cons b bs =>
      have hk : keysFrom k (n + 1) = k :: keysFrom (k + 1) n := by
        simp only [keysFrom, List.range_succ_eq_map, List.map_cons, List.map_map, Nat.add_zero]
        congr 1
        apply List.map_congr_left
        intro j _
        simp only [Function.comp]
        omega
      rw [hk, List.zip_cons_cons, memPuts]
      cases i with
      | zero =>
        rw [byte_memPuts_other (mwf_mset hm), Nat.add_zero, mget_mset hm, if_pos rfl]
        · rfl
        · intro p hp
          have := (List.of_mem_zip hp).1
          simp only [keysFrom, List.mem_map] at this
          obtain ⟨j, _, hj⟩ := this
          omega
      | succ i =>
        have := ih (mwf_mset (k := k) (v := b) hm) (k + 1) i bs (by omega) (by simpa using hb)
        rw [show k + (i + 1) = k + 1 + i from by omega]
        rw [this]
        rfl

/-- A byte that an aligned store wrote. -/
theorem State.byte_put_keysFrom (s : State) (k n i v : Nat) (hm : Memory.wf s.mem = true) (hi : i < n) :
    (s.put (keysFrom k n) (toBytes n v)).byte (k + i) = BitVec.ofNat 8 (v / 256 ^ i) := by
  unfold State.byte
  rw [State.put_mem, byte_memPuts_keysFrom hm _ _ _ _ hi (toBytes_length n v), toBytes_getElem n v i hi]
  rfl

end Sys2Proof.Machine
end

