-- ==== Sys2Proof/Laws/Encoding.lean ====
section
/-!
SUPPORT. The fields of the layouts of R24: each field of a word that an encoder lays out is the field it was laid out from.
-/

namespace Sys2Proof

/-- Bits above the lower part of a word are bits of its upper part. -/
theorem extract_upper {n m : Nat} {x : BitVec n} {y : BitVec m} {s l : Nat} (h : m ≤ s) :
    BitVec.extractLsb' s l (x ++ y) = BitVec.extractLsb' (s - m) l x := by
  apply BitVec.eq_of_getLsbD_eq
  intro i hi
  simp only [BitVec.getLsbD_extractLsb', BitVec.getLsbD_append]
  have : ¬(s + i < m) := by omega
  have e : s + i - m = s - m + i := by omega
  simp [this, e]

/-- Bits below the upper part of a word are bits of its lower part. -/
theorem extract_lower {n m : Nat} {x : BitVec n} {y : BitVec m} {s l : Nat} (h : s + l ≤ m) :
    BitVec.extractLsb' s l (x ++ y) = BitVec.extractLsb' s l y := by
  apply BitVec.eq_of_getLsbD_eq
  intro i hi
  simp only [BitVec.getLsbD_extractLsb', BitVec.getLsbD_append]
  have : s + i < m := by omega
  simp [this]

/-- A word is its own whole range of bits. -/
theorem extract_all {n : Nat} {x : BitVec n} : BitVec.extractLsb' 0 n x = x := by
  apply BitVec.eq_of_getLsbD_eq
  intro i hi
  simp [hi]

theorem bit_upper {n m : Nat} {x : BitVec n} {y : BitVec m} {s : Nat} (h : m ≤ s) : (x ++ y).getLsbD s = x.getLsbD (s - m) := by
  have : ¬(s < m) := by omega
  simp [BitVec.getLsbD_append, this]

theorem bit_lower {n m : Nat} {x : BitVec n} {y : BitVec m} {s : Nat} (h : s < m) : (x ++ y).getLsbD s = y.getLsbD s := by
  simp [BitVec.getLsbD_append, h]

theorem bit_ofBool {b : Bool} : (BitVec.ofBool b).getLsbD 0 = b := by cases b <;> rfl

/-! Layout RR. -/

theorem fOp_packRR (op : BitVec 6) (d a b : BitVec 5) (x y : Bool) (fn : BitVec 9) :
    fOp (packRR op d a b x y fn) = op :=
  (extract_upper (by decide)).trans <| (extract_upper (by decide)).trans <| (extract_upper (by decide)).trans <| (extract_upper (by decide)).trans <| (extract_upper (by decide)).trans <| (extract_upper (by decide)).trans <| extract_all
theorem fD_packRR (op : BitVec 6) (d a b : BitVec 5) (x y : Bool) (fn : BitVec 9) :
    fD (packRR op d a b x y fn) = d :=
  (extract_upper (by decide)).trans <| (extract_upper (by decide)).trans <| (extract_upper (by decide)).trans <| (extract_upper (by decide)).trans <| (extract_upper (by decide)).trans <| (extract_lower (by decide)).trans <| extract_all
theorem fA_packRR (op : BitVec 6) (d a b : BitVec 5) (x y : Bool) (fn : BitVec 9) :
    fA (packRR op d a b x y fn) = a :=
  (extract_upper (by decide)).trans <| (extract_upper (by decide)).trans <| (extract_upper (by decide)).trans <| (extract_upper (by decide)).trans <| (extract_lower (by decide)).trans <| extract_all
theorem fB_packRR (op : BitVec 6) (d a b : BitVec 5) (x y : Bool) (fn : BitVec 9) :
    fB (packRR op d a b x y fn) = b :=
  (extract_upper (by decide)).trans <| (extract_upper (by decide)).trans <| (extract_upper (by decide)).trans <| (extract_lower (by decide)).trans <| extract_all
theorem fX_packRR (op : BitVec 6) (d a b : BitVec 5) (x y : Bool) (fn : BitVec 9) :
    fX (packRR op d a b x y fn) = x :=
  (bit_upper (by decide)).trans <| (bit_upper (by decide)).trans <| (bit_lower (by decide)).trans <| bit_ofBool
theorem fY_packRR (op : BitVec 6) (d a b : BitVec 5) (x y : Bool) (fn : BitVec 9) :
    fY (packRR op d a b x y fn) = y :=
  (bit_upper (by decide)).trans <| (bit_lower (by decide)).trans <| bit_ofBool
theorem fFn_packRR (op : BitVec 6) (d a b : BitVec 5) (x y : Bool) (fn : BitVec 9) :
    fFn (packRR op d a b x y fn) = fn :=
  (extract_lower (by decide)).trans <| extract_all

/-! Layout RI. -/

theorem fOp_packRI (op : BitVec 6) (d a : BitVec 5) (x : Bool) (i : BitVec 15) :
    fOp (packRI op d a x i) = op :=
  (extract_upper (by decide)).trans <| (extract_upper (by decide)).trans <| (extract_upper (by decide)).trans <| (extract_upper (by decide)).trans <| extract_all
theorem fD_packRI (op : BitVec 6) (d a : BitVec 5) (x : Bool) (i : BitVec 15) :
    fD (packRI op d a x i) = d :=
  (extract_upper (by decide)).trans <| (extract_upper (by decide)).trans <| (extract_upper (by decide)).trans <| (extract_lower (by decide)).trans <| extract_all
theorem fA_packRI (op : BitVec 6) (d a : BitVec 5) (x : Bool) (i : BitVec 15) :
    fA (packRI op d a x i) = a :=
  (extract_upper (by decide)).trans <| (extract_upper (by decide)).trans <| (extract_lower (by decide)).trans <| extract_all
theorem fX15_packRI (op : BitVec 6) (d a : BitVec 5) (x : Bool) (i : BitVec 15) :
    fX15 (packRI op d a x i) = x :=
  (bit_upper (by decide)).trans <| (bit_lower (by decide)).trans <| bit_ofBool
theorem fImm15_packRI (op : BitVec 6) (d a : BitVec 5) (x : Bool) (i : BitVec 15) :
    fImm15 (packRI op d a x i) = i :=
  (extract_lower (by decide)).trans <| extract_all

/-! Layout M. -/

theorem fOp_packM (op : BitVec 6) (d a : BitVec 5) (x : Bool) (z : BitVec 3) (o : BitVec 12) :
    fOp (packM op d a x z o) = op :=
  (extract_upper (by decide)).trans <| (extract_upper (by decide)).trans <| (extract_upper (by decide)).trans <| (extract_upper (by decide)).trans <| (extract_upper (by decide)).trans <| extract_all
theorem fD_packM (op : BitVec 6) (d a : BitVec 5) (x : Bool) (z : BitVec 3) (o : BitVec 12) :
    fD (packM op d a x z o) = d :=
  (extract_upper (by decide)).trans <| (extract_upper (by decide)).trans <| (extract_upper (by decide)).trans <| (extract_upper (by decide)).trans <| (extract_lower (by decide)).trans <| extract_all
theorem fA_packM (op : BitVec 6) (d a : BitVec 5) (x : Bool) (z : BitVec 3) (o : BitVec 12) :
    fA (packM op d a x z o) = a :=
  (extract_upper (by decide)).trans <| (extract_upper (by decide)).trans <| (extract_upper (by decide)).trans <| (extract_lower (by decide)).trans <| extract_all
theorem fX15_packM (op : BitVec 6) (d a : BitVec 5) (x : Bool) (z : BitVec 3) (o : BitVec 12) :
    fX15 (packM op d a x z o) = x :=
  (bit_upper (by decide)).trans <| (bit_upper (by decide)).trans <| (bit_lower (by decide)).trans <| bit_ofBool
theorem fSz_packM (op : BitVec 6) (d a : BitVec 5) (x : Bool) (z : BitVec 3) (o : BitVec 12) :
    fSz (packM op d a x z o) = z :=
  (extract_upper (by decide)).trans <| (extract_lower (by decide)).trans <| extract_all
theorem fOff12_packM (op : BitVec 6) (d a : BitVec 5) (x : Bool) (z : BitVec 3) (o : BitVec 12) :
    fOff12 (packM op d a x z o) = o :=
  (extract_lower (by decide)).trans <| extract_all

/-! Layout B. -/

theorem fOp_packB (op : BitVec 6) (a b : BitVec 5) (x y : Bool) (o : BitVec 14) :
    fOp (packB op a b x y o) = op :=
  (extract_upper (by decide)).trans <| (extract_upper (by decide)).trans <| (extract_upper (by decide)).trans <| (extract_upper (by decide)).trans <| (extract_upper (by decide)).trans <| extract_all
theorem fD_packB (op : BitVec 6) (a b : BitVec 5) (x y : Bool) (o : BitVec 14) :
    fD (packB op a b x y o) = a :=
  (extract_upper (by decide)).trans <| (extract_upper (by decide)).trans <| (extract_upper (by decide)).trans <| (extract_upper (by decide)).trans <| (extract_lower (by decide)).trans <| extract_all
theorem fA_packB (op : BitVec 6) (a b : BitVec 5) (x y : Bool) (o : BitVec 14) :
    fA (packB op a b x y o) = b :=
  (extract_upper (by decide)).trans <| (extract_upper (by decide)).trans <| (extract_upper (by decide)).trans <| (extract_lower (by decide)).trans <| extract_all
theorem fX15_packB (op : BitVec 6) (a b : BitVec 5) (x y : Bool) (o : BitVec 14) :
    fX15 (packB op a b x y o) = x :=
  (bit_upper (by decide)).trans <| (bit_upper (by decide)).trans <| (bit_lower (by decide)).trans <| bit_ofBool
theorem fY14_packB (op : BitVec 6) (a b : BitVec 5) (x y : Bool) (o : BitVec 14) :
    fY14 (packB op a b x y o) = y :=
  (bit_upper (by decide)).trans <| (bit_lower (by decide)).trans <| bit_ofBool
theorem fOff14_packB (op : BitVec 6) (a b : BitVec 5) (x y : Bool) (o : BitVec 14) :
    fOff14 (packB op a b x y o) = o :=
  (extract_lower (by decide)).trans <| extract_all

/-! Layout J. -/

theorem fOp_packJ (op : BitVec 6) (d : BitVec 5) (i : BitVec 21) :
    fOp (packJ op d i) = op :=
  (extract_upper (by decide)).trans <| (extract_upper (by decide)).trans <| extract_all
theorem fD_packJ (op : BitVec 6) (d : BitVec 5) (i : BitVec 21) :
    fD (packJ op d i) = d :=
  (extract_upper (by decide)).trans <| (extract_lower (by decide)).trans <| extract_all
theorem fImm21_packJ (op : BitVec 6) (d : BitVec 5) (i : BitVec 21) :
    fImm21 (packJ op d i) = i :=
  (extract_lower (by decide)).trans <| extract_all

/-! Layout V. -/

theorem fOp_packV (op : BitVec 6) (d a b : BitVec 5) (m : BitVec 3) (r7 r6 r5 : Bool) (fn : BitVec 5) :
    fOp (packV op d a b m r7 r6 r5 fn) = op :=
  (extract_upper (by decide)).trans <| (extract_upper (by decide)).trans <| (extract_upper (by decide)).trans <| (extract_upper (by decide)).trans <| (extract_upper (by decide)).trans <| (extract_upper (by decide)).trans <| (extract_upper (by decide)).trans <| (extract_upper (by decide)).trans <| extract_all
theorem fD_packV (op : BitVec 6) (d a b : BitVec 5) (m : BitVec 3) (r7 r6 r5 : Bool) (fn : BitVec 5) :
    fD (packV op d a b m r7 r6 r5 fn) = d :=
  (extract_upper (by decide)).trans <| (extract_upper (by decide)).trans <| (extract_upper (by decide)).trans <| (extract_upper (by decide)).trans <| (extract_upper (by decide)).trans <| (extract_upper (by decide)).trans <| (extract_upper (by decide)).trans <| (extract_lower (by decide)).trans <| extract_all
theorem fA_packV (op : BitVec 6) (d a b : BitVec 5) (m : BitVec 3) (r7 r6 r5 : Bool) (fn : BitVec 5) :
    fA (packV op d a b m r7 r6 r5 fn) = a :=
  (extract_upper (by decide)).trans <| (extract_upper (by decide)).trans <| (extract_upper (by decide)).trans <| (extract_upper (by decide)).trans <| (extract_upper (by decide)).trans <| (extract_upper (by decide)).trans <| (extract_lower (by decide)).trans <| extract_all
theorem fB_packV (op : BitVec 6) (d a b : BitVec 5) (m : BitVec 3) (r7 r6 r5 : Bool) (fn : BitVec 5) :
    fB (packV op d a b m r7 r6 r5 fn) = b :=
  (extract_upper (by decide)).trans <| (extract_upper (by decide)).trans <| (extract_upper (by decide)).trans <| (extract_upper (by decide)).trans <| (extract_upper (by decide)).trans <| (extract_lower (by decide)).trans <| extract_all
theorem fM_packV (op : BitVec 6) (d a b : BitVec 5) (m : BitVec 3) (r7 r6 r5 : Bool) (fn : BitVec 5) :
    fM (packV op d a b m r7 r6 r5 fn) = m :=
  (extract_upper (by decide)).trans <| (extract_upper (by decide)).trans <| (extract_upper (by decide)).trans <| (extract_upper (by decide)).trans <| (extract_lower (by decide)).trans <| extract_all
theorem fR7_packV (op : BitVec 6) (d a b : BitVec 5) (m : BitVec 3) (r7 r6 r5 : Bool) (fn : BitVec 5) :
    fR7 (packV op d a b m r7 r6 r5 fn) = r7 :=
  (bit_upper (by decide)).trans <| (bit_upper (by decide)).trans <| (bit_upper (by decide)).trans <| (bit_lower (by decide)).trans <| bit_ofBool
theorem fR6_packV (op : BitVec 6) (d a b : BitVec 5) (m : BitVec 3) (r7 r6 r5 : Bool) (fn : BitVec 5) :
    fR6 (packV op d a b m r7 r6 r5 fn) = r6 :=
  (bit_upper (by decide)).trans <| (bit_upper (by decide)).trans <| (bit_lower (by decide)).trans <| bit_ofBool
theorem fR5_packV (op : BitVec 6) (d a b : BitVec 5) (m : BitVec 3) (r7 r6 r5 : Bool) (fn : BitVec 5) :
    fR5 (packV op d a b m r7 r6 r5 fn) = r5 :=
  (bit_upper (by decide)).trans <| (bit_lower (by decide)).trans <| bit_ofBool
theorem fFn5_packV (op : BitVec 6) (d a b : BitVec 5) (m : BitVec 3) (r7 r6 r5 : Bool) (fn : BitVec 5) :
    fFn5 (packV op d a b m r7 r6 r5 fn) = fn :=
  (extract_lower (by decide)).trans <| extract_all

/-! Layout SY. -/

theorem fOp_packSY (op : BitVec 6) (d a : BitVec 5) (csr : BitVec 12) (fn : BitVec 4) :
    fOp (packSY op d a csr fn) = op :=
  (extract_upper (by decide)).trans <| (extract_upper (by decide)).trans <| (extract_upper (by decide)).trans <| (extract_upper (by decide)).trans <| extract_all
theorem fD_packSY (op : BitVec 6) (d a : BitVec 5) (csr : BitVec 12) (fn : BitVec 4) :
    fD (packSY op d a csr fn) = d :=
  (extract_upper (by decide)).trans <| (extract_upper (by decide)).trans <| (extract_upper (by decide)).trans <| (extract_lower (by decide)).trans <| extract_all
theorem fA_packSY (op : BitVec 6) (d a : BitVec 5) (csr : BitVec 12) (fn : BitVec 4) :
    fA (packSY op d a csr fn) = a :=
  (extract_upper (by decide)).trans <| (extract_upper (by decide)).trans <| (extract_lower (by decide)).trans <| extract_all
theorem fCsr_packSY (op : BitVec 6) (d a : BitVec 5) (csr : BitVec 12) (fn : BitVec 4) :
    fCsr (packSY op d a csr fn) = csr :=
  (extract_upper (by decide)).trans <| (extract_lower (by decide)).trans <| extract_all
theorem fFn4_packSY (op : BitVec 6) (d a : BitVec 5) (csr : BitVec 12) (fn : BitVec 4) :
    fFn4 (packSY op d a csr fn) = fn :=
  (extract_lower (by decide)).trans <| extract_all

end Sys2Proof
end

