-- ==== Sys2Proof/Laws/Exec.lean ====
section
/-!
SUPPORT. What exec does with each constructor: its own meaning, by rfl. Later proofs cite these and never unfold exec.
-/

namespace Sys2Proof.Machine

theorem exec_add (d a b : Reg) (x y : Bool) (s : State) : exec (.add d a b x y) s = execAdd d a b x y s := rfl
theorem exec_sub (d a b : Reg) (x y : Bool) (s : State) : exec (.sub d a b x y) s = execSub d a b x y s := rfl
theorem exec_and (d a b : Reg) (x y : Bool) (s : State) : exec (.and d a b x y) s = execAnd d a b x y s := rfl
theorem exec_or (d a b : Reg) (x y : Bool) (s : State) : exec (.or d a b x y) s = execOr d a b x y s := rfl
theorem exec_xor (d a b : Reg) (x y : Bool) (s : State) : exec (.xor d a b x y) s = execXor d a b x y s := rfl
theorem exec_andn (d a b : Reg) (x y : Bool) (s : State) : exec (.andn d a b x y) s = execAndn d a b x y s := rfl
theorem exec_sll (d a b : Reg) (x y : Bool) (s : State) : exec (.sll d a b x y) s = execSll d a b x y s := rfl
theorem exec_srl (d a b : Reg) (x y : Bool) (s : State) : exec (.srl d a b x y) s = execSrl d a b x y s := rfl
theorem exec_sra (d a b : Reg) (x y : Bool) (s : State) : exec (.sra d a b x y) s = execSra d a b x y s := rfl
theorem exec_rol (d a b : Reg) (x y : Bool) (s : State) : exec (.rol d a b x y) s = execRol d a b x y s := rfl
theorem exec_slt (d a b : Reg) (x y : Bool) (s : State) : exec (.slt d a b x y) s = execSlt d a b x y s := rfl
theorem exec_sltu (d a b : Reg) (x y : Bool) (s : State) : exec (.sltu d a b x y) s = execSltu d a b x y s := rfl
theorem exec_min (d a b : Reg) (x y : Bool) (s : State) : exec (.min d a b x y) s = execMin d a b x y s := rfl
theorem exec_max (d a b : Reg) (x y : Bool) (s : State) : exec (.max d a b x y) s = execMax d a b x y s := rfl
theorem exec_minu (d a b : Reg) (x y : Bool) (s : State) : exec (.minu d a b x y) s = execMinu d a b x y s := rfl
theorem exec_maxu (d a b : Reg) (x y : Bool) (s : State) : exec (.maxu d a b x y) s = execMaxu d a b x y s := rfl
theorem exec_mul (d a b : Reg) (x y : Bool) (s : State) : exec (.mul d a b x y) s = execMul d a b x y s := rfl
theorem exec_mulh (d a b : Reg) (x y : Bool) (s : State) : exec (.mulh d a b x y) s = execMulh d a b x y s := rfl
theorem exec_mulhu (d a b : Reg) (x y : Bool) (s : State) : exec (.mulhu d a b x y) s = execMulhu d a b x y s := rfl
theorem exec_div (d a b : Reg) (x y : Bool) (s : State) : exec (.div d a b x y) s = execDiv d a b x y s := rfl
theorem exec_divu (d a b : Reg) (x y : Bool) (s : State) : exec (.divu d a b x y) s = execDivu d a b x y s := rfl
theorem exec_rem (d a b : Reg) (x y : Bool) (s : State) : exec (.rem d a b x y) s = execRem d a b x y s := rfl
theorem exec_remu (d a b : Reg) (x y : Bool) (s : State) : exec (.remu d a b x y) s = execRemu d a b x y s := rfl
theorem exec_clz (d a : Reg) (x : Bool) (s : State) : exec (.clz d a x) s = execClz d a x s := rfl
theorem exec_ctz (d a : Reg) (x : Bool) (s : State) : exec (.ctz d a x) s = execCtz d a x s := rfl
theorem exec_popc (d a : Reg) (x : Bool) (s : State) : exec (.popc d a x) s = execPopc d a x s := rfl
theorem exec_sextb (d a : Reg) (x : Bool) (s : State) : exec (.sextb d a x) s = execSextb d a x s := rfl
theorem exec_sexth (d a : Reg) (x : Bool) (s : State) : exec (.sexth d a x) s = execSexth d a x s := rfl
theorem exec_sextw (d a : Reg) (x : Bool) (s : State) : exec (.sextw d a x) s = execSextw d a x s := rfl
theorem exec_zextw (d a : Reg) (x : Bool) (s : State) : exec (.zextw d a x) s = execZextw d a x s := rfl
theorem exec_bswap (d a : Reg) (x : Bool) (s : State) : exec (.bswap d a x) s = execBswap d a x s := rfl
theorem exec_selnz (d a b : Reg) (x y : Bool) (s : State) : exec (.selnz d a b x y) s = execSelnz d a b x y s := rfl
theorem exec_addi (d a : Reg) (x : Bool) (im : BitVec 15) (s : State) : exec (.addi d a x im) s = execAddi d a x im s := rfl
theorem exec_andi (d a : Reg) (x : Bool) (im : BitVec 15) (s : State) : exec (.andi d a x im) s = execAndi d a x im s := rfl
theorem exec_ori (d a : Reg) (x : Bool) (im : BitVec 15) (s : State) : exec (.ori d a x im) s = execOri d a x im s := rfl
theorem exec_xori (d a : Reg) (x : Bool) (im : BitVec 15) (s : State) : exec (.xori d a x im) s = execXori d a x im s := rfl
theorem exec_slti (d a : Reg) (x : Bool) (im : BitVec 15) (s : State) : exec (.slti d a x im) s = execSlti d a x im s := rfl
theorem exec_sltiu (d a : Reg) (x : Bool) (im : BitVec 15) (s : State) : exec (.sltiu d a x im) s = execSltiu d a x im s := rfl
theorem exec_slli (d a : Reg) (x : Bool) (sc : BitVec 6) (s : State) : exec (.slli d a x sc) s = execSlli d a x sc s := rfl
theorem exec_srli (d a : Reg) (x : Bool) (sc : BitVec 6) (s : State) : exec (.srli d a x sc) s = execSrli d a x sc s := rfl
theorem exec_srai (d a : Reg) (x : Bool) (sc : BitVec 6) (s : State) : exec (.srai d a x sc) s = execSrai d a x sc s := rfl
theorem exec_roli (d a : Reg) (x : Bool) (sc : BitVec 6) (s : State) : exec (.roli d a x sc) s = execRoli d a x sc s := rfl
theorem exec_lui (d : Reg) (im : BitVec 21) (s : State) : exec (.lui d im) s = execLui d im s := rfl
theorem exec_lih (d : Reg) (im : BitVec 21) (s : State) : exec (.lih d im) s = execLih d im s := rfl
theorem exec_addpc (d : Reg) (im : BitVec 21) (s : State) : exec (.addpc d im) s = execAddpc d im s := rfl
theorem exec_ld (d a : Reg) (x : Bool) (z : BitVec 3) (o : BitVec 12) (s : State) : exec (.ld d a x z o) s = execLd d a x z o s := rfl
theorem exec_ldn (d a : Reg) (x : Bool) (z : BitVec 3) (o : BitVec 12) (s : State) : exec (.ldn d a x z o) s = execLdn d a x z o s := rfl
theorem exec_ldf (d a : Reg) (x : Bool) (z : BitVec 3) (o : BitVec 12) (s : State) : exec (.ldf d a x z o) s = execLdf d a x z o s := rfl
theorem exec_ldfe (d a : Reg) (x : Bool) (z : BitVec 3) (o : BitVec 12) (s : State) : exec (.ldfe d a x z o) s = execLdfe d a x z o s := rfl
theorem exec_st (sc a : Reg) (x : Bool) (z : BitVec 3) (o : BitVec 12) (s : State) : exec (.st sc a x z o) s = execSt sc a x z o s := rfl
theorem exec_ste (sc a : Reg) (x : Bool) (z : BitVec 3) (o : BitVec 12) (s : State) : exec (.ste sc a x z o) s = execSte sc a x z o s := rfl
theorem exec_stf (sc a : Reg) (x : Bool) (z : BitVec 3) (o : BitVec 12) (s : State) : exec (.stf sc a x z o) s = execStf sc a x z o s := rfl
theorem exec_amoadd (d a b : Reg) (x y : Bool) (c : BitVec 3) (w : Bool) (s : State) : exec (.amoadd d a b x y c w) s = execAmoadd d a b x y c w s := rfl
theorem exec_amoand (d a b : Reg) (x y : Bool) (c : BitVec 3) (w : Bool) (s : State) : exec (.amoand d a b x y c w) s = execAmoand d a b x y c w s := rfl
theorem exec_amoor (d a b : Reg) (x y : Bool) (c : BitVec 3) (w : Bool) (s : State) : exec (.amoor d a b x y c w) s = execAmoor d a b x y c w s := rfl
theorem exec_amoxor (d a b : Reg) (x y : Bool) (c : BitVec 3) (w : Bool) (s : State) : exec (.amoxor d a b x y c w) s = execAmoxor d a b x y c w s := rfl
theorem exec_amomin (d a b : Reg) (x y : Bool) (c : BitVec 3) (w : Bool) (s : State) : exec (.amomin d a b x y c w) s = execAmomin d a b x y c w s := rfl
theorem exec_amomax (d a b : Reg) (x y : Bool) (c : BitVec 3) (w : Bool) (s : State) : exec (.amomax d a b x y c w) s = execAmomax d a b x y c w s := rfl
theorem exec_amominu (d a b : Reg) (x y : Bool) (c : BitVec 3) (w : Bool) (s : State) : exec (.amominu d a b x y c w) s = execAmominu d a b x y c w s := rfl
theorem exec_amomaxu (d a b : Reg) (x y : Bool) (c : BitVec 3) (w : Bool) (s : State) : exec (.amomaxu d a b x y c w) s = execAmomaxu d a b x y c w s := rfl
theorem exec_amoswap (d a b : Reg) (x y : Bool) (c : BitVec 3) (w : Bool) (s : State) : exec (.amoswap d a b x y c w) s = execAmoswap d a b x y c w s := rfl
theorem exec_amocas (d a b : Reg) (x y : Bool) (c : BitVec 3) (w : Bool) (s : State) : exec (.amocas d a b x y c w) s = execAmocas d a b x y c w s := rfl
theorem exec_amofadd (d a b : Reg) (x y : Bool) (c : BitVec 3) (s : State) : exec (.amofadd d a b x y c) s = execAmofadd d a b x y c s := rfl
theorem exec_beq (a b : Reg) (x y : Bool) (o : BitVec 14) (s : State) : exec (.beq a b x y o) s = execBeq a b x y o s := rfl
theorem exec_bne (a b : Reg) (x y : Bool) (o : BitVec 14) (s : State) : exec (.bne a b x y o) s = execBne a b x y o s := rfl
theorem exec_blt (a b : Reg) (x y : Bool) (o : BitVec 14) (s : State) : exec (.blt a b x y o) s = execBlt a b x y o s := rfl
theorem exec_bge (a b : Reg) (x y : Bool) (o : BitVec 14) (s : State) : exec (.bge a b x y o) s = execBge a b x y o s := rfl
theorem exec_bltu (a b : Reg) (x y : Bool) (o : BitVec 14) (s : State) : exec (.bltu a b x y o) s = execBltu a b x y o s := rfl
theorem exec_bgeu (a b : Reg) (x y : Bool) (o : BitVec 14) (s : State) : exec (.bgeu a b x y o) s = execBgeu a b x y o s := rfl
theorem exec_jal (d : Reg) (im : BitVec 21) (s : State) : exec (.jal d im) s = execJal d im s := rfl
theorem exec_jalr (d a : Reg) (x : Bool) (im : BitVec 15) (s : State) : exec (.jalr d a x im) s = execJalr d a x im s := rfl
theorem exec_send (a b : Reg) (x y : Bool) (s : State) : exec (.send a b x y) s = execSend a b x y s := rfl
theorem exec_sendc (a b : Reg) (x y : Bool) (s : State) : exec (.sendc a b x y) s = execSendc a b x y s := rfl
theorem exec_sendb (d a b : Reg) (x y : Bool) (s : State) : exec (.sendb d a b x y) s = execSendb d a b x y s := rfl
theorem exec_hret (s : State) : exec (.hret) s = execHret s := rfl
theorem exec_hyield (a : Reg) (x : Bool) (s : State) : exec (.hyield a x) s = execHyield a x s := rfl
theorem exec_chset (d a b : Reg) (x y : Bool) (s : State) : exec (.chset d a b x y) s = execChset d a b x y s := rfl
theorem exec_chmask (d a b : Reg) (x y : Bool) (s : State) : exec (.chmask d a b x y) s = execChmask d a b x y s := rfl
theorem exec_charm (d a b : Reg) (x y : Bool) (s : State) : exec (.charm d a b x y) s = execCharm d a b x y s := rfl
theorem exec_fork (d a b : Reg) (x y : Bool) (s : State) : exec (.fork d a b x y) s = execFork d a b x y s := rfl
theorem exec_taskend (a : Reg) (x : Bool) (s : State) : exec (.taskend a x) s = execTaskend a x s := rfl
theorem exec_rejoin (d a b : Reg) (x y : Bool) (s : State) : exec (.rejoin d a b x y) s = execRejoin d a b x y s := rfl
theorem exec_trig (s : State) : exec (.trig) s = execTrig s := rfl
theorem exec_joinch (d a : Reg) (x : Bool) (s : State) : exec (.joinch d a x) s = execJoinch d a x s := rfl
theorem exec_fenceAcq (sc : BitVec 3) (im : Bool) (s : State) : exec (.fenceAcq sc im) s = execFenceAcq sc im s := rfl
theorem exec_fenceRel (sc : BitVec 3) (im : Bool) (s : State) : exec (.fenceRel sc im) s = execFenceRel sc im s := rfl
theorem exec_fenceFull (sc : BitVec 3) (im : Bool) (s : State) : exec (.fenceFull sc im) s = execFenceFull sc im s := rfl
theorem exec_fencesc (sc : BitVec 3) (s : State) : exec (.fencesc sc) s = execFencesc sc s := rfl
theorem exec_rbegin (d : Reg) (s : State) : exec (.rbegin d) s = execRbegin d s := rfl
theorem exec_rcommit (s : State) : exec (.rcommit) s = execRcommit s := rfl
theorem exec_rabort (a : Reg) (x : Bool) (s : State) : exec (.rabort a x) s = execRabort a x s := rfl
theorem exec_waitc (c : BitVec 4) (a : Reg) (x : Bool) (s : State) : exec (.waitc c a x) s = execWaitc c a x s := rfl
theorem exec_ship (d a b : Reg) (x y : Bool) (n : BitVec 8) (s : State) : exec (.ship d a b x y n) s = execShip d a b x y n s := rfl
theorem exec_chain (d a b : Reg) (x y : Bool) (s : State) : exec (.chain d a b x y) s = execChain d a b x y s := rfl
theorem exec_rowopen (a : Reg) (x : Bool) (s : State) : exec (.rowopen a x) s = execRowopen a x s := rfl
theorem exec_rowhold (d a : Reg) (x : Bool) (s : State) : exec (.rowhold d a x) s = execRowhold d a x s := rfl
theorem exec_rowrel (a : Reg) (x : Bool) (s : State) : exec (.rowrel a x) s = execRowrel a x s := rfl
theorem exec_rowq (d a : Reg) (x : Bool) (s : State) : exec (.rowq d a x) s = execRowq d a x s := rfl
theorem exec_nbprog (d a : Reg) (x : Bool) (s : State) : exec (.nbprog d a x) s = execNbprog d a x s := rfl
theorem exec_nbstat (d a : Reg) (x : Bool) (s : State) : exec (.nbstat d a x) s = execNbstat d a x s := rfl
theorem exec_vadd (vd va vb : VReg) (m : MReg) (s : State) : exec (.vadd vd va vb m) s = execVadd vd va vb m s := rfl
theorem exec_vsub (vd va vb : VReg) (m : MReg) (s : State) : exec (.vsub vd va vb m) s = execVsub vd va vb m s := rfl
theorem exec_vmul (vd va vb : VReg) (m : MReg) (s : State) : exec (.vmul vd va vb m) s = execVmul vd va vb m s := rfl
theorem exec_vmulh (vd va vb : VReg) (m : MReg) (s : State) : exec (.vmulh vd va vb m) s = execVmulh vd va vb m s := rfl
theorem exec_vand (vd va vb : VReg) (m : MReg) (s : State) : exec (.vand vd va vb m) s = execVand vd va vb m s := rfl
theorem exec_vor (vd va vb : VReg) (m : MReg) (s : State) : exec (.vor vd va vb m) s = execVor vd va vb m s := rfl
theorem exec_vxor (vd va vb : VReg) (m : MReg) (s : State) : exec (.vxor vd va vb m) s = execVxor vd va vb m s := rfl
theorem exec_vsll (vd va vb : VReg) (m : MReg) (s : State) : exec (.vsll vd va vb m) s = execVsll vd va vb m s := rfl
theorem exec_vsrl (vd va vb : VReg) (m : MReg) (s : State) : exec (.vsrl vd va vb m) s = execVsrl vd va vb m s := rfl
theorem exec_vsra (vd va vb : VReg) (m : MReg) (s : State) : exec (.vsra vd va vb m) s = execVsra vd va vb m s := rfl
theorem exec_vmin (vd va vb : VReg) (m : MReg) (s : State) : exec (.vmin vd va vb m) s = execVmin vd va vb m s := rfl
theorem exec_vmax (vd va vb : VReg) (m : MReg) (s : State) : exec (.vmax vd va vb m) s = execVmax vd va vb m s := rfl
theorem exec_vminu (vd va vb : VReg) (m : MReg) (s : State) : exec (.vminu vd va vb m) s = execVminu vd va vb m s := rfl
theorem exec_vmaxu (vd va vb : VReg) (m : MReg) (s : State) : exec (.vmaxu vd va vb m) s = execVmaxu vd va vb m s := rfl
theorem exec_vcmpeq (d : MReg) (va vb : VReg) (m : MReg) (s : State) : exec (.vcmpeq d va vb m) s = execVcmpeq d va vb m s := rfl
theorem exec_vcmplt (d : MReg) (va vb : VReg) (m : MReg) (s : State) : exec (.vcmplt d va vb m) s = execVcmplt d va vb m s := rfl
theorem exec_vcmpltu (d : MReg) (va vb : VReg) (m : MReg) (s : State) : exec (.vcmpltu d va vb m) s = execVcmpltu d va vb m s := rfl
theorem exec_vabs (vd va : VReg) (m : MReg) (s : State) : exec (.vabs vd va m) s = execVabs vd va m s := rfl
theorem exec_vfadd (vd va vb : VReg) (m : MReg) (s : State) : exec (.vfadd vd va vb m) s = execVfadd vd va vb m s := rfl
theorem exec_vfsub (vd va vb : VReg) (m : MReg) (s : State) : exec (.vfsub vd va vb m) s = execVfsub vd va vb m s := rfl
theorem exec_vfmul (vd va vb : VReg) (m : MReg) (s : State) : exec (.vfmul vd va vb m) s = execVfmul vd va vb m s := rfl
theorem exec_vffma (vd va vb : VReg) (m : MReg) (s : State) : exec (.vffma vd va vb m) s = execVffma vd va vb m s := rfl
theorem exec_vfmin (vd va vb : VReg) (m : MReg) (s : State) : exec (.vfmin vd va vb m) s = execVfmin vd va vb m s := rfl
theorem exec_vfmax (vd va vb : VReg) (m : MReg) (s : State) : exec (.vfmax vd va vb m) s = execVfmax vd va vb m s := rfl
theorem exec_vfdiv (vd va vb : VReg) (m : MReg) (s : State) : exec (.vfdiv vd va vb m) s = execVfdiv vd va vb m s := rfl
theorem exec_vfsqrt (vd va : VReg) (m : MReg) (s : State) : exec (.vfsqrt vd va m) s = execVfsqrt vd va m s := rfl
theorem exec_vfrcp (vd va : VReg) (m : MReg) (s : State) : exec (.vfrcp vd va m) s = execVfrcp vd va m s := rfl
theorem exec_vfrsq (vd va : VReg) (m : MReg) (s : State) : exec (.vfrsq vd va m) s = execVfrsq vd va m s := rfl
theorem exec_vfexp2 (vd va : VReg) (m : MReg) (s : State) : exec (.vfexp2 vd va m) s = execVfexp2 vd va m s := rfl
theorem exec_vflog2 (vd va : VReg) (m : MReg) (s : State) : exec (.vflog2 vd va m) s = execVflog2 vd va m s := rfl
theorem exec_vfcmp (vd va vb : VReg) (m : MReg) (s : State) : exec (.vfcmp vd va vb m) s = execVfcmp vd va vb m s := rfl
theorem exec_vcvt (vd va : VReg) (c : BitVec 5) (m : MReg) (s : State) : exec (.vcvt vd va c m) s = execVcvt vd va c m s := rfl
theorem exec_vred (vd va : VReg) (o : BitVec 5) (m : MReg) (s : State) : exec (.vred vd va o m) s = execVred vd va o m s := rfl
theorem exec_vdot2 (vd va vb : VReg) (m : MReg) (s : State) : exec (.vdot2 vd va vb m) s = execVdot2 vd va vb m s := rfl
theorem exec_vld (vd : VReg) (g : Reg) (m : MReg) (s : State) : exec (.vld vd g m) s = execVld vd g m s := rfl
theorem exec_vst (vd : VReg) (g : Reg) (m : MReg) (s : State) : exec (.vst vd g m) s = execVst vd g m s := rfl
theorem exec_vlds (vd : VReg) (sc g : Reg) (m : MReg) (s : State) : exec (.vlds vd sc g m) s = execVlds vd sc g m s := rfl
theorem exec_vsts (vd : VReg) (sc g : Reg) (m : MReg) (s : State) : exec (.vsts vd sc g m) s = execVsts vd sc g m s := rfl
theorem exec_vgath (vd va : VReg) (g : Reg) (m : MReg) (s : State) : exec (.vgath vd va g m) s = execVgath vd va g m s := rfl
theorem exec_vscat (vd va : VReg) (g : Reg) (m : MReg) (s : State) : exec (.vscat vd va g m) s = execVscat vd va g m s := rfl
theorem exec_vldf (vd : VReg) (g : Reg) (m : MReg) (s : State) : exec (.vldf vd g m) s = execVldf vd g m s := rfl
theorem exec_vmovgToMask (d : MReg) (g : Reg) (s : State) : exec (.vmovgToMask d g) s = execVmovgToMask d g s := rfl
theorem exec_vmovgFromMask (d : Reg) (a : MReg) (s : State) : exec (.vmovgFromMask d a) s = execVmovgFromMask d a s := rfl
theorem exec_vmovv (vd va : VReg) (m : MReg) (s : State) : exec (.vmovv vd va m) s = execVmovv vd va m s := rfl
theorem exec_vbcast (vd : VReg) (g : Reg) (m : MReg) (s : State) : exec (.vbcast vd g m) s = execVbcast vd g m s := rfl
theorem exec_vext (d : Reg) (va : VReg) (g : Reg) (s : State) : exec (.vext d va g) s = execVext d va g s := rfl
theorem exec_vins (vd : VReg) (l : BitVec 4) (g : Reg) (s : State) : exec (.vins vd l g) s = execVins vd l g s := rfl
theorem exec_vsel (vd va vb : VReg) (m : MReg) (s : State) : exec (.vsel vd va vb m) s = execVsel vd va vb m s := rfl
theorem exec_vshuf (vd va vb : VReg) (m : MReg) (s : State) : exec (.vshuf vd va vb m) s = execVshuf vd va vb m s := rfl
theorem exec_viadd (w : BitVec 5) (g : Reg) (s : State) : exec (.viadd w g) s = execViadd w g s := rfl
theorem exec_mand (d a b : MReg) (s : State) : exec (.mand d a b) s = execMand d a b s := rfl
theorem exec_mor (d a b : MReg) (s : State) : exec (.mor d a b) s = execMor d a b s := rfl
theorem exec_mnot (d a : MReg) (s : State) : exec (.mnot d a) s = execMnot d a s := rfl
theorem exec_mpop (d : Reg) (a : MReg) (s : State) : exec (.mpop d a) s = execMpop d a s := rfl
theorem exec_ecfg (n : BitVec 6) (a : Reg) (x : Bool) (s : State) : exec (.ecfg n a x) s = execEcfg n a x s := rfl
theorem exec_eread (d : Reg) (n : BitVec 6) (s : State) : exec (.eread d n) s = execEread d n s := rfl
theorem exec_fldset (n : BitVec 4) (a : Reg) (w : BitVec 3) (x : Bool) (s : State) : exec (.fldset n a w x) s = execFldset n a w x s := rfl
theorem exec_fldget (d : Reg) (n : BitVec 4) (w : BitVec 3) (s : State) : exec (.fldget d n w) s = execFldget d n w s := rfl
theorem exec_mma (d b : Reg) (y : Bool) (s : State) : exec (.mma d b y) s = execMma d b y s := rfl
theorem exec_apply (d b : Reg) (y : Bool) (s : State) : exec (.apply d b y) s = execApply d b y s := rfl
theorem exec_diag (d b : Reg) (y : Bool) (s : State) : exec (.diag d b y) s = execDiag d b y s := rfl
theorem exec_perm (n : BitVec 4) (a : Reg) (x : Bool) (s : State) : exec (.perm n a x) s = execPerm n a x s := rfl
theorem exec_matl (d b : Reg) (y : Bool) (s : State) : exec (.matl d b y) s = execMatl d b y s := rfl
theorem exec_accld (d b : Reg) (y : Bool) (s : State) : exec (.accld d b y) s = execAccld d b y s := rfl
theorem exec_accst (d b : Reg) (y : Bool) (s : State) : exec (.accst d b y) s = execAccst d b y s := rfl
theorem exec_accz (d b : Reg) (y : Bool) (s : State) : exec (.accz d b y) s = execAccz d b y s := rfl
theorem exec_estat (d a : Reg) (x : Bool) (s : State) : exec (.estat d a x) s = execEstat d a x s := rfl
theorem exec_ctload (d a b : Reg) (x y : Bool) (s : State) : exec (.ctload d a b x y) s = execCtload d a b x y s := rfl
theorem exec_ctswap (d : Reg) (s : State) : exec (.ctswap d) s = execCtswap d s := rfl
theorem exec_eresume (d a b : Reg) (x y : Bool) (s : State) : exec (.eresume d a b x y) s = execEresume d a b x y s := rfl
theorem exec_abandon (d a b : Reg) (x y : Bool) (s : State) : exec (.abandon d a b x y) s = execAbandon d a b x y s := rfl
theorem exec_lcopy (d a b : Reg) (x y : Bool) (s : State) : exec (.lcopy d a b x y) s = execLcopy d a b x y s := rfl
theorem exec_pcopy (d a b : Reg) (x y : Bool) (s : State) : exec (.pcopy d a b x y) s = execPcopy d a b x y s := rfl
theorem exec_pfill (d a b : Reg) (x y : Bool) (s : State) : exec (.pfill d a b x y) s = execPfill d a b x y s := rfl
theorem exec_ptag (d a b : Reg) (x y : Bool) (s : State) : exec (.ptag d a b x y) s = execPtag d a b x y s := rfl
theorem exec_premap (d a b : Reg) (x y : Bool) (s : State) : exec (.premap d a b x y) s = execPremap d a b x y s := rfl
theorem exec_pscrub (d a b : Reg) (x y : Bool) (s : State) : exec (.pscrub d a b x y) s = execPscrub d a b x y s := rfl
theorem exec_pcoll (d a b : Reg) (x y : Bool) (s : State) : exec (.pcoll d a b x y) s = execPcoll d a b x y s := rfl
theorem exec_pslotLoadEntries (d a b : Reg) (x y : Bool) (s : State) : exec (.pslotLoadEntries d a b x y) s = execPslotLoadEntries d a b x y s := rfl
theorem exec_pslotStoreEntries (d a b : Reg) (x y : Bool) (s : State) : exec (.pslotStoreEntries d a b x y) s = execPslotStoreEntries d a b x y s := rfl
theorem exec_pslotLoadControl (d a b : Reg) (x y : Bool) (s : State) : exec (.pslotLoadControl d a b x y) s = execPslotLoadControl d a b x y s := rfl
theorem exec_pslotStatus (d a b : Reg) (x y : Bool) (s : State) : exec (.pslotStatus d a b x y) s = execPslotStatus d a b x y s := rfl
theorem exec_pq (d a : Reg) (x : Bool) (s : State) : exec (.pq d a x) s = execPq d a x s := rfl
theorem exec_brwld (d a b : Reg) (x y : Bool) (s : State) : exec (.brwld d a b x y) s = execBrwld d a b x y s := rfl
theorem exec_brwarm (d a b : Reg) (x y : Bool) (s : State) : exec (.brwarm d a b x y) s = execBrwarm d a b x y s := rfl
theorem exec_disarm (d a b : Reg) (x y : Bool) (s : State) : exec (.disarm d a b x y) s = execDisarm d a b x y s := rfl
theorem exec_brwpost (d a b : Reg) (x y : Bool) (s : State) : exec (.brwpost d a b x y) s = execBrwpost d a b x y s := rfl
theorem exec_brwfree (d a : Reg) (x : Bool) (s : State) : exec (.brwfree d a x) s = execBrwfree d a x s := rfl
theorem exec_brwq (d a : Reg) (x : Bool) (s : State) : exec (.brwq d a x) s = execBrwq d a x s := rfl
theorem exec_csrr (d : Reg) (c : BitVec 12) (s : State) : exec (.csrr d c) s = execCsrr d c s := rfl
theorem exec_csrw (d a : Reg) (c : BitVec 12) (s : State) : exec (.csrw d a c) s = execCsrw d a c s := rfl
theorem exec_csrs (d a : Reg) (c : BitVec 12) (s : State) : exec (.csrs d a c) s = execCsrs d a c s := rfl
theorem exec_csrc (d a : Reg) (c : BitVec 12) (s : State) : exec (.csrc d a c) s = execCsrc d a c s := rfl
theorem exec_trap (d a : Reg) (c : BitVec 11) (s : State) : exec (.trap d a c) s = execTrap d a c s := rfl
theorem exec_brkpt (c : BitVec 11) (s : State) : exec (.brkpt c) s = execBrkpt c s := rfl
theorem exec_eret (s : State) : exec (.eret) s = execEret s := rfl
theorem exec_upret (s : State) : exec (.upret) s = execUpret s := rfl
theorem exec_wfe (d a : Reg) (s : State) : exec (.wfe d a) s = execWfe d a s := rfl
theorem exec_routld (d a : Reg) (im : BitVec 8) (s : State) : exec (.routld d a im) s = execRoutld d a im s := rfl
theorem exec_fadd (d a b : Reg) (x y : Bool) (s : State) : exec (.fadd d a b x y) s = execFadd d a b x y s := rfl
theorem exec_fsub (d a b : Reg) (x y : Bool) (s : State) : exec (.fsub d a b x y) s = execFsub d a b x y s := rfl
theorem exec_fmul (d a b : Reg) (x y : Bool) (s : State) : exec (.fmul d a b x y) s = execFmul d a b x y s := rfl
theorem exec_ffma (d a b : Reg) (x y : Bool) (s : State) : exec (.ffma d a b x y) s = execFfma d a b x y s := rfl
theorem exec_fdiv (d a b : Reg) (x y : Bool) (s : State) : exec (.fdiv d a b x y) s = execFdiv d a b x y s := rfl
theorem exec_fsqrt (d a : Reg) (x : Bool) (s : State) : exec (.fsqrt d a x) s = execFsqrt d a x s := rfl
theorem exec_fmin (d a b : Reg) (x y : Bool) (s : State) : exec (.fmin d a b x y) s = execFmin d a b x y s := rfl
theorem exec_fmax (d a b : Reg) (x y : Bool) (s : State) : exec (.fmax d a b x y) s = execFmax d a b x y s := rfl
theorem exec_fcmp (d a b : Reg) (x y : Bool) (s : State) : exec (.fcmp d a b x y) s = execFcmp d a b x y s := rfl
theorem exec_fcvt (d a b : Reg) (x y : Bool) (s : State) : exec (.fcvt d a b x y) s = execFcvt d a b x y s := rfl
theorem exec_fclass (d a : Reg) (x : Bool) (s : State) : exec (.fclass d a x) s = execFclass d a x s := rfl
theorem exec_addp (d a b : Reg) (x y : Bool) (s : State) : exec (.addp d a b x y) s = execAddp d a b x y s := rfl
theorem exec_pfmt (d a b : Reg) (x y : Bool) (s : State) : exec (.pfmt d a b x y) s = execPfmt d a b x y s := rfl
theorem exec_pidx (d a b : Reg) (x y : Bool) (s : State) : exec (.pidx d a b x y) s = execPidx d a b x y s := rfl
theorem exec_pdiff (d a b : Reg) (x y : Bool) (s : State) : exec (.pdiff d a b x y) s = execPdiff d a b x y s := rfl
theorem exec_pstrip (d a : Reg) (x : Bool) (s : State) : exec (.pstrip d a x) s = execPstrip d a x s := rfl
theorem exec_illop (w : BitVec 32) (s : State) : exec (.illop w) s = execIllop w s := rfl
theorem exec_issueRetry (sl : SlotId) (s : State) : exec (.issueRetry sl) s = execIssueRetry sl s := rfl
theorem exec_upcall (sl : SlotId) (s : State) : exec (.upcall sl) s = execUpcall sl s := rfl
theorem exec_producerLands (sl : SlotId) (req : Nat) (s : State) : exec (.producerLands sl req) s = execProducerLands sl req s := rfl
theorem exec_requestComplete (sl : SlotId) (req : Nat) (s : State) : exec (.requestComplete sl req) s = execRequestComplete sl req s := rfl
theorem exec_parkedAccess (sl : SlotId) (req : Nat) (s : State) : exec (.parkedAccess sl req) s = execParkedAccess sl req s := rfl
theorem exec_deferredUpcall (sl : SlotId) (s : State) : exec (.deferredUpcall sl) s = execDeferredUpcall sl s := rfl
theorem exec_engfault (sl : SlotId) (s : State) : exec (.engfault sl) s = execEngfault sl s := rfl
theorem exec_wfeTimeout (sl : SlotId) (s : State) : exec (.wfeTimeout sl) s = execWfeTimeout sl s := rfl
theorem exec_tagServe (word : Nat) (s : State) : exec (.tagServe word) s = execTagServe word s := rfl
theorem exec_activeMessageArrival (src : Option Nat) (idx target : Nat) (s : State) : exec (.activeMessageArrival src idx target) s = execActiveMessageArrival src idx target s := rfl
theorem exec_counterMessage (src : Option Nat) (idx : Nat) (s : State) : exec (.counterMessage src idx) s = execCounterMessage src idx s := rfl
theorem exec_outboundRetry (core idx : Nat) (s : State) : exec (.outboundRetry core idx) s = execOutboundRetry core idx s := rfl
theorem exec_startActiveMessage (sl : SlotId) (ch : BitVec 5) (s : State) : exec (.startActiveMessage sl ch) s = execStartActiveMessage sl ch s := rfl
theorem exec_startCounterFiring (sl : SlotId) (ch : BitVec 5) (s : State) : exec (.startCounterFiring sl ch) s = execStartCounterFiring sl ch s := rfl
theorem exec_taskPop (sl : SlotId) (s : State) : exec (.taskPop sl) s = execTaskPop sl s := rfl
theorem exec_taskSteal (sl : SlotId) (s : State) : exec (.taskSteal sl) s = execTaskSteal sl s := rfl
theorem exec_jobStart (oct ctx : Nat) (id : BitVec 16) (s : State) : exec (.jobStart oct ctx id) s = execJobStart oct ctx id s := rfl
theorem exec_jobProgress (oct ctx : Nat) (id : BitVec 16) (s : State) : exec (.jobProgress oct ctx id) s = execJobProgress oct ctx id s := rfl
theorem exec_jobComplete (oct ctx : Nat) (id : BitVec 16) (s : State) : exec (.jobComplete oct ctx id) s = execJobComplete oct ctx id s := rfl
theorem exec_jobStop (oct ctx : Nat) (id : BitVec 16) (cause : BitVec 8) (s : State) : exec (.jobStop oct ctx id cause) s = execJobStop oct ctx id cause s := rfl
theorem exec_remapStart (oct ctx : Nat) (id : BitVec 16) (s : State) : exec (.remapStart oct ctx id) s = execRemapStart oct ctx id s := rfl
theorem exec_remapComplete (oct ctx : Nat) (id : BitVec 16) (s : State) : exec (.remapComplete oct ctx id) s = execRemapComplete oct ctx id s := rfl
theorem exec_routineCall (sl : SlotId) (req : Nat) (s : State) : exec (.routineCall sl req) s = execRoutineCall sl req s := rfl
theorem exec_chainStep (sl : SlotId) (req : Nat) (s : State) : exec (.chainStep sl req) s = execChainStep sl req s := rfl
theorem exec_tagPass (bank : Nat) (s : State) : exec (.tagPass bank) s = execTagPass bank s := rfl
theorem exec_rowStep (bank : Nat) (s : State) : exec (.rowStep bank) s = execRowStep bank s := rfl
theorem exec_rowBoundaryYield (bank : Nat) (s : State) : exec (.rowBoundaryYield bank) s = execRowBoundaryYield bank s := rfl
theorem exec_heldRowRefresh (ctx place : Nat) (s : State) : exec (.heldRowRefresh ctx place) s = execHeldRowRefresh ctx place s := rfl
theorem exec_chbaseWrite (v : Word) (s : State) : exec (.chbaseWrite v) s = execChbaseWrite v s := rfl
theorem exec_vallocWrite (v : Word) (s : State) : exec (.vallocWrite v) s = execVallocWrite v s := rfl
theorem exec_create (ctx : Nat) (s : State) : exec (.create ctx) s = execCreate ctx s := rfl
theorem exec_resume (ctx : Nat) (s : State) : exec (.resume ctx) s = execResume ctx s := rfl
theorem exec_preempt (ctx : Nat) (s : State) : exec (.preempt ctx) s = execPreempt ctx s := rfl
theorem exec_destroy (ctx : Nat) (s : State) : exec (.destroy ctx) s = execDestroy ctx s := rfl
theorem exec_slotHalt (sl : SlotId) (s : State) : exec (.slotHalt sl) s = execSlotHalt sl s := rfl
theorem exec_saveComplete (ctx : Nat) (s : State) : exec (.saveComplete ctx) s = execSaveComplete ctx s := rfl
theorem exec_faultRecord (ctx : Nat) (r : FaultRec) (s : State) : exec (.faultRecord ctx r) s = execFaultRecord ctx r s := rfl
theorem exec_interrupt (sl : SlotId) (s : State) : exec (.interrupt sl) s = execInterrupt sl s := rfl
theorem exec_xinv (v : Word) (s : State) : exec (.xinv v) s = execXinv v s := rfl
theorem exec_grantLoad (idx : BitVec 8) (s : State) : exec (.grantLoad idx) s = execGrantLoad idx s := rfl
theorem exec_recall (idx : BitVec 8) (s : State) : exec (.recall idx) s = execRecall idx s := rfl
theorem exec_doorbell (ctx q : Nat) (t : Word) (s : State) : exec (.doorbell ctx q t) s = execDoorbell ctx q t s := rfl
theorem exec_devnum (v : Word) (s : State) : exec (.devnum v) s = execDevnum v s := rfl
theorem exec_hoststat (s : State) : exec (.hoststat) s = execHoststat s := rfl
theorem exec_hostRegisterWrite (off : Nat) (v : Word) (s : State) : exec (.hostRegisterWrite off v) s = execHostRegisterWrite off v s := rfl
theorem exec_hostMemoryWrite (off : Nat) (bytes : List Byte) (s : State) : exec (.hostMemoryWrite off bytes) s = execHostMemoryWrite off bytes s := rfl
theorem exec_unsupportedRequest (s : State) : exec (.unsupportedRequest) s = execUnsupportedRequest s := rfl
theorem exec_descriptorTake (ctx q : Nat) (s : State) : exec (.descriptorTake ctx q) s = execDescriptorTake ctx q s := rfl
theorem exec_dependenceMet (launch : Nat) (s : State) : exec (.dependenceMet launch) s = execDependenceMet launch s := rfl
theorem exec_groupPlace (launch : Nat) (s : State) : exec (.groupPlace launch) s = execGroupPlace launch s := rfl
theorem exec_groupExit (launch group : Nat) (s : State) : exec (.groupExit launch group) s = execGroupExit launch group s := rfl
theorem exec_brewEvaluate (s : State) : exec (.brewEvaluate) s = execBrewEvaluate s := rfl
theorem exec_brwpostArrival (idx : Nat) (s : State) : exec (.brwpostArrival idx) s = execBrwpostArrival idx s := rfl
theorem exec_routerCycle (die : Nat) (picks : List Nat) (inject : List (Nat × Nat)) (s : State) : exec (.routerCycle die picks inject) s = execRouterCycle die picks inject s := rfl
theorem exec_kdpPacket (link : Nat) (h0 h1 : Word) (s : State) : exec (.kdpPacket link h0 h1) s = execKdpPacket link h0 h1 s := rfl
theorem exec_slotBoundary (s : State) : exec (.slotBoundary) s = execSlotBoundary s := rfl
theorem exec_rotationBoundary (s : State) : exec (.rotationBoundary) s = execRotationBoundary s := rfl
theorem exec_windowSend (port dev : Nat) (block : Bool) (s : State) : exec (.windowSend port dev block) s = execWindowSend port dev block s := rfl
theorem exec_frameReceive (port : Nat) (full : Bool) (f : Frame) (s : State) : exec (.frameReceive port full f) s = execFrameReceive port full f s := rfl
theorem exec_pull (which : Nat × Bool) (s : State) : exec (.pull which) s = execPull which s := rfl
theorem exec_peerAccess (f : Frame) (s : State) : exec (.peerAccess f) s = execPeerAccess f s := rfl
theorem exec_peerMessage (dev : Nat) (m : Msg) (s : State) : exec (.peerMessage dev m) s = execPeerMessage dev m s := rfl
theorem exec_blockApply (f : Frame) (s : State) : exec (.blockApply f) s = execBlockApply f s := rfl
theorem exec_acknowledgement (sl : SlotId) (part : Nat × Nat) (dev code : Nat) (data : List Byte) (s : State) :
    exec (.acknowledgement sl part dev code data) s = execAcknowledgement sl part dev code data s := rfl
theorem exec_remoteTimeLimit (sl : SlotId) (req : Nat) (s : State) : exec (.remoteTimeLimit sl req) s = execRemoteTimeLimit sl req s := rfl
theorem exec_linkDown (port : Nat) (s : State) : exec (.linkDown port) s = execLinkDown port s := rfl
theorem exec_rollback (sl : SlotId) (s : State) : exec (.rollback sl) s = execRollback sl s := rfl
theorem exec_correctedError (u : RUnit) (s : State) : exec (.correctedError u) s = execCorrectedError u s := rfl
theorem exec_uncorrectableError (u : RUnit) (word : Option Nat) (s : State) : exec (.uncorrectableError u word) s = execUncorrectableError u word s := rfl
theorem exec_spareReplacement (u : RUnit) (s : State) : exec (.spareReplacement u) s = execSpareReplacement u s := rfl
theorem exec_dieRenumbering (die : Nat) (s : State) : exec (.dieRenumbering die) s = execDieRenumbering die s := rfl
theorem exec_linkReroute (die : Nat) (s : State) : exec (.linkReroute die) s = execLinkReroute die s := rfl
theorem exec_alignmentExchange (t1 t2 t3 t4 : Int) (skew : BitVec 32) (s : State) : exec (.alignmentExchange t1 t2 t3 t4 skew) s = execAlignmentExchange t1 t2 t3 t4 skew s := rfl
theorem exec_alignmentLost (s : State) : exec (.alignmentLost) s = execAlignmentLost s := rfl
theorem exec_powerGood (s : State) : exec (.powerGood) s = execPowerGood s := rfl
theorem exec_bootPhase (ok : Bool) (detail : BitVec 8) (val : Word) (s : State) : exec (.bootPhase ok detail val) s = execBootPhase ok detail val s := rfl
theorem exec_pwrlimClockStep (measured : BitVec 16 × BitVec 16) (s : State) : exec (.pwrlimClockStep measured) s = execPwrlimClockStep measured s := rfl

end Sys2Proof.Machine
end

