-- ==== Sys2Proof/Laws/PerInstr.lean ====
section
/-!
SUPPORT. The family F of statements made per instruction: the word of an instruction has a major opcode that R34 leaves free to
instructions, so an instruction's word is never one of the words that trap for their opcode.
-/

namespace Sys2Proof.Laws

/-- R34: the major opcode is none of 0x00 and 0x2A to 0x3F. -/
def F.Statement (i : Instr) : Prop := ∀ w, encode i = some w → 0 < (fOp w).toNat ∧ (fOp w).toNat < 0x2A

theorem F.add (v0 v1 v2 : Reg) (v3 v4 : Bool) : F.Statement (.add v0 v1 v2 v3 v4) := by
  intro w h; cases h; rw [fOp_packRR]; decide
theorem F.sub (v0 v1 v2 : Reg) (v3 v4 : Bool) : F.Statement (.sub v0 v1 v2 v3 v4) := by
  intro w h; cases h; rw [fOp_packRR]; decide
theorem F.and (v0 v1 v2 : Reg) (v3 v4 : Bool) : F.Statement (.and v0 v1 v2 v3 v4) := by
  intro w h; cases h; rw [fOp_packRR]; decide
theorem F.or (v0 v1 v2 : Reg) (v3 v4 : Bool) : F.Statement (.or v0 v1 v2 v3 v4) := by
  intro w h; cases h; rw [fOp_packRR]; decide
theorem F.xor (v0 v1 v2 : Reg) (v3 v4 : Bool) : F.Statement (.xor v0 v1 v2 v3 v4) := by
  intro w h; cases h; rw [fOp_packRR]; decide
theorem F.andn (v0 v1 v2 : Reg) (v3 v4 : Bool) : F.Statement (.andn v0 v1 v2 v3 v4) := by
  intro w h; cases h; rw [fOp_packRR]; decide
theorem F.sll (v0 v1 v2 : Reg) (v3 v4 : Bool) : F.Statement (.sll v0 v1 v2 v3 v4) := by
  intro w h; cases h; rw [fOp_packRR]; decide
theorem F.srl (v0 v1 v2 : Reg) (v3 v4 : Bool) : F.Statement (.srl v0 v1 v2 v3 v4) := by
  intro w h; cases h; rw [fOp_packRR]; decide
theorem F.sra (v0 v1 v2 : Reg) (v3 v4 : Bool) : F.Statement (.sra v0 v1 v2 v3 v4) := by
  intro w h; cases h; rw [fOp_packRR]; decide
theorem F.rol (v0 v1 v2 : Reg) (v3 v4 : Bool) : F.Statement (.rol v0 v1 v2 v3 v4) := by
  intro w h; cases h; rw [fOp_packRR]; decide
theorem F.slt (v0 v1 v2 : Reg) (v3 v4 : Bool) : F.Statement (.slt v0 v1 v2 v3 v4) := by
  intro w h; cases h; rw [fOp_packRR]; decide
theorem F.sltu (v0 v1 v2 : Reg) (v3 v4 : Bool) : F.Statement (.sltu v0 v1 v2 v3 v4) := by
  intro w h; cases h; rw [fOp_packRR]; decide
theorem F.min (v0 v1 v2 : Reg) (v3 v4 : Bool) : F.Statement (.min v0 v1 v2 v3 v4) := by
  intro w h; cases h; rw [fOp_packRR]; decide
theorem F.max (v0 v1 v2 : Reg) (v3 v4 : Bool) : F.Statement (.max v0 v1 v2 v3 v4) := by
  intro w h; cases h; rw [fOp_packRR]; decide
theorem F.minu (v0 v1 v2 : Reg) (v3 v4 : Bool) : F.Statement (.minu v0 v1 v2 v3 v4) := by
  intro w h; cases h; rw [fOp_packRR]; decide
theorem F.maxu (v0 v1 v2 : Reg) (v3 v4 : Bool) : F.Statement (.maxu v0 v1 v2 v3 v4) := by
  intro w h; cases h; rw [fOp_packRR]; decide
theorem F.mul (v0 v1 v2 : Reg) (v3 v4 : Bool) : F.Statement (.mul v0 v1 v2 v3 v4) := by
  intro w h; cases h; rw [fOp_packRR]; decide
theorem F.mulh (v0 v1 v2 : Reg) (v3 v4 : Bool) : F.Statement (.mulh v0 v1 v2 v3 v4) := by
  intro w h; cases h; rw [fOp_packRR]; decide
theorem F.mulhu (v0 v1 v2 : Reg) (v3 v4 : Bool) : F.Statement (.mulhu v0 v1 v2 v3 v4) := by
  intro w h; cases h; rw [fOp_packRR]; decide
theorem F.div (v0 v1 v2 : Reg) (v3 v4 : Bool) : F.Statement (.div v0 v1 v2 v3 v4) := by
  intro w h; cases h; rw [fOp_packRR]; decide
theorem F.divu (v0 v1 v2 : Reg) (v3 v4 : Bool) : F.Statement (.divu v0 v1 v2 v3 v4) := by
  intro w h; cases h; rw [fOp_packRR]; decide
theorem F.rem (v0 v1 v2 : Reg) (v3 v4 : Bool) : F.Statement (.rem v0 v1 v2 v3 v4) := by
  intro w h; cases h; rw [fOp_packRR]; decide
theorem F.remu (v0 v1 v2 : Reg) (v3 v4 : Bool) : F.Statement (.remu v0 v1 v2 v3 v4) := by
  intro w h; cases h; rw [fOp_packRR]; decide
theorem F.clz (v0 v1 : Reg) (v2 : Bool) : F.Statement (.clz v0 v1 v2) := by
  intro w h; cases h; rw [fOp_packRR]; decide
theorem F.ctz (v0 v1 : Reg) (v2 : Bool) : F.Statement (.ctz v0 v1 v2) := by
  intro w h; cases h; rw [fOp_packRR]; decide
theorem F.popc (v0 v1 : Reg) (v2 : Bool) : F.Statement (.popc v0 v1 v2) := by
  intro w h; cases h; rw [fOp_packRR]; decide
theorem F.sextb (v0 v1 : Reg) (v2 : Bool) : F.Statement (.sextb v0 v1 v2) := by
  intro w h; cases h; rw [fOp_packRR]; decide
theorem F.sexth (v0 v1 : Reg) (v2 : Bool) : F.Statement (.sexth v0 v1 v2) := by
  intro w h; cases h; rw [fOp_packRR]; decide
theorem F.sextw (v0 v1 : Reg) (v2 : Bool) : F.Statement (.sextw v0 v1 v2) := by
  intro w h; cases h; rw [fOp_packRR]; decide
theorem F.zextw (v0 v1 : Reg) (v2 : Bool) : F.Statement (.zextw v0 v1 v2) := by
  intro w h; cases h; rw [fOp_packRR]; decide
theorem F.bswap (v0 v1 : Reg) (v2 : Bool) : F.Statement (.bswap v0 v1 v2) := by
  intro w h; cases h; rw [fOp_packRR]; decide
theorem F.selnz (v0 v1 v2 : Reg) (v3 v4 : Bool) : F.Statement (.selnz v0 v1 v2 v3 v4) := by
  intro w h; cases h; rw [fOp_packRR]; decide
theorem F.addi (v0 v1 : Reg) (v2 : Bool) (v3 : BitVec 15) : F.Statement (.addi v0 v1 v2 v3) := by
  intro w h; cases h; rw [fOp_packRI]; decide
theorem F.andi (v0 v1 : Reg) (v2 : Bool) (v3 : BitVec 15) : F.Statement (.andi v0 v1 v2 v3) := by
  intro w h; cases h; rw [fOp_packRI]; decide
theorem F.ori (v0 v1 : Reg) (v2 : Bool) (v3 : BitVec 15) : F.Statement (.ori v0 v1 v2 v3) := by
  intro w h; cases h; rw [fOp_packRI]; decide
theorem F.xori (v0 v1 : Reg) (v2 : Bool) (v3 : BitVec 15) : F.Statement (.xori v0 v1 v2 v3) := by
  intro w h; cases h; rw [fOp_packRI]; decide
theorem F.slti (v0 v1 : Reg) (v2 : Bool) (v3 : BitVec 15) : F.Statement (.slti v0 v1 v2 v3) := by
  intro w h; cases h; rw [fOp_packRI]; decide
theorem F.sltiu (v0 v1 : Reg) (v2 : Bool) (v3 : BitVec 15) : F.Statement (.sltiu v0 v1 v2 v3) := by
  intro w h; cases h; rw [fOp_packRI]; decide
theorem F.slli (v0 v1 : Reg) (v2 : Bool) (v3 : BitVec 6) : F.Statement (.slli v0 v1 v2 v3) := by
  intro w h; cases h; rw [fOp_packRI]; decide
theorem F.srli (v0 v1 : Reg) (v2 : Bool) (v3 : BitVec 6) : F.Statement (.srli v0 v1 v2 v3) := by
  intro w h; cases h; rw [fOp_packRI]; decide
theorem F.srai (v0 v1 : Reg) (v2 : Bool) (v3 : BitVec 6) : F.Statement (.srai v0 v1 v2 v3) := by
  intro w h; cases h; rw [fOp_packRI]; decide
theorem F.roli (v0 v1 : Reg) (v2 : Bool) (v3 : BitVec 6) : F.Statement (.roli v0 v1 v2 v3) := by
  intro w h; cases h; rw [fOp_packRI]; decide
theorem F.lui (v0 : Reg) (v1 : BitVec 21) : F.Statement (.lui v0 v1) := by
  intro w h; cases h; rw [fOp_packJ]; decide
theorem F.lih (v0 : Reg) (v1 : BitVec 21) : F.Statement (.lih v0 v1) := by
  intro w h; cases h; rw [fOp_packJ]; decide
theorem F.addpc (v0 : Reg) (v1 : BitVec 21) : F.Statement (.addpc v0 v1) := by
  intro w h; cases h; rw [fOp_packJ]; decide
theorem F.ld (v0 v1 : Reg) (v2 : Bool) (v3 : BitVec 3) (v4 : BitVec 12) : F.Statement (.ld v0 v1 v2 v3 v4) := by
  intro w h; cases h; rw [fOp_packM]; decide
theorem F.ldn (v0 v1 : Reg) (v2 : Bool) (v3 : BitVec 3) (v4 : BitVec 12) : F.Statement (.ldn v0 v1 v2 v3 v4) := by
  intro w h; cases h; rw [fOp_packM]; decide
theorem F.ldf (v0 v1 : Reg) (v2 : Bool) (v3 : BitVec 3) (v4 : BitVec 12) : F.Statement (.ldf v0 v1 v2 v3 v4) := by
  intro w h; cases h; rw [fOp_packM]; decide
theorem F.ldfe (v0 v1 : Reg) (v2 : Bool) (v3 : BitVec 3) (v4 : BitVec 12) : F.Statement (.ldfe v0 v1 v2 v3 v4) := by
  intro w h; cases h; rw [fOp_packM]; decide
theorem F.st (v0 v1 : Reg) (v2 : Bool) (v3 : BitVec 3) (v4 : BitVec 12) : F.Statement (.st v0 v1 v2 v3 v4) := by
  intro w h; cases h; rw [fOp_packM]; decide
theorem F.ste (v0 v1 : Reg) (v2 : Bool) (v3 : BitVec 3) (v4 : BitVec 12) : F.Statement (.ste v0 v1 v2 v3 v4) := by
  intro w h; cases h; rw [fOp_packM]; decide
theorem F.stf (v0 v1 : Reg) (v2 : Bool) (v3 : BitVec 3) (v4 : BitVec 12) : F.Statement (.stf v0 v1 v2 v3 v4) := by
  intro w h; cases h; rw [fOp_packM]; decide
theorem F.amoadd (v0 v1 v2 : Reg) (v3 v4 : Bool) (v5 : BitVec 3) (v6 : Bool) : F.Statement (.amoadd v0 v1 v2 v3 v4 v5 v6) := by
  intro w h; cases h; rw [fOp_packRR]; decide
theorem F.amoand (v0 v1 v2 : Reg) (v3 v4 : Bool) (v5 : BitVec 3) (v6 : Bool) : F.Statement (.amoand v0 v1 v2 v3 v4 v5 v6) := by
  intro w h; cases h; rw [fOp_packRR]; decide
theorem F.amoor (v0 v1 v2 : Reg) (v3 v4 : Bool) (v5 : BitVec 3) (v6 : Bool) : F.Statement (.amoor v0 v1 v2 v3 v4 v5 v6) := by
  intro w h; cases h; rw [fOp_packRR]; decide
theorem F.amoxor (v0 v1 v2 : Reg) (v3 v4 : Bool) (v5 : BitVec 3) (v6 : Bool) : F.Statement (.amoxor v0 v1 v2 v3 v4 v5 v6) := by
  intro w h; cases h; rw [fOp_packRR]; decide
theorem F.amomin (v0 v1 v2 : Reg) (v3 v4 : Bool) (v5 : BitVec 3) (v6 : Bool) : F.Statement (.amomin v0 v1 v2 v3 v4 v5 v6) := by
  intro w h; cases h; rw [fOp_packRR]; decide
theorem F.amomax (v0 v1 v2 : Reg) (v3 v4 : Bool) (v5 : BitVec 3) (v6 : Bool) : F.Statement (.amomax v0 v1 v2 v3 v4 v5 v6) := by
  intro w h; cases h; rw [fOp_packRR]; decide
theorem F.amominu (v0 v1 v2 : Reg) (v3 v4 : Bool) (v5 : BitVec 3) (v6 : Bool) : F.Statement (.amominu v0 v1 v2 v3 v4 v5 v6) := by
  intro w h; cases h; rw [fOp_packRR]; decide
theorem F.amomaxu (v0 v1 v2 : Reg) (v3 v4 : Bool) (v5 : BitVec 3) (v6 : Bool) : F.Statement (.amomaxu v0 v1 v2 v3 v4 v5 v6) := by
  intro w h; cases h; rw [fOp_packRR]; decide
theorem F.amoswap (v0 v1 v2 : Reg) (v3 v4 : Bool) (v5 : BitVec 3) (v6 : Bool) : F.Statement (.amoswap v0 v1 v2 v3 v4 v5 v6) := by
  intro w h; cases h; rw [fOp_packRR]; decide
theorem F.amocas (v0 v1 v2 : Reg) (v3 v4 : Bool) (v5 : BitVec 3) (v6 : Bool) : F.Statement (.amocas v0 v1 v2 v3 v4 v5 v6) := by
  intro w h; cases h; rw [fOp_packRR]; decide
theorem F.amofadd (v0 v1 v2 : Reg) (v3 v4 : Bool) (v5 : BitVec 3) : F.Statement (.amofadd v0 v1 v2 v3 v4 v5) := by
  intro w h; cases h; rw [fOp_packRR]; decide
theorem F.beq (v0 v1 : Reg) (v2 v3 : Bool) (v4 : BitVec 14) : F.Statement (.beq v0 v1 v2 v3 v4) := by
  intro w h; cases h; rw [fOp_packB]; decide
theorem F.bne (v0 v1 : Reg) (v2 v3 : Bool) (v4 : BitVec 14) : F.Statement (.bne v0 v1 v2 v3 v4) := by
  intro w h; cases h; rw [fOp_packB]; decide
theorem F.blt (v0 v1 : Reg) (v2 v3 : Bool) (v4 : BitVec 14) : F.Statement (.blt v0 v1 v2 v3 v4) := by
  intro w h; cases h; rw [fOp_packB]; decide
theorem F.bge (v0 v1 : Reg) (v2 v3 : Bool) (v4 : BitVec 14) : F.Statement (.bge v0 v1 v2 v3 v4) := by
  intro w h; cases h; rw [fOp_packB]; decide
theorem F.bltu (v0 v1 : Reg) (v2 v3 : Bool) (v4 : BitVec 14) : F.Statement (.bltu v0 v1 v2 v3 v4) := by
  intro w h; cases h; rw [fOp_packB]; decide
theorem F.bgeu (v0 v1 : Reg) (v2 v3 : Bool) (v4 : BitVec 14) : F.Statement (.bgeu v0 v1 v2 v3 v4) := by
  intro w h; cases h; rw [fOp_packB]; decide
theorem F.jal (v0 : Reg) (v1 : BitVec 21) : F.Statement (.jal v0 v1) := by
  intro w h; cases h; rw [fOp_packJ]; decide
theorem F.jalr (v0 v1 : Reg) (v2 : Bool) (v3 : BitVec 15) : F.Statement (.jalr v0 v1 v2 v3) := by
  intro w h; cases h; rw [fOp_packRI]; decide
theorem F.send (v0 v1 : Reg) (v2 v3 : Bool) : F.Statement (.send v0 v1 v2 v3) := by
  intro w h; cases h; rw [fOp_packRR]; decide
theorem F.sendc (v0 v1 : Reg) (v2 v3 : Bool) : F.Statement (.sendc v0 v1 v2 v3) := by
  intro w h; cases h; rw [fOp_packRR]; decide
theorem F.sendb (v0 v1 v2 : Reg) (v3 v4 : Bool) : F.Statement (.sendb v0 v1 v2 v3 v4) := by
  intro w h; cases h; rw [fOp_packRR]; decide
theorem F.hret : F.Statement .hret := by
  intro w h; cases h; rw [fOp_packRR]; decide
theorem F.hyield (v0 : Reg) (v1 : Bool) : F.Statement (.hyield v0 v1) := by
  intro w h; cases h; rw [fOp_packRR]; decide
theorem F.chset (v0 v1 v2 : Reg) (v3 v4 : Bool) : F.Statement (.chset v0 v1 v2 v3 v4) := by
  intro w h; cases h; rw [fOp_packRR]; decide
theorem F.chmask (v0 v1 v2 : Reg) (v3 v4 : Bool) : F.Statement (.chmask v0 v1 v2 v3 v4) := by
  intro w h; cases h; rw [fOp_packRR]; decide
theorem F.charm (v0 v1 v2 : Reg) (v3 v4 : Bool) : F.Statement (.charm v0 v1 v2 v3 v4) := by
  intro w h; cases h; rw [fOp_packRR]; decide
theorem F.fork (v0 v1 v2 : Reg) (v3 v4 : Bool) : F.Statement (.fork v0 v1 v2 v3 v4) := by
  intro w h; cases h; rw [fOp_packRR]; decide
theorem F.taskend (v0 : Reg) (v1 : Bool) : F.Statement (.taskend v0 v1) := by
  intro w h; cases h; rw [fOp_packRR]; decide
theorem F.rejoin (v0 v1 v2 : Reg) (v3 v4 : Bool) : F.Statement (.rejoin v0 v1 v2 v3 v4) := by
  intro w h; cases h; rw [fOp_packRR]; decide
theorem F.trig : F.Statement .trig := by
  intro w h; cases h; rw [fOp_packRR]; decide
theorem F.joinch (v0 v1 : Reg) (v2 : Bool) : F.Statement (.joinch v0 v1 v2) := by
  intro w h; cases h; rw [fOp_packRR]; decide
theorem F.fenceAcq (v0 : BitVec 3) (v1 : Bool) : F.Statement (.fenceAcq v0 v1) := by
  intro w h; cases h; rw [fOp_packRR]; decide
theorem F.fenceRel (v0 : BitVec 3) (v1 : Bool) : F.Statement (.fenceRel v0 v1) := by
  intro w h; cases h; rw [fOp_packRR]; decide
theorem F.fenceFull (v0 : BitVec 3) (v1 : Bool) : F.Statement (.fenceFull v0 v1) := by
  intro w h; cases h; rw [fOp_packRR]; decide
theorem F.fencesc (v0 : BitVec 3) : F.Statement (.fencesc v0) := by
  intro w h; cases h; rw [fOp_packRR]; decide
theorem F.rbegin (v0 : Reg) : F.Statement (.rbegin v0) := by
  intro w h; cases h; rw [fOp_packRR]; decide
theorem F.rcommit : F.Statement .rcommit := by
  intro w h; cases h; rw [fOp_packRR]; decide
theorem F.rabort (v0 : Reg) (v1 : Bool) : F.Statement (.rabort v0 v1) := by
  intro w h; cases h; rw [fOp_packRR]; decide
theorem F.waitc (v0 : BitVec 4) (v1 : Reg) (v2 : Bool) : F.Statement (.waitc v0 v1 v2) := by
  intro w h; cases h; rw [fOp_packRR]; decide
theorem F.ship (v0 v1 v2 : Reg) (v3 v4 : Bool) (v5 : BitVec 8) : F.Statement (.ship v0 v1 v2 v3 v4 v5) := by
  intro w h; cases h; rw [fOp_packRR]; decide
theorem F.chain (v0 v1 v2 : Reg) (v3 v4 : Bool) : F.Statement (.chain v0 v1 v2 v3 v4) := by
  intro w h; cases h; rw [fOp_packRR]; decide
theorem F.rowopen (v0 : Reg) (v1 : Bool) : F.Statement (.rowopen v0 v1) := by
  intro w h; cases h; rw [fOp_packRR]; decide
theorem F.rowhold (v0 v1 : Reg) (v2 : Bool) : F.Statement (.rowhold v0 v1 v2) := by
  intro w h; cases h; rw [fOp_packRR]; decide
theorem F.rowrel (v0 : Reg) (v1 : Bool) : F.Statement (.rowrel v0 v1) := by
  intro w h; cases h; rw [fOp_packRR]; decide
theorem F.rowq (v0 v1 : Reg) (v2 : Bool) : F.Statement (.rowq v0 v1 v2) := by
  intro w h; cases h; rw [fOp_packRR]; decide
theorem F.nbprog (v0 v1 : Reg) (v2 : Bool) : F.Statement (.nbprog v0 v1 v2) := by
  intro w h; cases h; rw [fOp_packRR]; decide
theorem F.nbstat (v0 v1 : Reg) (v2 : Bool) : F.Statement (.nbstat v0 v1 v2) := by
  intro w h; cases h; rw [fOp_packRR]; decide
theorem F.vadd (v0 v1 v2 : VReg) (v3 : MReg) : F.Statement (.vadd v0 v1 v2 v3) := by
  intro w h; cases h; rw [fOp_packV]; decide
theorem F.vsub (v0 v1 v2 : VReg) (v3 : MReg) : F.Statement (.vsub v0 v1 v2 v3) := by
  intro w h; cases h; rw [fOp_packV]; decide
theorem F.vmul (v0 v1 v2 : VReg) (v3 : MReg) : F.Statement (.vmul v0 v1 v2 v3) := by
  intro w h; cases h; rw [fOp_packV]; decide
theorem F.vmulh (v0 v1 v2 : VReg) (v3 : MReg) : F.Statement (.vmulh v0 v1 v2 v3) := by
  intro w h; cases h; rw [fOp_packV]; decide
theorem F.vand (v0 v1 v2 : VReg) (v3 : MReg) : F.Statement (.vand v0 v1 v2 v3) := by
  intro w h; cases h; rw [fOp_packV]; decide
theorem F.vor (v0 v1 v2 : VReg) (v3 : MReg) : F.Statement (.vor v0 v1 v2 v3) := by
  intro w h; cases h; rw [fOp_packV]; decide
theorem F.vxor (v0 v1 v2 : VReg) (v3 : MReg) : F.Statement (.vxor v0 v1 v2 v3) := by
  intro w h; cases h; rw [fOp_packV]; decide
theorem F.vsll (v0 v1 v2 : VReg) (v3 : MReg) : F.Statement (.vsll v0 v1 v2 v3) := by
  intro w h; cases h; rw [fOp_packV]; decide
theorem F.vsrl (v0 v1 v2 : VReg) (v3 : MReg) : F.Statement (.vsrl v0 v1 v2 v3) := by
  intro w h; cases h; rw [fOp_packV]; decide
theorem F.vsra (v0 v1 v2 : VReg) (v3 : MReg) : F.Statement (.vsra v0 v1 v2 v3) := by
  intro w h; cases h; rw [fOp_packV]; decide
theorem F.vmin (v0 v1 v2 : VReg) (v3 : MReg) : F.Statement (.vmin v0 v1 v2 v3) := by
  intro w h; cases h; rw [fOp_packV]; decide
theorem F.vmax (v0 v1 v2 : VReg) (v3 : MReg) : F.Statement (.vmax v0 v1 v2 v3) := by
  intro w h; cases h; rw [fOp_packV]; decide
theorem F.vminu (v0 v1 v2 : VReg) (v3 : MReg) : F.Statement (.vminu v0 v1 v2 v3) := by
  intro w h; cases h; rw [fOp_packV]; decide
theorem F.vmaxu (v0 v1 v2 : VReg) (v3 : MReg) : F.Statement (.vmaxu v0 v1 v2 v3) := by
  intro w h; cases h; rw [fOp_packV]; decide
theorem F.vcmpeq (v0 : MReg) (v1 v2 : VReg) (v3 : MReg) : F.Statement (.vcmpeq v0 v1 v2 v3) := by
  intro w h; cases h; rw [fOp_packV]; decide
theorem F.vcmplt (v0 : MReg) (v1 v2 : VReg) (v3 : MReg) : F.Statement (.vcmplt v0 v1 v2 v3) := by
  intro w h; cases h; rw [fOp_packV]; decide
theorem F.vcmpltu (v0 : MReg) (v1 v2 : VReg) (v3 : MReg) : F.Statement (.vcmpltu v0 v1 v2 v3) := by
  intro w h; cases h; rw [fOp_packV]; decide
theorem F.vabs (v0 v1 : VReg) (v2 : MReg) : F.Statement (.vabs v0 v1 v2) := by
  intro w h; cases h; rw [fOp_packV]; decide
theorem F.vfadd (v0 v1 v2 : VReg) (v3 : MReg) : F.Statement (.vfadd v0 v1 v2 v3) := by
  intro w h; cases h; rw [fOp_packV]; decide
theorem F.vfsub (v0 v1 v2 : VReg) (v3 : MReg) : F.Statement (.vfsub v0 v1 v2 v3) := by
  intro w h; cases h; rw [fOp_packV]; decide
theorem F.vfmul (v0 v1 v2 : VReg) (v3 : MReg) : F.Statement (.vfmul v0 v1 v2 v3) := by
  intro w h; cases h; rw [fOp_packV]; decide
theorem F.vffma (v0 v1 v2 : VReg) (v3 : MReg) : F.Statement (.vffma v0 v1 v2 v3) := by
  intro w h; cases h; rw [fOp_packV]; decide
theorem F.vfmin (v0 v1 v2 : VReg) (v3 : MReg) : F.Statement (.vfmin v0 v1 v2 v3) := by
  intro w h; cases h; rw [fOp_packV]; decide
theorem F.vfmax (v0 v1 v2 : VReg) (v3 : MReg) : F.Statement (.vfmax v0 v1 v2 v3) := by
  intro w h; cases h; rw [fOp_packV]; decide
theorem F.vfdiv (v0 v1 v2 : VReg) (v3 : MReg) : F.Statement (.vfdiv v0 v1 v2 v3) := by
  intro w h; cases h; rw [fOp_packV]; decide
theorem F.vfsqrt (v0 v1 : VReg) (v2 : MReg) : F.Statement (.vfsqrt v0 v1 v2) := by
  intro w h; cases h; rw [fOp_packV]; decide
theorem F.vfrcp (v0 v1 : VReg) (v2 : MReg) : F.Statement (.vfrcp v0 v1 v2) := by
  intro w h; cases h; rw [fOp_packV]; decide
theorem F.vfrsq (v0 v1 : VReg) (v2 : MReg) : F.Statement (.vfrsq v0 v1 v2) := by
  intro w h; cases h; rw [fOp_packV]; decide
theorem F.vfexp2 (v0 v1 : VReg) (v2 : MReg) : F.Statement (.vfexp2 v0 v1 v2) := by
  intro w h; cases h; rw [fOp_packV]; decide
theorem F.vflog2 (v0 v1 : VReg) (v2 : MReg) : F.Statement (.vflog2 v0 v1 v2) := by
  intro w h; cases h; rw [fOp_packV]; decide
theorem F.vfcmp (v0 v1 v2 : VReg) (v3 : MReg) : F.Statement (.vfcmp v0 v1 v2 v3) := by
  intro w h; cases h; rw [fOp_packV]; decide
theorem F.vcvt (v0 v1 : VReg) (v2 : BitVec 5) (v3 : MReg) : F.Statement (.vcvt v0 v1 v2 v3) := by
  intro w h; cases h; rw [fOp_packV]; decide
theorem F.vred (v0 v1 : VReg) (v2 : BitVec 5) (v3 : MReg) : F.Statement (.vred v0 v1 v2 v3) := by
  intro w h; cases h; rw [fOp_packV]; decide
theorem F.vdot2 (v0 v1 v2 : VReg) (v3 : MReg) : F.Statement (.vdot2 v0 v1 v2 v3) := by
  intro w h; cases h; rw [fOp_packV]; decide
theorem F.vld (v0 : VReg) (v1 : Reg) (v2 : MReg) : F.Statement (.vld v0 v1 v2) := by
  intro w h; cases h; rw [fOp_packV]; decide
theorem F.vst (v0 : VReg) (v1 : Reg) (v2 : MReg) : F.Statement (.vst v0 v1 v2) := by
  intro w h; cases h; rw [fOp_packV]; decide
theorem F.vlds (v0 : VReg) (v1 v2 : Reg) (v3 : MReg) : F.Statement (.vlds v0 v1 v2 v3) := by
  intro w h; cases h; rw [fOp_packV]; decide
theorem F.vsts (v0 : VReg) (v1 v2 : Reg) (v3 : MReg) : F.Statement (.vsts v0 v1 v2 v3) := by
  intro w h; cases h; rw [fOp_packV]; decide
theorem F.vgath (v0 v1 : VReg) (v2 : Reg) (v3 : MReg) : F.Statement (.vgath v0 v1 v2 v3) := by
  intro w h; cases h; rw [fOp_packV]; decide
theorem F.vscat (v0 v1 : VReg) (v2 : Reg) (v3 : MReg) : F.Statement (.vscat v0 v1 v2 v3) := by
  intro w h; cases h; rw [fOp_packV]; decide
theorem F.vldf (v0 : VReg) (v1 : Reg) (v2 : MReg) : F.Statement (.vldf v0 v1 v2) := by
  intro w h; cases h; rw [fOp_packV]; decide
theorem F.vmovgToMask (v0 : MReg) (v1 : Reg) : F.Statement (.vmovgToMask v0 v1) := by
  intro w h; cases h; rw [fOp_packV]; decide
theorem F.vmovgFromMask (v0 : Reg) (v1 : MReg) : F.Statement (.vmovgFromMask v0 v1) := by
  intro w h; cases h; rw [fOp_packV]; decide
theorem F.vmovv (v0 v1 : VReg) (v2 : MReg) : F.Statement (.vmovv v0 v1 v2) := by
  intro w h; cases h; rw [fOp_packV]; decide
theorem F.vbcast (v0 : VReg) (v1 : Reg) (v2 : MReg) : F.Statement (.vbcast v0 v1 v2) := by
  intro w h; cases h; rw [fOp_packV]; decide
theorem F.vext (v0 : Reg) (v1 : VReg) (v2 : Reg) : F.Statement (.vext v0 v1 v2) := by
  intro w h; cases h; rw [fOp_packV]; decide
theorem F.vins (v0 : VReg) (v1 : BitVec 4) (v2 : Reg) : F.Statement (.vins v0 v1 v2) := by
  intro w h; cases h; rw [fOp_packV]; decide
theorem F.vsel (v0 v1 v2 : VReg) (v3 : MReg) : F.Statement (.vsel v0 v1 v2 v3) := by
  intro w h; cases h; rw [fOp_packV]; decide
theorem F.vshuf (v0 v1 v2 : VReg) (v3 : MReg) : F.Statement (.vshuf v0 v1 v2 v3) := by
  intro w h; cases h; rw [fOp_packV]; decide
theorem F.viadd (v0 : BitVec 5) (v1 : Reg) : F.Statement (.viadd v0 v1) := by
  intro w h; cases h; rw [fOp_packV]; decide
theorem F.mand (v0 v1 v2 : MReg) : F.Statement (.mand v0 v1 v2) := by
  intro w h; cases h; rw [fOp_packV]; decide
theorem F.mor (v0 v1 v2 : MReg) : F.Statement (.mor v0 v1 v2) := by
  intro w h; cases h; rw [fOp_packV]; decide
theorem F.mnot (v0 v1 : MReg) : F.Statement (.mnot v0 v1) := by
  intro w h; cases h; rw [fOp_packV]; decide
theorem F.mpop (v0 : Reg) (v1 : MReg) : F.Statement (.mpop v0 v1) := by
  intro w h; cases h; rw [fOp_packV]; decide
theorem F.ecfg (v0 : BitVec 6) (v1 : Reg) (v2 : Bool) : F.Statement (.ecfg v0 v1 v2) := by
  intro w h; cases h; rw [fOp_packRR]; decide
theorem F.eread (v0 : Reg) (v1 : BitVec 6) : F.Statement (.eread v0 v1) := by
  intro w h; cases h; rw [fOp_packRR]; decide
theorem F.fldset (v0 : BitVec 4) (v1 : Reg) (v2 : BitVec 3) (v3 : Bool) : F.Statement (.fldset v0 v1 v2 v3) := by
  intro w h; cases h; rw [fOp_packRR]; decide
theorem F.fldget (v0 : Reg) (v1 : BitVec 4) (v2 : BitVec 3) : F.Statement (.fldget v0 v1 v2) := by
  intro w h; cases h; rw [fOp_packRR]; decide
theorem F.mma (v0 v1 : Reg) (v2 : Bool) : F.Statement (.mma v0 v1 v2) := by
  intro w h; cases h; rw [fOp_packRR]; decide
theorem F.apply (v0 v1 : Reg) (v2 : Bool) : F.Statement (.apply v0 v1 v2) := by
  intro w h; cases h; rw [fOp_packRR]; decide
theorem F.diag (v0 v1 : Reg) (v2 : Bool) : F.Statement (.diag v0 v1 v2) := by
  intro w h; cases h; rw [fOp_packRR]; decide
theorem F.perm (v0 : BitVec 4) (v1 : Reg) (v2 : Bool) : F.Statement (.perm v0 v1 v2) := by
  intro w h; cases h; rw [fOp_packRR]; decide
theorem F.matl (v0 v1 : Reg) (v2 : Bool) : F.Statement (.matl v0 v1 v2) := by
  intro w h; cases h; rw [fOp_packRR]; decide
theorem F.accld (v0 v1 : Reg) (v2 : Bool) : F.Statement (.accld v0 v1 v2) := by
  intro w h; cases h; rw [fOp_packRR]; decide
theorem F.accst (v0 v1 : Reg) (v2 : Bool) : F.Statement (.accst v0 v1 v2) := by
  intro w h; cases h; rw [fOp_packRR]; decide
theorem F.accz (v0 v1 : Reg) (v2 : Bool) : F.Statement (.accz v0 v1 v2) := by
  intro w h; cases h; rw [fOp_packRR]; decide
theorem F.estat (v0 v1 : Reg) (v2 : Bool) : F.Statement (.estat v0 v1 v2) := by
  intro w h; cases h; rw [fOp_packRR]; decide
theorem F.ctload (v0 v1 v2 : Reg) (v3 v4 : Bool) : F.Statement (.ctload v0 v1 v2 v3 v4) := by
  intro w h; cases h; rw [fOp_packRR]; decide
theorem F.ctswap (v0 : Reg) : F.Statement (.ctswap v0) := by
  intro w h; cases h; rw [fOp_packRR]; decide
theorem F.eresume (v0 v1 v2 : Reg) (v3 v4 : Bool) : F.Statement (.eresume v0 v1 v2 v3 v4) := by
  intro w h; cases h; rw [fOp_packRR]; decide
theorem F.abandon (v0 v1 v2 : Reg) (v3 v4 : Bool) : F.Statement (.abandon v0 v1 v2 v3 v4) := by
  intro w h; cases h; rw [fOp_packRR]; decide
theorem F.lcopy (v0 v1 v2 : Reg) (v3 v4 : Bool) : F.Statement (.lcopy v0 v1 v2 v3 v4) := by
  intro w h; cases h; rw [fOp_packRR]; decide
theorem F.pcopy (v0 v1 v2 : Reg) (v3 v4 : Bool) : F.Statement (.pcopy v0 v1 v2 v3 v4) := by
  intro w h; cases h; rw [fOp_packRR]; decide
theorem F.pfill (v0 v1 v2 : Reg) (v3 v4 : Bool) : F.Statement (.pfill v0 v1 v2 v3 v4) := by
  intro w h; cases h; rw [fOp_packRR]; decide
theorem F.ptag (v0 v1 v2 : Reg) (v3 v4 : Bool) : F.Statement (.ptag v0 v1 v2 v3 v4) := by
  intro w h; cases h; rw [fOp_packRR]; decide
theorem F.premap (v0 v1 v2 : Reg) (v3 v4 : Bool) : F.Statement (.premap v0 v1 v2 v3 v4) := by
  intro w h; cases h; rw [fOp_packRR]; decide
theorem F.pscrub (v0 v1 v2 : Reg) (v3 v4 : Bool) : F.Statement (.pscrub v0 v1 v2 v3 v4) := by
  intro w h; cases h; rw [fOp_packRR]; decide
theorem F.pcoll (v0 v1 v2 : Reg) (v3 v4 : Bool) : F.Statement (.pcoll v0 v1 v2 v3 v4) := by
  intro w h; cases h; rw [fOp_packRR]; decide
theorem F.pslotLoadEntries (v0 v1 v2 : Reg) (v3 v4 : Bool) : F.Statement (.pslotLoadEntries v0 v1 v2 v3 v4) := by
  intro w h; cases h; rw [fOp_packRR]; decide
theorem F.pslotStoreEntries (v0 v1 v2 : Reg) (v3 v4 : Bool) : F.Statement (.pslotStoreEntries v0 v1 v2 v3 v4) := by
  intro w h; cases h; rw [fOp_packRR]; decide
theorem F.pslotLoadControl (v0 v1 v2 : Reg) (v3 v4 : Bool) : F.Statement (.pslotLoadControl v0 v1 v2 v3 v4) := by
  intro w h; cases h; rw [fOp_packRR]; decide
theorem F.pslotStatus (v0 v1 v2 : Reg) (v3 v4 : Bool) : F.Statement (.pslotStatus v0 v1 v2 v3 v4) := by
  intro w h; cases h; rw [fOp_packRR]; decide
theorem F.pq (v0 v1 : Reg) (v2 : Bool) : F.Statement (.pq v0 v1 v2) := by
  intro w h; cases h; rw [fOp_packRR]; decide
theorem F.brwld (v0 v1 v2 : Reg) (v3 v4 : Bool) : F.Statement (.brwld v0 v1 v2 v3 v4) := by
  intro w h; cases h; rw [fOp_packRR]; decide
theorem F.brwarm (v0 v1 v2 : Reg) (v3 v4 : Bool) : F.Statement (.brwarm v0 v1 v2 v3 v4) := by
  intro w h; cases h; rw [fOp_packRR]; decide
theorem F.disarm (v0 v1 v2 : Reg) (v3 v4 : Bool) : F.Statement (.disarm v0 v1 v2 v3 v4) := by
  intro w h; cases h; rw [fOp_packRR]; decide
theorem F.brwpost (v0 v1 v2 : Reg) (v3 v4 : Bool) : F.Statement (.brwpost v0 v1 v2 v3 v4) := by
  intro w h; cases h; rw [fOp_packRR]; decide
theorem F.brwfree (v0 v1 : Reg) (v2 : Bool) : F.Statement (.brwfree v0 v1 v2) := by
  intro w h; cases h; rw [fOp_packRR]; decide
theorem F.brwq (v0 v1 : Reg) (v2 : Bool) : F.Statement (.brwq v0 v1 v2) := by
  intro w h; cases h; rw [fOp_packRR]; decide
theorem F.csrr (v0 : Reg) (v1 : BitVec 12) : F.Statement (.csrr v0 v1) := by
  intro w h; cases h; rw [fOp_packSY]; decide
theorem F.csrw (v0 v1 : Reg) (v2 : BitVec 12) : F.Statement (.csrw v0 v1 v2) := by
  intro w h; cases h; rw [fOp_packSY]; decide
theorem F.csrs (v0 v1 : Reg) (v2 : BitVec 12) : F.Statement (.csrs v0 v1 v2) := by
  intro w h; cases h; rw [fOp_packSY]; decide
theorem F.csrc (v0 v1 : Reg) (v2 : BitVec 12) : F.Statement (.csrc v0 v1 v2) := by
  intro w h; cases h; rw [fOp_packSY]; decide
theorem F.trap (v0 v1 : Reg) (v2 : BitVec 11) : F.Statement (.trap v0 v1 v2) := by
  intro w h; cases h; rw [fOp_packSY]; decide
theorem F.brkpt (v0 : BitVec 11) : F.Statement (.brkpt v0) := by
  intro w h; cases h; rw [fOp_packSY]; decide
theorem F.eret : F.Statement .eret := by
  intro w h; cases h; rw [fOp_packSY]; decide
theorem F.upret : F.Statement .upret := by
  intro w h; cases h; rw [fOp_packSY]; decide
theorem F.wfe (v0 v1 : Reg) : F.Statement (.wfe v0 v1) := by
  intro w h; cases h; rw [fOp_packSY]; decide
theorem F.routld (v0 v1 : Reg) (v2 : BitVec 8) : F.Statement (.routld v0 v1 v2) := by
  intro w h; cases h; rw [fOp_packSY]; decide
theorem F.fadd (v0 v1 v2 : Reg) (v3 v4 : Bool) : F.Statement (.fadd v0 v1 v2 v3 v4) := by
  intro w h; cases h; rw [fOp_packRR]; decide
theorem F.fsub (v0 v1 v2 : Reg) (v3 v4 : Bool) : F.Statement (.fsub v0 v1 v2 v3 v4) := by
  intro w h; cases h; rw [fOp_packRR]; decide
theorem F.fmul (v0 v1 v2 : Reg) (v3 v4 : Bool) : F.Statement (.fmul v0 v1 v2 v3 v4) := by
  intro w h; cases h; rw [fOp_packRR]; decide
theorem F.ffma (v0 v1 v2 : Reg) (v3 v4 : Bool) : F.Statement (.ffma v0 v1 v2 v3 v4) := by
  intro w h; cases h; rw [fOp_packRR]; decide
theorem F.fdiv (v0 v1 v2 : Reg) (v3 v4 : Bool) : F.Statement (.fdiv v0 v1 v2 v3 v4) := by
  intro w h; cases h; rw [fOp_packRR]; decide
theorem F.fsqrt (v0 v1 : Reg) (v2 : Bool) : F.Statement (.fsqrt v0 v1 v2) := by
  intro w h; cases h; rw [fOp_packRR]; decide
theorem F.fmin (v0 v1 v2 : Reg) (v3 v4 : Bool) : F.Statement (.fmin v0 v1 v2 v3 v4) := by
  intro w h; cases h; rw [fOp_packRR]; decide
theorem F.fmax (v0 v1 v2 : Reg) (v3 v4 : Bool) : F.Statement (.fmax v0 v1 v2 v3 v4) := by
  intro w h; cases h; rw [fOp_packRR]; decide
theorem F.fcmp (v0 v1 v2 : Reg) (v3 v4 : Bool) : F.Statement (.fcmp v0 v1 v2 v3 v4) := by
  intro w h; cases h; rw [fOp_packRR]; decide
theorem F.fcvt (v0 v1 v2 : Reg) (v3 v4 : Bool) : F.Statement (.fcvt v0 v1 v2 v3 v4) := by
  intro w h; cases h; rw [fOp_packRR]; decide
theorem F.fclass (v0 v1 : Reg) (v2 : Bool) : F.Statement (.fclass v0 v1 v2) := by
  intro w h; cases h; rw [fOp_packRR]; decide
theorem F.addp (v0 v1 v2 : Reg) (v3 v4 : Bool) : F.Statement (.addp v0 v1 v2 v3 v4) := by
  intro w h; cases h; rw [fOp_packRR]; decide
theorem F.pfmt (v0 v1 v2 : Reg) (v3 v4 : Bool) : F.Statement (.pfmt v0 v1 v2 v3 v4) := by
  intro w h; cases h; rw [fOp_packRR]; decide
theorem F.pidx (v0 v1 v2 : Reg) (v3 v4 : Bool) : F.Statement (.pidx v0 v1 v2 v3 v4) := by
  intro w h; cases h; rw [fOp_packRR]; decide
theorem F.pdiff (v0 v1 v2 : Reg) (v3 v4 : Bool) : F.Statement (.pdiff v0 v1 v2 v3 v4) := by
  intro w h; cases h; rw [fOp_packRR]; decide
theorem F.pstrip (v0 v1 : Reg) (v2 : Bool) : F.Statement (.pstrip v0 v1 v2) := by
  intro w h; cases h; rw [fOp_packRR]; decide
theorem F.illop (v0 : BitVec 32) : F.Statement (.illop v0) := by
  intro w h; cases h
theorem F.issueRetry (v0 : SlotId) : F.Statement (.issueRetry v0) := by
  intro w h; cases h
theorem F.upcall (v0 : SlotId) : F.Statement (.upcall v0) := by
  intro w h; cases h
theorem F.producerLands (v0 : SlotId) (v1 : Nat) : F.Statement (.producerLands v0 v1) := by
  intro w h; cases h
theorem F.requestComplete (v0 : SlotId) (v1 : Nat) : F.Statement (.requestComplete v0 v1) := by
  intro w h; cases h
theorem F.parkedAccess (v0 : SlotId) (v1 : Nat) : F.Statement (.parkedAccess v0 v1) := by
  intro w h; cases h
theorem F.deferredUpcall (v0 : SlotId) : F.Statement (.deferredUpcall v0) := by
  intro w h; cases h
theorem F.engfault (v0 : SlotId) : F.Statement (.engfault v0) := by
  intro w h; cases h
theorem F.wfeTimeout (v0 : SlotId) : F.Statement (.wfeTimeout v0) := by
  intro w h; cases h
theorem F.tagServe (v0 : Nat) : F.Statement (.tagServe v0) := by
  intro w h; cases h
theorem F.activeMessageArrival (v0 : Option Nat) (v1 v2 : Nat) : F.Statement (.activeMessageArrival v0 v1 v2) := by
  intro w h; cases h
theorem F.counterMessage (v0 : Option Nat) (v1 : Nat) : F.Statement (.counterMessage v0 v1) := by
  intro w h; cases h
theorem F.outboundRetry (v0 v1 : Nat) : F.Statement (.outboundRetry v0 v1) := by
  intro w h; cases h
theorem F.startActiveMessage (v0 : SlotId) (v1 : BitVec 5) : F.Statement (.startActiveMessage v0 v1) := by
  intro w h; cases h
theorem F.startCounterFiring (v0 : SlotId) (v1 : BitVec 5) : F.Statement (.startCounterFiring v0 v1) := by
  intro w h; cases h
theorem F.taskPop (v0 : SlotId) : F.Statement (.taskPop v0) := by
  intro w h; cases h
theorem F.taskSteal (v0 : SlotId) : F.Statement (.taskSteal v0) := by
  intro w h; cases h
theorem F.jobStart (v0 v1 : Nat) (v2 : BitVec 16) : F.Statement (.jobStart v0 v1 v2) := by
  intro w h; cases h
theorem F.jobProgress (v0 v1 : Nat) (v2 : BitVec 16) : F.Statement (.jobProgress v0 v1 v2) := by
  intro w h; cases h
theorem F.jobComplete (v0 v1 : Nat) (v2 : BitVec 16) : F.Statement (.jobComplete v0 v1 v2) := by
  intro w h; cases h
theorem F.jobStop (v0 v1 : Nat) (v2 : BitVec 16) (v3 : BitVec 8) : F.Statement (.jobStop v0 v1 v2 v3) := by
  intro w h; cases h
theorem F.remapStart (v0 v1 : Nat) (v2 : BitVec 16) : F.Statement (.remapStart v0 v1 v2) := by
  intro w h; cases h
theorem F.remapComplete (v0 v1 : Nat) (v2 : BitVec 16) : F.Statement (.remapComplete v0 v1 v2) := by
  intro w h; cases h
theorem F.routineCall (v0 : SlotId) (v1 : Nat) : F.Statement (.routineCall v0 v1) := by
  intro w h; cases h
theorem F.chainStep (v0 : SlotId) (v1 : Nat) : F.Statement (.chainStep v0 v1) := by
  intro w h; cases h
theorem F.tagPass (v0 : Nat) : F.Statement (.tagPass v0) := by
  intro w h; cases h
theorem F.rowStep (v0 : Nat) : F.Statement (.rowStep v0) := by
  intro w h; cases h
theorem F.rowBoundaryYield (v0 : Nat) : F.Statement (.rowBoundaryYield v0) := by
  intro w h; cases h
theorem F.heldRowRefresh (v0 v1 : Nat) : F.Statement (.heldRowRefresh v0 v1) := by
  intro w h; cases h
theorem F.chbaseWrite (v0 : Word) : F.Statement (.chbaseWrite v0) := by
  intro w h; cases h
theorem F.vallocWrite (v0 : Word) : F.Statement (.vallocWrite v0) := by
  intro w h; cases h
theorem F.create (v0 : Nat) : F.Statement (.create v0) := by
  intro w h; cases h
theorem F.resume (v0 : Nat) : F.Statement (.resume v0) := by
  intro w h; cases h
theorem F.preempt (v0 : Nat) : F.Statement (.preempt v0) := by
  intro w h; cases h
theorem F.destroy (v0 : Nat) : F.Statement (.destroy v0) := by
  intro w h; cases h
theorem F.slotHalt (v0 : SlotId) : F.Statement (.slotHalt v0) := by
  intro w h; cases h
theorem F.saveComplete (v0 : Nat) : F.Statement (.saveComplete v0) := by
  intro w h; cases h
theorem F.faultRecord (v0 : Nat) (v1 : FaultRec) : F.Statement (.faultRecord v0 v1) := by
  intro w h; cases h
theorem F.interrupt (v0 : SlotId) : F.Statement (.interrupt v0) := by
  intro w h; cases h
theorem F.xinv (v0 : Word) : F.Statement (.xinv v0) := by
  intro w h; cases h
theorem F.grantLoad (v0 : BitVec 8) : F.Statement (.grantLoad v0) := by
  intro w h; cases h
theorem F.recall (v0 : BitVec 8) : F.Statement (.recall v0) := by
  intro w h; cases h
theorem F.doorbell (v0 v1 : Nat) (v2 : Word) : F.Statement (.doorbell v0 v1 v2) := by
  intro w h; cases h
theorem F.devnum (v0 : Word) : F.Statement (.devnum v0) := by
  intro w h; cases h
theorem F.hoststat : F.Statement .hoststat := by
  intro w h; cases h
theorem F.hostRegisterWrite (v0 : Nat) (v1 : Word) : F.Statement (.hostRegisterWrite v0 v1) := by
  intro w h; cases h
theorem F.hostMemoryWrite (v0 : Nat) (v1 : List Byte) : F.Statement (.hostMemoryWrite v0 v1) := by
  intro w h; cases h
theorem F.unsupportedRequest : F.Statement .unsupportedRequest := by
  intro w h; cases h
theorem F.descriptorTake (v0 v1 : Nat) : F.Statement (.descriptorTake v0 v1) := by
  intro w h; cases h
theorem F.dependenceMet (v0 : Nat) : F.Statement (.dependenceMet v0) := by
  intro w h; cases h
theorem F.groupPlace (v0 : Nat) : F.Statement (.groupPlace v0) := by
  intro w h; cases h
theorem F.groupExit (v0 v1 : Nat) : F.Statement (.groupExit v0 v1) := by
  intro w h; cases h
theorem F.brewEvaluate : F.Statement .brewEvaluate := by
  intro w h; cases h
theorem F.brwpostArrival (v0 : Nat) : F.Statement (.brwpostArrival v0) := by
  intro w h; cases h
theorem F.routerCycle (v0 : Nat) (v1 : List Nat) (v2 : List (Nat × Nat)) : F.Statement (.routerCycle v0 v1 v2) := by
  intro w h; cases h
theorem F.kdpPacket (v0 : Nat) (v1 v2 : Word) : F.Statement (.kdpPacket v0 v1 v2) := by
  intro w h; cases h
theorem F.slotBoundary : F.Statement .slotBoundary := by
  intro w h; cases h
theorem F.rotationBoundary : F.Statement .rotationBoundary := by
  intro w h; cases h
theorem F.windowSend (v0 v1 : Nat) (v2 : Bool) : F.Statement (.windowSend v0 v1 v2) := by
  intro w h; cases h
theorem F.frameReceive (v0 : Nat) (v1 : Bool) (v2 : Frame) : F.Statement (.frameReceive v0 v1 v2) := by
  intro w h; cases h
theorem F.pull (v0 : Nat × Bool) : F.Statement (.pull v0) := by
  intro w h; cases h
theorem F.peerAccess (v0 : Frame) : F.Statement (.peerAccess v0) := by
  intro w h; cases h
theorem F.peerMessage (v0 : Nat) (v1 : Msg) : F.Statement (.peerMessage v0 v1) := by
  intro w h; cases h
theorem F.blockApply (v0 : Frame) : F.Statement (.blockApply v0) := by
  intro w h; cases h
theorem F.acknowledgement (v0 : SlotId) (v1 : Nat × Nat) (v2 v3 : Nat) (v4 : List Byte) : F.Statement (.acknowledgement v0 v1 v2 v3 v4) := by
  intro w h; cases h
theorem F.remoteTimeLimit (v0 : SlotId) (v1 : Nat) : F.Statement (.remoteTimeLimit v0 v1) := by
  intro w h; cases h
theorem F.linkDown (v0 : Nat) : F.Statement (.linkDown v0) := by
  intro w h; cases h
theorem F.rollback (v0 : SlotId) : F.Statement (.rollback v0) := by
  intro w h; cases h
theorem F.correctedError (v0 : RUnit) : F.Statement (.correctedError v0) := by
  intro w h; cases h
theorem F.uncorrectableError (v0 : RUnit) (v1 : Option Nat) : F.Statement (.uncorrectableError v0 v1) := by
  intro w h; cases h
theorem F.spareReplacement (v0 : RUnit) : F.Statement (.spareReplacement v0) := by
  intro w h; cases h
theorem F.dieRenumbering (v0 : Nat) : F.Statement (.dieRenumbering v0) := by
  intro w h; cases h
theorem F.linkReroute (v0 : Nat) : F.Statement (.linkReroute v0) := by
  intro w h; cases h
theorem F.alignmentExchange (v0 v1 v2 v3 : Int) (v4 : BitVec 32) : F.Statement (.alignmentExchange v0 v1 v2 v3 v4) := by
  intro w h; cases h
theorem F.alignmentLost : F.Statement .alignmentLost := by
  intro w h; cases h
theorem F.powerGood : F.Statement .powerGood := by
  intro w h; cases h
theorem F.bootPhase (v0 : Bool) (v1 : BitVec 8) (v2 : Word) : F.Statement (.bootPhase v0 v1 v2) := by
  intro w h; cases h
theorem F.pwrlimClockStep (v0 : BitVec 16 × BitVec 16) : F.Statement (.pwrlimClockStep v0) := by
  intro w h; cases h

end Sys2Proof.Laws
end

