-- ==== Sys2Proof/Tests/Slice0.lean ====
section
/-!
SUPPORT. The model's own tests: ill-formed terms that the checks refuse, words laid out from the encodings of the spec, worked examples
of the spec, and for every statement states and operands that meet its hypotheses.
-/

namespace Sys2Proof.Tests

open Sys2Proof Sys2Proof.Machine Sys2Proof.Claims

/-! ## Ill-formed terms -/

theorem wf_relative_field : (Instr.vadd ⟨true, 8⟩ ⟨false, 0⟩ ⟨false, 0⟩ 0).defect = some .relativeField := by decide
theorem wf_size_code : (Instr.ld 1 2 false 7 0).defect = some .sizeCode ∧ (Instr.st 1 2 false 4 0).defect = some .sizeCode := by decide
theorem wf_scope_code : (Instr.fencesc 6).defect = some .scopeCode := by decide
theorem wf_reduce_op : (Instr.vred ⟨false, 1⟩ ⟨false, 2⟩ 6 0).defect = some .reduceOp := by decide
theorem wf_convert_code : (Instr.vcvt ⟨false, 1⟩ ⟨false, 2⟩ 26 0).defect = some .convertCode := by decide
theorem wf_convert_mask : (Instr.vcvt ⟨false, 1⟩ ⟨false, 2⟩ 20 1).defect = some .convertMask := by decide

/-! ## Words -/

/-- Every word of the list decodes to the instruction beside it, and that instruction is well-formed. -/
abbrev Decodes (l : List (Word32 × Instr)) : Prop := ∀ p ∈ l, decode p.1 = .ok p.2 ∧ p.2.wf = true

/-- The words of the alu family, laid out from the encodings of R24 to R33, each field at a value of its own. -/
theorem decode_alu : Decodes [
    (0b000001_01001_10110_01101_1_0_000000000, .add 9 22 13 true false),
    (0b000001_01001_10110_01101_1_0_000000001, .sub 9 22 13 true false),
    (0b000001_01001_10110_01101_1_0_000000010, .and 9 22 13 true false),
    (0b000001_01001_10110_01101_1_0_000000011, .or 9 22 13 true false),
    (0b000001_01001_10110_01101_1_0_000000100, .xor 9 22 13 true false),
    (0b000001_01001_10110_01101_1_0_000000101, .andn 9 22 13 true false),
    (0b000001_01001_10110_01101_1_0_000000110, .sll 9 22 13 true false),
    (0b000001_01001_10110_01101_1_0_000000111, .srl 9 22 13 true false),
    (0b000001_01001_10110_01101_1_0_000001000, .sra 9 22 13 true false),
    (0b000001_01001_10110_01101_1_0_000001001, .rol 9 22 13 true false),
    (0b000001_01001_10110_01101_1_0_000001010, .slt 9 22 13 true false),
    (0b000001_01001_10110_01101_1_0_000001011, .sltu 9 22 13 true false),
    (0b000001_01001_10110_01101_1_0_000001100, .min 9 22 13 true false),
    (0b000001_01001_10110_01101_1_0_000001101, .max 9 22 13 true false),
    (0b000001_01001_10110_01101_1_0_000001110, .minu 9 22 13 true false),
    (0b000001_01001_10110_01101_1_0_000001111, .maxu 9 22 13 true false),
    (0b000001_01001_10110_01101_1_0_000010000, .mul 9 22 13 true false),
    (0b000001_01001_10110_01101_1_0_000010001, .mulh 9 22 13 true false),
    (0b000001_01001_10110_01101_1_0_000010010, .mulhu 9 22 13 true false),
    (0b000001_01001_10110_01101_1_0_000010011, .div 9 22 13 true false),
    (0b000001_01001_10110_01101_1_0_000010100, .divu 9 22 13 true false),
    (0b000001_01001_10110_01101_1_0_000010101, .rem 9 22 13 true false),
    (0b000001_01001_10110_01101_1_0_000010110, .remu 9 22 13 true false),
    (0b000001_01001_10110_00000_1_0000010111, .clz 9 22 true),
    (0b000001_01001_10110_00000_1_0000011000, .ctz 9 22 true),
    (0b000001_01001_10110_00000_1_0000011001, .popc 9 22 true),
    (0b000001_01001_10110_00000_1_0000011010, .sextb 9 22 true),
    (0b000001_01001_10110_00000_1_0000011011, .sexth 9 22 true),
    (0b000001_01001_10110_00000_1_0000011100, .sextw 9 22 true),
    (0b000001_01001_10110_00000_1_0000011101, .zextw 9 22 true),
    (0b000001_01001_10110_00000_1_0000011110, .bswap 9 22 true),
    (0b000001_01001_10110_01101_1_0_000011111, .selnz 9 22 13 true false)] := by decide

/-- The words of the immediate family, laid out from the encodings of R24 to R33, each field at a value of its own. -/
theorem decode_immediate : Decodes [
    (0b000010_01001_10110_1_100101100110101, .addi 9 22 true 19253),
    (0b000011_01001_10110_1_100101100110101, .andi 9 22 true 19253),
    (0b000100_01001_10110_1_100101100110101, .ori 9 22 true 19253),
    (0b000101_01001_10110_1_100101100110101, .xori 9 22 true 19253),
    (0b000110_01001_10110_1_100101100110101, .slti 9 22 true 19253),
    (0b000111_01001_10110_1_100101100110101, .sltiu 9 22 true 19253),
    (0b001001_01001_100101011001101010110, .lui 9 1225558),
    (0b001010_01001_100101011001101010110, .lih 9 1225558),
    (0b001011_01001_100101011001101010110, .addpc 9 1225558)] := by decide

/-- The words of the shift family, laid out from the encodings of R24 to R33, each field at a value of its own. -/
theorem decode_shift : Decodes [
    (0b001000_01001_10110_1_000000000_101100, .slli 9 22 true 44),
    (0b001000_01001_10110_1_001000000_101100, .srli 9 22 true 44),
    (0b001000_01001_10110_1_010000000_101100, .srai 9 22 true 44),
    (0b001000_01001_10110_1_011000000_101100, .roli 9 22 true 44)] := by decide

/-- The words of the memory family, laid out from the encodings of R24 to R33, each field at a value of its own. -/
theorem decode_memory : Decodes [
    (0b001100_01001_10110_1_110_101100110101, .ld 9 22 true 6 2869),
    (0b001101_01001_10110_1_110_101100110101, .ldn 9 22 true 6 2869),
    (0b001110_01001_10110_1_011_101100110101, .ldf 9 22 true 3 2869),
    (0b001111_01001_10110_1_011_101100110101, .ldfe 9 22 true 3 2869),
    (0b010000_10011_10110_1_011_101100110101, .st 19 22 true 3 2869),
    (0b010001_10011_10110_1_011_101100110101, .ste 19 22 true 3 2869),
    (0b010010_10011_10110_1_011_101100110101, .stf 19 22 true 3 2869)] := by decide

/-- The words of the amo family, laid out from the encodings of R24 to R33, each field at a value of its own. -/
theorem decode_amo : Decodes [
    (0b010011_01001_10110_01101_1_0_00000_101_1, .amoadd 9 22 13 true false 5 true),
    (0b010011_01001_10110_01101_1_0_00001_101_1, .amoand 9 22 13 true false 5 true),
    (0b010011_01001_10110_01101_1_0_00010_101_1, .amoor 9 22 13 true false 5 true),
    (0b010011_01001_10110_01101_1_0_00011_101_1, .amoxor 9 22 13 true false 5 true),
    (0b010011_01001_10110_01101_1_0_00100_101_1, .amomin 9 22 13 true false 5 true),
    (0b010011_01001_10110_01101_1_0_00101_101_1, .amomax 9 22 13 true false 5 true),
    (0b010011_01001_10110_01101_1_0_00110_101_1, .amominu 9 22 13 true false 5 true),
    (0b010011_01001_10110_01101_1_0_00111_101_1, .amomaxu 9 22 13 true false 5 true),
    (0b010011_01001_10110_01101_1_0_01000_101_1, .amoswap 9 22 13 true false 5 true),
    (0b010011_01001_10110_01101_1_0_01001_101_1, .amocas 9 22 13 true false 5 true),
    (0b010011_01001_10110_01101_1_0_01010_101_0, .amofadd 9 22 13 true false 5)] := by decide

/-- The words of the branch family, laid out from the encodings of R24 to R33, each field at a value of its own. -/
theorem decode_branch : Decodes [
    (0b010100_10110_01101_1_0_10101100110101, .beq 22 13 true false 11061),
    (0b010101_10110_01101_1_0_10101100110101, .bne 22 13 true false 11061),
    (0b010110_10110_01101_1_0_10101100110101, .blt 22 13 true false 11061),
    (0b010111_10110_01101_1_0_10101100110101, .bge 22 13 true false 11061),
    (0b011000_10110_01101_1_0_10101100110101, .bltu 22 13 true false 11061),
    (0b011001_10110_01101_1_0_10101100110101, .bgeu 22 13 true false 11061),
    (0b011010_01001_100101011001101010110, .jal 9 1225558),
    (0b011011_01001_10110_1_100101100110101, .jalr 9 22 true 19253)] := by decide

/-- The words of the message family, laid out from the encodings of R24 to R33, each field at a value of its own. -/
theorem decode_message : Decodes [
    (0b01110000000_10110_01101_1_0_000000000, .send 22 13 true false),
    (0b01110000000_10110_01101_1_0_000000001, .sendc 22 13 true false),
    (0b011100_01001_10110_01101_1_0_000000010, .sendb 9 22 13 true false),
    (0b01110000000000000000000000000011, .hret),
    (0b01110000000_10110_00000_1_0000000100, .hyield 22 true),
    (0b011100_01001_10110_01101_1_0_000000101, .chset 9 22 13 true false),
    (0b011100_01001_10110_01101_1_0_000000110, .chmask 9 22 13 true false),
    (0b011100_01001_10110_01101_1_0_000000111, .charm 9 22 13 true false)] := by decide

/-- The words of the task family, laid out from the encodings of R24 to R33, each field at a value of its own. -/
theorem decode_task : Decodes [
    (0b011101_01001_10110_01101_1_0_000000000, .fork 9 22 13 true false),
    (0b01110100000_10110_00000_1_0000000001, .taskend 22 true),
    (0b011101_01001_10110_01101_1_0_000000010, .rejoin 9 22 13 true false),
    (0b01110100000000000000000000000011, .trig),
    (0b011101_01001_10110_00000_1_0000000100, .joinch 9 22 true)] := by decide

/-- The words of the sync family, laid out from the encodings of R24 to R33, each field at a value of its own. -/
theorem decode_sync : Decodes [
    (0b0111100000000000_101_000_1_000000000, .fenceAcq 5 true),
    (0b0111100000000000_101_010_1_000000000, .fenceRel 5 true),
    (0b0111100000000000_101_100_1_000000000, .fenceFull 5 true),
    (0b0111100000000000_101_0000000000001, .fencesc 5),
    (0b011110_01001_000000000000000000010, .rbegin 9),
    (0b01111000000000000000000000000011, .rcommit),
    (0b01111000000_10110_00000_1_0000000100, .rabort 22 true),
    (0b0111100_1011_10110_00000_1_0000000101, .waitc 11 22 true)] := by decide

/-- The words of the memx family, laid out from the encodings of R24 to R33, each field at a value of its own. -/
theorem decode_memx : Decodes [
    (0b011111_01001_10110_01101_1_0_0_10100101, .ship 9 22 13 true false 165),
    (0b011111_01001_10110_01101_1_0_100000000, .chain 9 22 13 true false),
    (0b01111100000_10110_00000_1_0100000001, .rowopen 22 true),
    (0b011111_01001_10110_00000_1_0100000010, .rowhold 9 22 true),
    (0b01111100000_10110_00000_1_0100000011, .rowrel 22 true),
    (0b011111_01001_10110_00000_1_0100000100, .rowq 9 22 true),
    (0b011111_01001_10110_00000_1_0100000101, .nbprog 9 22 true),
    (0b011111_01001_10110_00000_1_0100000110, .nbstat 9 22 true)] := by decide

/-- The words of the valu family, laid out from the encodings of R24 to R33, each field at a value of its own. -/
theorem decode_valu : Decodes [
    (0b100000_00011_10110_00110_101_1_0_1_00000, .vadd ⟨true, 3⟩ ⟨false, 22⟩ ⟨true, 6⟩ 5),
    (0b100000_00011_10110_00110_101_1_0_1_00001, .vsub ⟨true, 3⟩ ⟨false, 22⟩ ⟨true, 6⟩ 5),
    (0b100000_00011_10110_00110_101_1_0_1_00010, .vmul ⟨true, 3⟩ ⟨false, 22⟩ ⟨true, 6⟩ 5),
    (0b100000_00011_10110_00110_101_1_0_1_00011, .vmulh ⟨true, 3⟩ ⟨false, 22⟩ ⟨true, 6⟩ 5),
    (0b100000_00011_10110_00110_101_1_0_1_00100, .vand ⟨true, 3⟩ ⟨false, 22⟩ ⟨true, 6⟩ 5),
    (0b100000_00011_10110_00110_101_1_0_1_00101, .vor ⟨true, 3⟩ ⟨false, 22⟩ ⟨true, 6⟩ 5),
    (0b100000_00011_10110_00110_101_1_0_1_00110, .vxor ⟨true, 3⟩ ⟨false, 22⟩ ⟨true, 6⟩ 5),
    (0b100000_00011_10110_00110_101_1_0_1_00111, .vsll ⟨true, 3⟩ ⟨false, 22⟩ ⟨true, 6⟩ 5),
    (0b100000_00011_10110_00110_101_1_0_1_01000, .vsrl ⟨true, 3⟩ ⟨false, 22⟩ ⟨true, 6⟩ 5),
    (0b100000_00011_10110_00110_101_1_0_1_01001, .vsra ⟨true, 3⟩ ⟨false, 22⟩ ⟨true, 6⟩ 5),
    (0b100000_00011_10110_00110_101_1_0_1_01010, .vmin ⟨true, 3⟩ ⟨false, 22⟩ ⟨true, 6⟩ 5),
    (0b100000_00011_10110_00110_101_1_0_1_01011, .vmax ⟨true, 3⟩ ⟨false, 22⟩ ⟨true, 6⟩ 5),
    (0b100000_00011_10110_00110_101_1_0_1_01100, .vminu ⟨true, 3⟩ ⟨false, 22⟩ ⟨true, 6⟩ 5),
    (0b100000_00011_10110_00110_101_1_0_1_01101, .vmaxu ⟨true, 3⟩ ⟨false, 22⟩ ⟨true, 6⟩ 5),
    (0b10000000_101_10110_00110_101_0_0_1_01110, .vcmpeq 5 ⟨false, 22⟩ ⟨true, 6⟩ 5),
    (0b10000000_101_10110_00110_101_0_0_1_01111, .vcmplt 5 ⟨false, 22⟩ ⟨true, 6⟩ 5),
    (0b10000000_101_10110_00110_101_0_0_1_10000, .vcmpltu 5 ⟨false, 22⟩ ⟨true, 6⟩ 5),
    (0b100000_00011_10110_00000_101_1_0_010001, .vabs ⟨true, 3⟩ ⟨false, 22⟩ 5)] := by decide

/-- The words of the vfp family, laid out from the encodings of R24 to R33, each field at a value of its own. -/
theorem decode_vfp : Decodes [
    (0b100001_00011_10110_00110_101_1_0_1_00000, .vfadd ⟨true, 3⟩ ⟨false, 22⟩ ⟨true, 6⟩ 5),
    (0b100001_00011_10110_00110_101_1_0_1_00001, .vfsub ⟨true, 3⟩ ⟨false, 22⟩ ⟨true, 6⟩ 5),
    (0b100001_00011_10110_00110_101_1_0_1_00010, .vfmul ⟨true, 3⟩ ⟨false, 22⟩ ⟨true, 6⟩ 5),
    (0b100001_00011_10110_00110_101_1_0_1_00011, .vffma ⟨true, 3⟩ ⟨false, 22⟩ ⟨true, 6⟩ 5),
    (0b100001_00011_10110_00110_101_1_0_1_00100, .vfmin ⟨true, 3⟩ ⟨false, 22⟩ ⟨true, 6⟩ 5),
    (0b100001_00011_10110_00110_101_1_0_1_00101, .vfmax ⟨true, 3⟩ ⟨false, 22⟩ ⟨true, 6⟩ 5),
    (0b100001_00011_10110_00110_101_1_0_1_00110, .vfdiv ⟨true, 3⟩ ⟨false, 22⟩ ⟨true, 6⟩ 5),
    (0b100001_00011_10110_00000_101_1_0_000111, .vfsqrt ⟨true, 3⟩ ⟨false, 22⟩ 5),
    (0b100001_00011_10110_00000_101_1_0_001000, .vfrcp ⟨true, 3⟩ ⟨false, 22⟩ 5),
    (0b100001_00011_10110_00000_101_1_0_001001, .vfrsq ⟨true, 3⟩ ⟨false, 22⟩ 5),
    (0b100001_00011_10110_00000_101_1_0_001010, .vfexp2 ⟨true, 3⟩ ⟨false, 22⟩ 5),
    (0b100001_00011_10110_00000_101_1_0_001011, .vflog2 ⟨true, 3⟩ ⟨false, 22⟩ 5),
    (0b100001_00011_10110_00110_101_1_0_1_01100, .vfcmp ⟨true, 3⟩ ⟨false, 22⟩ ⟨true, 6⟩ 5),
    (0b100001_00011_10110_10011_101_1_0_001101, .vcvt ⟨true, 3⟩ ⟨false, 22⟩ 19 5),
    (0b100001_00011_10110_00101_101_1_0_001110, .vred ⟨true, 3⟩ ⟨false, 22⟩ 5 5),
    (0b100001_00011_10110_00110_101_1_0_1_01111, .vdot2 ⟨true, 3⟩ ⟨false, 22⟩ ⟨true, 6⟩ 5)] := by decide

/-- The words of the vmem family, laid out from the encodings of R24 to R33, each field at a value of its own. -/
theorem decode_vmem : Decodes [
    (0b100010_00011_00000_11010_101_1_0000000, .vld ⟨true, 3⟩ 26 5),
    (0b100010_00011_00000_11010_101_1_0000001, .vst ⟨true, 3⟩ 26 5),
    (0b100010_00011_10011_11010_101_1_0000010, .vlds ⟨true, 3⟩ 19 26 5),
    (0b100010_00011_10011_11010_101_1_0000011, .vsts ⟨true, 3⟩ 19 26 5),
    (0b100010_00011_10110_11010_101_1_0_000100, .vgath ⟨true, 3⟩ ⟨false, 22⟩ 26 5),
    (0b100010_00011_10110_11010_101_1_0_000101, .vscat ⟨true, 3⟩ ⟨false, 22⟩ 26 5),
    (0b100010_00011_00000_11010_101_1_0000110, .vldf ⟨true, 3⟩ 26 5)] := by decide

/-- The words of the vmisc family, laid out from the encodings of R24 to R33, each field at a value of its own. -/
theorem decode_vmisc : Decodes [
    (0b10001100_101_00000_11010_00000000000, .vmovgToMask 5 26),
    (0b100011_01001_0000100_101_00000000000, .vmovgFromMask 9 5),
    (0b100011_00011_10110_00000_101_1_0_000001, .vmovv ⟨true, 3⟩ ⟨false, 22⟩ 5),
    (0b100011_00011_00000_11010_101_1_0000010, .vbcast ⟨true, 3⟩ 26 5),
    (0b100011_01001_10110_11010_0000_0_000011, .vext 9 ⟨false, 22⟩ 26),
    (0b100011_00011_0_1011_11010_000_1_0000100, .vins ⟨true, 3⟩ 11 26),
    (0b100011_00011_10110_00110_101_1_0_1_00101, .vsel ⟨true, 3⟩ ⟨false, 22⟩ ⟨true, 6⟩ 5),
    (0b100011_00011_10110_00110_101_1_0_1_00110, .vshuf ⟨true, 3⟩ ⟨false, 22⟩ ⟨true, 6⟩ 5),
    (0b100011_10101_00000_11010_00000000111, .viadd 21 26),
    (0b10001100_101_00_101_00_101_00000001000, .mand 5 5 5),
    (0b10001100_101_00_101_00_101_00000001001, .mor 5 5 5),
    (0b10001100_101_00_101_0000000000001010, .mnot 5 5),
    (0b100011_01001_00_101_0000000000001011, .mpop 9 5)] := by decide

/-- The words of the engine family, laid out from the encodings of R24 to R33, each field at a value of its own. -/
theorem decode_engine : Decodes [
    (0b100100_10010_10110_0000_1_1_0000000000, .ecfg 50 22 true),
    (0b100100_01001_10010_0000_1_00000000001, .eread 9 50),
    (0b1001000_1011_10110_00_101_1_0000000010, .fldset 11 22 5 true),
    (0b100100_01001_0_1011_00_101_00000000011, .fldget 9 11 5),
    (0b100100_01001_00000_01101_0_0_000000100, .mma 9 13 false),
    (0b100100_01001_00000_01101_0_0_000000101, .apply 9 13 false),
    (0b100100_01001_00000_01101_0_0_000000110, .diag 9 13 false),
    (0b1001000_1011_10110_00000_1_0000000111, .perm 11 22 true),
    (0b100100_01001_00000_01101_0_0_000001000, .matl 9 13 false),
    (0b100100_01001_00000_01101_0_0_000001001, .accld 9 13 false),
    (0b100100_01001_00000_01101_0_0_000001010, .accst 9 13 false),
    (0b100100_01001_00000_01101_0_0_000001011, .accz 9 13 false),
    (0b100100_01001_10110_00000_1_0000001100, .estat 9 22 true),
    (0b100100_01001_10110_01101_1_0_000001101, .ctload 9 22 13 true false),
    (0b100100_01001_000000000000000001110, .ctswap 9),
    (0b100100_01001_10110_01101_1_0_000001111, .eresume 9 22 13 true false)] := by decide

/-- The words of the pour family, laid out from the encodings of R24 to R33, each field at a value of its own. -/
theorem decode_pour : Decodes [
    (0b100101_01001_10110_01101_1_0_000000000, .lcopy 9 22 13 true false),
    (0b100101_01001_10110_01101_1_0_000000001, .pcopy 9 22 13 true false),
    (0b100101_01001_10110_01101_1_0_000000010, .pfill 9 22 13 true false),
    (0b100101_01001_10110_01101_1_0_000000011, .ptag 9 22 13 true false),
    (0b100101_01001_10110_01101_1_0_000000100, .premap 9 22 13 true false),
    (0b100101_01001_10110_01101_1_0_000000101, .pscrub 9 22 13 true false),
    (0b100101_01001_10110_01101_1_0_000000110, .pcoll 9 22 13 true false),
    (0b100101_01001_10110_01101_1_0_000000111, .pslotLoadEntries 9 22 13 true false),
    (0b100101_01001_10110_00000_1_0000001000, .pq 9 22 true)] := by decide

/-- The words of the brew family, laid out from the encodings of R24 to R33, each field at a value of its own. -/
theorem decode_brew : Decodes [
    (0b100110_01001_10110_01101_1_0_000000000, .brwld 9 22 13 true false),
    (0b100110_01001_10110_01101_1_0_000000001, .brwarm 9 22 13 true false),
    (0b100110_01001_10110_01101_1_0_000000010, .brwpost 9 22 13 true false),
    (0b100110_01001_10110_00000_1_0000000011, .brwfree 9 22 true),
    (0b100110_01001_10110_00000_1_0000000100, .brwq 9 22 true)] := by decide

/-- The words of the system family, laid out from the encodings of R24 to R33, each field at a value of its own. -/
theorem decode_system : Decodes [
    (0b100111_01001_00000_101100110101_0000, .csrr 9 2869),
    (0b100111_01001_10110_101100110101_0001, .csrw 9 22 2869),
    (0b100111_01001_10110_101100110101_0010, .csrs 9 22 2869),
    (0b100111_01001_10110_101100110101_0011, .csrc 9 22 2869),
    (0b100111_01001_10110_0_10011010011_0100, .trap 9 22 1235),
    (0b10011100000000001_10011010011_0100, .brkpt 1235),
    (0b10011100000000000000000000000101, .eret),
    (0b10011100000000000000000000000110, .upret),
    (0b100111_01001_10110_0000000000000111, .wfe 9 22),
    (0b100111_01001_10110_0000_10100101_1000, .routld 9 22 165)] := by decide

/-- The words of the sfp family, laid out from the encodings of R24 to R33, each field at a value of its own. -/
theorem decode_sfp : Decodes [
    (0b101000_01001_10110_01101_1_0_000000000, .fadd 9 22 13 true false),
    (0b101000_01001_10110_01101_1_0_000000001, .fsub 9 22 13 true false),
    (0b101000_01001_10110_01101_1_0_000000010, .fmul 9 22 13 true false),
    (0b101000_01001_10110_01101_1_0_000000011, .ffma 9 22 13 true false),
    (0b101000_01001_10110_01101_1_0_000000100, .fdiv 9 22 13 true false),
    (0b101000_01001_10110_00000_1_0000000101, .fsqrt 9 22 true),
    (0b101000_01001_10110_01101_1_0_000000110, .fmin 9 22 13 true false),
    (0b101000_01001_10110_01101_1_0_000000111, .fmax 9 22 13 true false),
    (0b101000_01001_10110_01101_1_0_000001000, .fcmp 9 22 13 true false),
    (0b101000_01001_10110_01101_1_0_000001001, .fcvt 9 22 13 true false),
    (0b101000_01001_10110_00000_1_0000001010, .fclass 9 22 true)] := by decide

/-- The words of the pointer family, laid out from the encodings of R24 to R33, each field at a value of its own. -/
theorem decode_pointer : Decodes [
    (0b101001_01001_10110_01101_1_0_000000000, .addp 9 22 13 true false),
    (0b101001_01001_10110_01101_1_0_000000001, .pfmt 9 22 13 true false),
    (0b101001_01001_10110_01101_1_0_000000010, .pidx 9 22 13 true false),
    (0b101001_01001_10110_01101_1_0_000000011, .pdiff 9 22 13 true false),
    (0b101001_01001_10110_00000_1_0000000100, .pstrip 9 22 true)] := by decide

/-! ## States -/

/-- A core whose slot 0 is x. -/
def coreOf0 (x : Slot) : Core := { Core.init with slots := #v[x, Slot.init 1, Slot.init 2, Slot.init 3] }

/-- Slot 0 of control core 0 runs the kernel at 0x1000, with CTXID.PHYS set as at reset. -/
def ctl : State := { State.reset with cores := [(102400, coreOf0 { Slot.init 0 with act := some ⟨.kernel, 0, none⟩, pc := 0x1000 })] }

/-- Slot 0 of core 0 runs a handler of channel 3 at 0x1000 for context 0; VA 0 up is a tagged page with R, W and X at PA 0, VA 0x200000 up one
without tags and X. -/
def cmp : State :=
  { State.reset with
    cur := ⟨0, 0⟩,
    cores := [(0, { coreOf0 { Slot.init 0 with act := some ⟨.channel 3, 0, none⟩, pc := 0x1000 } with ctx := some 0 })],
    ctxs := [(0, { Ctx.init with st := .running, accw := 1, corelim := 8 })],
    xlats := [⟨0, 0, 0x200000, 0, 0x5F⟩, ⟨0, 0x200000, 0x200000, 0x200000, 0x0F⟩] }

/-- The state with register r of the issuing slot at v, and with a tag. -/
def withG (s : State) (r : Reg) (v : Word) : State := s.modMe fun x => { x with g := x.g.set r.toNat v r.isLt }
def withT (s : State) (r : Reg) (t : Tag) : State := s.modMe fun x => { x with gt := x.gt.set r.toNat t r.isLt }

/-- The state with a request in flight in the issuing slot. -/
def withReq (s : State) (k : ReqKind) : State := s.modMe fun x => { x with reqs := [⟨0, k, true, false, false, false, 0, s.ctxidOf s.cur, false⟩] }

/-- A slot table of one slot of 10,000 ns with a guard of 1,000 ns that reaches device 1 on every port die, at TIME 0. -/
def net (s : State) : State :=
  { s with fab := { s.fab with devno := 0, devset := true, ctrl := 0x101,
                               slots := s.fab.slots.set 0 (0x0000271000_0003E8, 0x8001800180018001) } }

/-! ## Register arithmetic -/

theorem wit_alu : CanRead ctl 5 ∧ CanRead ctl 6 ∧ CanWrite ctl 7 := by unfold CanRead CanWrite; decide

theorem wit_division : CanRead (withG ctl 6 7) 6 ∧ CanWrite (withG ctl 6 7) 5 ∧ (withG ctl 6 7).me.readG 6 = 7 := by
  unfold CanRead CanWrite; decide

theorem wit_constants : CanRead ctl 5 ∧ CanWrite ctl 5 ∧ ¬CanWrite (withT ctl 5 .empty) 5 := by unfold CanRead CanWrite; decide

/-- Each clause of the operand checks, the later ones with nothing poisoned. -/
theorem wit_operand_checks :
    (withT ctl 5 (.poisoned 9 7)).me.tagG 5 = .poisoned 9 7 ∧ (withT ctl 6 (.poisoned 9 7)).me.tagG 6 = .poisoned 9 7 ∧
    (∀ k v, (withT ctl 6 (.poisoned 9 7)).me.tagG 5 ≠ .poisoned k v) ∧ (withT ctl 5 .empty).me.tagG 5 = .empty ∧
    (withT ctl 7 .empty).me.tagG 7 = .empty ∧ ∀ k v, ctl.me.tagG 5 ≠ .poisoned k v ∧ ctl.me.tagG 6 ≠ .poisoned k v := by
  have e : (withT ctl 6 (.poisoned 9 7)).me.tagG 5 = .full := by decide
  have f : ctl.me.tagG 5 = .full := by decide
  have g : ctl.me.tagG 6 = .full := by decide
  refine ⟨by decide, by decide, ?_, by decide, by decide, ?_⟩
  · rw [e]; simp
  · rw [f, g]; simp

theorem wit_jumps : CanRead ctl 5 ∧ CanWrite ctl 6 ∧ (int ((ctl.me.readG 5).toNat + (2 : BitVec 15).toInt)).toNat % 4 ≠ 0 ∧
    (int ((ctl.me.readG 5).toNat + (4 : BitVec 15).toInt)).toNat % 4 = 0 := by unfold CanRead CanWrite; decide

/-- Format 20 is the last with a block code, 21 and 31 have none; a good pointer, a bad one, and pointers of equal and of other tops. -/
theorem wit_pointers : blkColumn[20]? = some 6 ∧ blkColumn[21]? = none ∧ GoodPointer 0xA600000000000010 ∧ ¬GoodPointer 0xA700000000000010 ∧
    ¬GoodPointer 0xFFFFFFFFFFFFFFFF ∧ sizeColumn[20]? = some 17 ∧ GoodPointer 0 := by unfold GoodPointer; decide

/-! ## Scalar memory -/

/-- The slot at VA v with register 6; registers 5 and 7 are operands. -/
def at6 (s : State) (v : Word) : State := withG s 6 v

theorem wit_access_checks : CanRead (at6 ctl 1) 5 ∧ CanRead (at6 ctl 1) 6 ∧ CanRead (at6 ctl 1) 7 ∧ GoodPointer ((at6 ctl 1).me.readG 6) ∧
    effAddr ((at6 ctl 1).me.readG 6) 0 (bytesOf 3) % bytesOf 3 ≠ 0 ∧ ((at6 ctl 1).me.readG 6).toNat % 2 ^ 56 % 4 ≠ 0 ∧
    ¬GoodPointer ((at6 ctl 0xFF00000000000000).me.readG 6) := by unfold CanRead GoodPointer; decide

/-- An access of 8 bytes at VA 0x2000 of a compute core, and of 4 at the untagged page. -/
def here : Loc := ⟨keysFrom 0x2000 8, true, false, false⟩
def bare : Loc := ⟨keysFrom 0x200000 4, false, false, false⟩

/-- The bytes are sound, or the word they stand in is not; or a near-bank unit is at work on their bank. -/
theorem wit_load :
    let s := at6 cmp 0x2000
    let u := { s with poison := [(0x801, true)] }
    let p := s.me.readG 6
    CanRead s 6 ∧ CanWrite s 5 ∧ Reaches s p (effAddr p 0 (bytesOf 3)) (bytesOf 3) permR here ∧
    ((here.keys.map fun k => mget false s.poison (k / 4)).any id) = false ∧ (s.core 0).dcache = [] ∧
    Reaches u p 0x2000 8 permR here ∧ here.keys[4]? = some 0x2004 ∧ mget false u.poison (0x2004 / 4) = true ∧ (u.core 0).dcache = [] := by
  unfold CanRead CanWrite Reaches Arrives GoodPointer; decide

theorem wit_meets_poison : ¬MeetsPoison (at6 cmp 0x2000) 0 0x2000 here ∧
    MeetsPoison { at6 cmp 0x2000 with poison := [(0x801, true)] } 0 0x2000 here := by
  constructor
  · rintro ⟨i, k, h, q⟩
    have e : (at6 cmp 0x2000).poison = [] := by decide
    have d : ((at6 cmp 0x2000).core 0).dcache = [] := by decide
    rw [d, e] at q
    split at q
    · rename_i c hc
      split at hc <;> simp at hc
    · simp [mget] at q
  · exact ⟨4, 0x2004, by decide, (by decide : mget false [(0x801, true)] (0x2004 / 4) = true)⟩

/-- An unmapped address: PAGEFAULT. -/
theorem wit_load_fault : GoodPointer ((at6 cmp 0x400000).me.readG 6) ∧ mustWait (at6 cmp 0x400000) 0x400000 8 true = false ∧
    (at6 cmp 0x400000).resolve ((at6 cmp 0x400000).agent (at6 cmp 0x400000).cur) 0x400000 8 permR = .error 6 := by unfold GoodPointer; decide

theorem wit_posted : CanRead (at6 cmp 0x2000) 6 ∧ CanRead (at6 cmp 0x2000) 5 ∧ CanWrite (at6 cmp 0x2000) 5 ∧ GoodPointer ((at6 cmp 0x2000).me.readG 6) ∧
    effAddr ((at6 cmp 0x2000).me.readG 6) 0 8 % 8 = 0 ∧ mustWait (at6 cmp 0x2000) 0x2000 8 false = false ∧ touchesWin 0x2000 8 = false ∧
    (at6 cmp 0x2000).releasing (at6 cmp 0x2000).cur = false := by
  unfold CanRead CanWrite GoodPointer; decide

/-- The words of the access are full, or one is empty, or all are; and the untagged page. -/
theorem wit_sync_loads :
    let s := at6 cmp 0x2000
    let e := { s with tags := [(0x800, false)] }
    let b := at6 cmp 0x200000
    Memory.wf s.mem = true ∧ mwf true s.tags = true ∧ s.isPoisoned here.keys = false ∧ ReachesPoint s (s.me.readG 6) 0x2000 8 permR here ∧
    ReachesPoint s (s.me.readG 6) 0x2000 8 permRW here ∧ s.locFull here = true ∧ mwf true e.tags = true ∧
    ReachesPoint e (e.me.readG 6) 0x2000 8 permRW here ∧ e.locFull here = false ∧ ReachesPoint b (b.me.readG 6) 0x200000 4 permRW bare ∧
    bare.tagged = false := by
  unfold ReachesPoint Reaches Arrives GoodPointer; decide

theorem wit_sync_stores :
    let s := at6 cmp 0x2000
    let e := { s with tags := [(0x800, false), (0x801, false)] }
    let q := withReq s (.st 3 0x3000 0x3000 1)
    CanRead s 5 ∧ CanRead s 6 ∧ ReachesPoint s (s.me.readG 6) 0x2000 8 permW here ∧ Released s 4 ∧ s.locEmpty here = false ∧
    mwf true e.tags = true ∧ ReachesPoint e (e.me.readG 6) 0x2000 8 permW here ∧ e.locEmpty here = true ∧
    ReachesPoint q (q.me.readG 6) 0x2000 8 permW here ∧ ¬Released q 4 ∧
    ReachesPoint (at6 cmp 0x200000) ((at6 cmp 0x200000).me.readG 6) 0x200000 4 permW bare := by
  unfold CanRead ReachesPoint Reaches Arrives GoodPointer Released; decide

theorem wit_amos :
    let s := at6 cmp 0x2000
    let q := withReq s (.st 3 0x3000 0x3000 1)
    CanRead s 5 ∧ CanRead s 6 ∧ CanRead s 7 ∧ CanWrite s 5 ∧ ReachesPoint s (s.me.readG 6) 0x2000 8 permRW here ∧
    ReachesPoint s (s.me.readG 6) 0x2000 4 permRW ⟨keysFrom 0x2000 4, true, false, false⟩ ∧ (∀ c < 6, Released s c) ∧
    ReachesPoint q (q.me.readG 6) 0x2000 8 permRW here ∧ ¬Released q 1 := by
  unfold CanRead CanWrite ReachesPoint Reaches Arrives GoodPointer Released; decide

/-- A pointer to device 1, which is reachable, and to device 0, the package itself. -/
theorem wit_peer :
    let s := at6 (net cmp) 0x80010000002000
    GoodPointer (s.me.readG 6) ∧ effAddr (s.me.readG 6) 0 8 % 8 = 0 ∧ 2 ^ 55 ≤ effAddr (s.me.readG 6) 0 8 ∧
    effAddr (s.me.readG 6) 0 8 / 2 ^ 40 % 2 ^ 15 ≠ s.fab.devno.toNat ∧ mustWait s (effAddr (s.me.readG 6) 0 8) 8 true = false ∧
    s.fab.reaches 1 = true ∧ Released s 5 ∧ 0x80000000002000 / 2 ^ 40 % 2 ^ 15 = s.fab.devno.toNat ∧ CanRead s 5 ∧ CanRead s 6 ∧ CanRead s 7 := by
  unfold CanRead GoodPointer Released; decide

/-! ## Floats and vectors -/

theorem wit_scalar_floats : CanRead ctl 5 ∧ CanRead ctl 6 ∧ CanWrite ctl 7 ∧ CanRead ctl 7 := by unfold CanRead CanWrite; decide

/-- A signalling and a quiet NaN, a zero, the smallest subnormal, the largest finite number, minus infinity. -/
theorem wit_float_values : isNaN32 0x7F800001 = true ∧ isSNaN32 0x7F800001 = true ∧ isNaN32 0xFFC00000 = true ∧ isSNaN32 0xFFC00000 = false ∧
    isNaN32 0 = false ∧ (0x80000000 : Word32).toNat % 2 ^ 31 = 0 ∧ 0 < (0x80000001 : Word32).toNat % 2 ^ 31 ∧
    (0x7F7FFFFF : Word32).toNat % 2 ^ 31 < 0x7F800000 ∧ 0x80000000 < (0xFF800000 : Word32).toNat ∧ (0xFF800000 : Word32).toNat ≤ 0xFF800000 := by decide

/-- FCVT from N32 (code 7) to I16 (code 2), from code 0, and to code 16. -/
theorem wit_fcvt : CanRead (withG ctl 6 0x207) 5 ∧ CanRead (withG ctl 6 0x207) 6 ∧ CanWrite (withG ctl 6 0x207) 7 ∧
    7 ∈ ((List.range 16).filter fun c => c ≠ 0 && c ≠ 11) ∧ 2 ∈ ((List.range 16).filter fun c => c ≠ 0 && c ≠ 11) ∧
    0 ∉ ((List.range 16).filter fun c => c ≠ 0 && c ≠ 11) ∧ 16 ∉ ((List.range 16).filter fun c => c ≠ 0 && c ≠ 11) := by
  unfold CanRead CanWrite; decide

/-- A vector operand by number, and relative to VI; the same with VI at -1 and at 31, where v1 relative is out of its 32 registers. -/
def withVi (s : State) (v : BitVec 8) : State := s.modMe fun x => { x with vi := v }

theorem wit_vector_operands : (cmp.me.valloc.toNat / 256 : Nat) = 32 ∧ cmp.me.vreg ⟨false, 31⟩ = .ok 31 ∧ (withVi cmp 31).me.vreg ⟨true, 1⟩ = .error 32 ∧
    (withVi cmp 0xFF).me.vreg ⟨true, 0⟩ = .error (-1) ∧ (withVi cmp 0xFF).me.vreg ⟨true, 1⟩ = .ok 0 := by decide

/-- The destination out of bounds by its index; then a alone, and b alone. -/
theorem wit_vector_bounds :
    let s := withVi cmp 31
    let index (r : VReg) : Int := if r.rel then s.me.vi.toInt + r.n.toNat else r.n.toNat
    let good (r : VReg) : Prop := 0 ≤ index r ∧ index r < (s.me.valloc.toNat / 256 : Nat)
    ¬good ⟨true, 1⟩ ∧ good ⟨true, 0⟩ ∧ good ⟨false, 31⟩ := by decide

theorem wit_vectors : Names cmp ⟨false, 3⟩ 3 ∧ Names (withVi cmp 7) ⟨true, 1⟩ 8 ∧ Names cmp ⟨false, 31⟩ 31 ∧ CanReadV cmp 3 ∧ CanReadV cmp 31 ∧
    CanPut cmp 3 true ∧ CanPut cmp 3 false ∧ CanWriteV cmp 3 := by unfold CanPut Names CanReadV CanWriteV; decide

/-- Codes 20 and 25 are the first and the last block conversion; v31 has no next register. -/
theorem wit_block_conversions : Names cmp ⟨false, 3⟩ 3 ∧ Names cmp ⟨false, 8⟩ 8 ∧ 20 ≤ (20 : BitVec 5).toNat ∧ (25 : BitVec 5).toNat ≤ 25 ∧
    vnext cmp.me ⟨false, 3⟩ = .ok 4 ∧ vnext cmp.me ⟨false, 8⟩ = .ok 9 ∧ CanReadV cmp 4 ∧ CanWriteV cmp 9 ∧ vnext cmp.me ⟨false, 31⟩ = .error 32 := by
  unfold Names CanReadV CanWriteV; decide

theorem wit_moves : Names cmp ⟨false, 3⟩ 3 ∧ CanReadV cmp 3 ∧ CanWriteV cmp 3 ∧ CanRead cmp 5 ∧ CanWrite cmp 6 := by
  unfold Names CanReadV CanWriteV CanRead CanWrite; decide

theorem wit_masks : CanRead (withG cmp 5 3) 5 ∧ CanWrite cmp 6 := by unfold CanRead CanWrite; decide

/-! ## Vector memory -/

/-- A pointer of format N32 (7) to VA 0x2000 in register 6; the same with mask m1 clear. -/
def ptr32 : State := at6 cmp 0x3800000000002000
def noLane : State := ptr32.modMe fun x => { x with m := x.m.set 1 0 }

def lanes16 (w : Nat) : List (Nat × Nat) := (List.range 16).map fun i => (i, 0x2000 + i * w)

theorem wit_vector_loads : GoodPointer (ptr32.me.readG 6) ∧ Names ptr32 ⟨false, 3⟩ 3 ∧ CanReadV ptr32 3 ∧ CanPut ptr32 3 false ∧ CanRead ptr32 6 ∧
    CanRead ptr32 5 ∧ VecReady ptr32 (ptr32.me.readG 6) 0 permR (fun i => (i * 4 : Nat)) (lanes16 4) := by
  unfold VecReady CanPut CanWriteV CanReadV CanRead Names GoodPointer; decide

/-- No active lane; a stride of 4 and lanes at 0; a packed record; and a pointer to a peer. -/
theorem wit_vector_load_forms :
    VecReady noLane (noLane.me.readG 6) 1 permR (fun i => (i * 4 : Nat)) [] ∧ CanPut noLane 3 true ∧ vecWidth (ptrFmt (ptr32.me.readG 6)) ∈ [1, 2, 4] ∧
    VecReady (withG ptr32 5 4) ((withG ptr32 5 4).me.readG 6) 0 permR (fun i => i * ((withG ptr32 5 4).me.readG 5).toInt) (lanes16 4) ∧
    VecReady ptr32 (ptr32.me.readG 6) 0 permR (fun i => (lane (ptr32.myCore.readV 3) i).toInt * 4) (lanes16 0) ∧
    VecReady (at6 cmp 0x8D00000000002000) 0x8D00000000002000 0 permR (fun i => (i * 0 : Nat)) [(0, 0x2000)] ∧
    ¬GoodPointer ((at6 cmp 0xFF00000000000000).me.readG 6) := by
  refine ⟨?_, ?_, ?_, ?_, ?_, ?_, ?_⟩ <;> first | (unfold VecReady GoodPointer; decide) | (show CanReadV _ _; unfold CanReadV; decide) | (unfold GoodPointer; decide) | decide

theorem wit_vector_load_peer : VecReady (at6 (net cmp) 0x3880010000002000) 0x3880010000002000 0 permR (fun i => (i * 4 : Nat))
    ((List.range 16).map fun i => (i, 0x80010000002000 + i * 4)) := by unfold VecReady GoodPointer; decide

theorem wit_vector_stores : CanReadV ptr32 3 ∧ VecReady ptr32 (ptr32.me.readG 6) 0 permW (fun i => (i * 4 : Nat)) (lanes16 4) ∧
    VecReady noLane (noLane.me.readG 6) 1 permW (fun i => (i * 4 : Nat)) [] ∧
    VecReady (withG ptr32 5 4) ((withG ptr32 5 4).me.readG 6) 0 permW (fun i => i * ((withG ptr32 5 4).me.readG 5).toInt) (lanes16 4) ∧
    VecReady ptr32 (ptr32.me.readG 6) 0 permW (fun i => (lane (ptr32.myCore.readV 3) i).toInt * 4) (lanes16 0) ∧
    VecReady (at6 cmp 0x8D00000000002000) 0x8D00000000002000 0 permW (fun i => (i * 0 : Nat)) [(0, 0x2000)] ∧
    VecReady (at6 cmp 0x2000000000002000) 0x2000000000002000 0 permW (fun i => (i * 8 : Nat)) ((List.range 8).map fun i => (i, 0x2000 + i * 8)) := by
  refine ⟨by unfold CanReadV; decide, ?_, ?_, ?_, ?_, ?_, ?_⟩ <;> (unfold VecReady GoodPointer; decide)

theorem wit_vldf : GoodPointer (ptr32.me.readG 6) ∧ ptrFmt (ptr32.me.readG 6) ∈ [0, 3, 7, 10] ∧ ptrFmt ((at6 cmp 0x1000000000002000).me.readG 6) ∉ [0, 3, 7, 10] ∧ loading ptr32.me ++ [ptr32.nextReq] = [0] ∧
    VecReady ptr32 (ptr32.me.readG 6) 0 permR (fun i => (i * 4 : Nat)) (lanes16 4) ∧ CanPut ptr32 3 false ∧
    VecReady noLane (noLane.me.readG 6) 1 permR (fun i => (i * 4 : Nat)) [] := by
  refine ⟨?_, ?_, ?_, ?_, ?_, ?_, ?_⟩ <;> first | (unfold VecReady GoodPointer; decide) | (show CanWriteV _ _; unfold CanWriteV; decide) | (unfold GoodPointer; decide) | decide

/-! ## Messages, channels and tasks -/

/-- A destination: core 1 of cluster 0, channel 2, n body words; a body in the scratchpad of core 0. -/
def dest (n : Nat) : Word := num (n * 2 ^ 24 + 2 * 2 ^ 19 + 4)
def msg (n : Nat) : State := withG (withG (withG cmp 5 (dest n)) 6 0x7FFFFFFF800100) 7 0x20001
def fullOut (s : State) : State :=
  { s with cores := [(0, { s.myCore with outq := List.replicate 16 ⟨0, 0, false, 0, none, [], [1], false, false, none, none, []⟩ })] }

/-- Good destinations up to cluster 99, and bad ones: cluster 100, the own device by number, a die above the maximum of 3. -/
theorem wit_destinations : CanRead (msg 2) 5 ∧ CanRead (msg 2) 6 ∧ CanRead (msg 2) 7 ∧ GoodDest (msg 2) (dest 2) ∧ GoodDest (msg 2) (num (99 * 512)) ∧
    ¬GoodDest (msg 2) (num (100 * 512)) ∧ ¬GoodDest (net cmp) 0x80000000000000 ∧ GoodDest (net cmp) 0x80010000000000 ∧
    (let s := { cmp with ctxs := [(0, { Ctx.init with diemax := 3 })] }
     ¬GoodDest s (num (4 * 65536)) ∧ GoodDest s (num (3 * 65536)) ∧ (s.diemaxOf s.cur).toNat = 3) := by
  unfold GoodDest CanRead; decide

set_option maxRecDepth 4000 in
theorem wit_sends : CanRead (msg 2) 7 ∧ GoodBody (msg 2) ((msg 2).me.readG 6) 2 ∧ GoodBody (msg 64) ((msg 64).me.readG 6) 64 ∧
    (msg 2).myCore.outq.length < 16 ∧ ¬(fullOut (msg 2)).myCore.outq.length < 16 ∧ GoodDest (fullOut (msg 2)) (dest 2) ∧
    GoodBody (fullOut (msg 2)) ((msg 2).me.readG 6) 2 ∧ GoodDest (msg 0) (dest 0) ∧
    ((List.range 128).filter fun k => ((msg 2).me.readG 7).getLsbD (k / 8) && ((msg 2).me.readG 7).getLsbD (16 + k % 8)) = [1] ∧
    ((List.range 128).filter fun k => ((withG (msg 2) 7 1).me.readG 7).getLsbD (k / 8) && ((withG (msg 2) 7 1).me.readG 7).getLsbD (16 + k % 8)) = [] := by
  unfold GoodBody GoodDest GoodPointer CanRead; decide

/-- The slot of cmp runs for another source. -/
def asTask (s : State) : State := s.modMe fun x => { x with act := some ⟨.task 1 4 true, 0, none⟩ }
def asLaunch (s : State) : State := s.modMe fun x => { x with act := some ⟨.channel 3, 0, some (0, 1)⟩ }

theorem wit_activations : Memory.wf cmp.mem = true ∧ CanRead cmp 5 ∧ cmp.me.act = some ⟨.channel 3, 0, none⟩ ∧ (cmp.me.readG 5).toNat % 4 = 0 ∧
    ((withG cmp 5 2).me.readG 5).toNat % 4 ≠ 0 ∧ (asTask cmp).me.act = some ⟨.task 1 4 true, 0, none⟩ ∧ (asTask cmp).myCore.outq.length < 16 ∧ ctl.me.act = some ⟨.kernel, 0, none⟩ := by unfold CanRead; decide

/-- CHSET of channel 3: fields 0 to 3, read only, a region that ends at 65536, and one a word longer. -/
theorem wit_channel_entries : Memory.wf cmp.mem = true ∧ CanRead cmp 5 ∧ CanRead cmp 6 ∧ CanWrite cmp 7 ∧
    ((withG cmp 5 0x303).me.readG 5).toNat / 256 % 4 = 3 ∧ ((withG cmp 5 0x203).me.readG 5).toNat / 256 % 4 = 2 ∧
    ((withG cmp 5 0x8203).me.readG 5).getLsbD 15 = true ∧ (0x1 : Word).toNat % 4 ≠ 0 ∧
    65536 < (0x10000FFFC : Word).toNat % 65536 + 4 * ((0x20000FFFC : Word).toNat / 2 ^ 32 % 2 ^ 15) ∧
    ¬65536 < (0x10000FFFC : Word).toNat % 65536 + 4 * ((0x10000FFFC : Word).toNat / 2 ^ 32 % 2 ^ 15) := by unfold CanRead CanWrite; decide

theorem wit_chmask : CanRead cmp 5 ∧ CanRead cmp 6 ∧ CanWrite cmp 7 ∧ Memory.wf cmp.mem = true := by unfold CanRead CanWrite; decide

/-- A deque with no task and one with 64; a misaligned entry; an empty range (4 to 4) and one of one index. -/
def deque64 : State := { cmp with cores := [(0, { cmp.myCore with bottom := 64 })] }

set_option maxRecDepth 4000 in
theorem wit_tasks : Memory.wf cmp.mem = true ∧ CanRead cmp 5 ∧ CanRead cmp 6 ∧ CanRead cmp 7 ∧ CanWrite cmp 7 ∧ ((withG cmp 5 2).me.readG 5).toNat % 4 ≠ 0 ∧
    (cmp.me.readG 5).toNat % 4 = 0 ∧ cmp.me.storesSeen = true ∧
    (withReq cmp (.st 3 0x3000 0x3000 1)).me.storesSeen = false ∧ (cmp.myCore.bottom - cmp.myCore.top).toNat = 0 ∧
    64 ≤ (deque64.myCore.bottom - deque64.myCore.top).toNat ∧ (0x400000004 : Word).toNat / 2 ^ 32 ≤ (0x400000004 : Word).toNat % 2 ^ 32 ∧
    ¬(0x500000004 : Word).toNat / 2 ^ 32 ≤ (0x500000004 : Word).toNat % 2 ^ 32 := by unfold CanRead CanWrite; decide

/-- The same in group 1 of launch 0, which has core 0. -/
def inGroup (s : State) : State := { asLaunch s with sched := { s.sched with groups := [⟨0, 1, 0, 0, 0, 0, 1, false, false⟩] } }

theorem wit_joinch_trig : CanRead cmp 5 ∧ CanWrite cmp 6 ∧ (withReq cmp (.st 3 0x3000 0x3000 1)).ordered 4 = false ∧ cmp.ordered 4 = true ∧
    cmp.me.act = some ⟨.channel 3, 0, none⟩ ∧ (inGroup cmp).me.act = some ⟨.channel 3, 0, some (0, 1)⟩ ∧ (inGroup cmp).ordered 4 = true := by
  unfold CanRead CanWrite; decide

theorem wit_fences : cmp.me.loadsDone = true ∧ (∀ c < 6, cmp.me.performedAt c = true ∧ cmp.ordered c = true) ∧
    (withReq cmp (.ldn 5 3 0x3000 0x3000)).me.loadsDone = false ∧ (withReq cmp (.st 3 0x3000 0x3000 1)).me.performedAt 4 = false ∧
    (withReq cmp (.st 3 0x3000 0x3000 1)).ordered 5 = false ∧ (withReq cmp (.st 3 0x3000 0x3000 1)).me.loadsDone = true := by decide

/-- An open region with code 0x101 to come, and a request of it in flight. -/
def inRegion (s : State) : State := s.modMe fun x => { x with region := some ⟨4, 0x2000, x.g, x.gt, none⟩ }
def regionReq : State := (inRegion cmp).modMe fun x => { x with reqs := [⟨0, .post, false, true, true, false, 0, 0x40, false⟩] }

theorem wit_regions : (inRegion cmp).me.region ≠ none ∧ cmp.me.region = none ∧ (∀ r : Reg, cmp.me.gt[r.toNat]'r.isLt ≠ .empty) ∧
    (inRegion cmp).me.region = some ⟨4, 0x2000, cmp.me.g, cmp.me.gt, none⟩ ∧ (∀ r ∈ (inRegion cmp).me.reqs, r.region = false) ∧
    (∃ r ∈ regionReq.me.reqs, r.region = true) ∧ CanRead (inRegion cmp) 5 ∧ ((withG cmp 5 255).me.readG 5).toNat % 2 ^ 16 < 256 ∧
    256 ≤ ((withG (inRegion cmp) 5 256).me.readG 5).toNat % 2 ^ 16 ∧ (withG (inRegion cmp) 5 256).me.settled = true ∧
    (cmp.ctx (cmp.ctxOf cmp.cur)).st ≠ .saving ∧ ¬CanWrite (withT cmp 5 .empty) 5 ∧ CanWrite (inRegion cmp) 5 := by
  unfold CanRead CanWrite; decide

theorem wit_waitc : (withT cmp 5 .empty).me.tagG 5 = .empty ∧ CanRead (withG cmp 5 1) 5 ∧ (cmp.me.c[2]).toNat < ((withG cmp 5 1).me.readG 5).toNat ∧ (cmp.me.readG 5).toNat ≤ (cmp.me.c[2]).toNat := by
  unfold CanRead; decide

/-! ## The Carafe -/

theorem wit_ship : cmp.me.acquiring = false ∧ cmp.releasing cmp.cur = false ∧ CanRead cmp 5 ∧ CanRead cmp 6 ∧ CanRead cmp 7 ∧ GoodPointer ((at6 cmp 0x2000).me.readG 6) ∧ (0x2000 : Nat) % 8 = 0 ∧
    touchesWin 0x2000 8 = false ∧ touchesWin 0x7FFFFFFF800000 8 = true ∧ cmp.me.waitsFor 0x2000 8 = false ∧ cmp.me.parkedOver 0x2000 8 = false ∧
    cmp.myCore.outstFull = false ∧ (withReq cmp (.st 3 0x2000 0x2000 1)).me.waitsFor 0x2000 8 = true ∧ (at6 cmp 0x2001).me.readG 6 = 0x2001 ∧
    ¬GoodPointer ((at6 cmp 0xFF00000000000000).me.readG 6) ∧ (net cmp).fab.reaches 1 = true ∧
    (0x80010000002000 : Nat) / 2 ^ 40 % 2 ^ 15 ≠ (net cmp).fab.devno.toNat := by unfold CanRead GoodPointer; decide

/-- Bytes in the scratchpad of core 0 from offset 0x100: a list whose count is n. -/
def padList (s : State) (bytes : List (Nat × Byte)) : State := { s with mem := bytes.map fun b => ⟨1099511627776 + 0x100 + b.1, b.2⟩ }
def listPtr : Word := 0x7FFFFFFF800100
def chain1 : State := padList (withG (at6 cmp 0x2000) 7 listPtr) [(0, 1), (8, 16), (16, 0xFF)]
def chain7 : State := padList (withG (at6 cmp 0x2000) 7 listPtr) [(0, 7)]

set_option maxRecDepth 4000 in
theorem wit_chain : CanRead chain1 6 ∧ CanRead chain1 7 ∧ CanWrite chain1 5 ∧ GoodPointer (chain1.me.readG 6) ∧ chain1.ownDevice 0x2000 = false ∧
    OwnList chain1 listPtr 8 ∧ OwnList chain1 listPtr 24 ∧ listNat chain1 listPtr 0 8 = 1 ∧ listNat chain1 listPtr 12 4 = 0 ∧
    chain1.me.waitsFor 0x2010 8 = false ∧ chain1.me.parkedOver 0x2010 8 = false ∧ chain1.myCore.outstFull = false ∧
    OwnList chain7 listPtr 8 ∧ OwnList chain7 listPtr 120 ∧ listNat chain7 listPtr 0 8 = 7 ∧ (net cmp).ownDevice 0x80000000002000 = true := by
  refine ⟨by unfold CanRead; decide, by unfold CanRead; decide, by unfold CanWrite; decide, by unfold GoodPointer; decide, by decide,
    by unfold OwnList; decide, by unfold OwnList; decide, by decide, by decide, by decide, by decide, by decide, by unfold OwnList; decide,
    by unfold OwnList; decide, by decide, by decide⟩

/-- The context of cmp holds the row of PA 0x2000 in place 0, and the row in its buffer is open in another state. -/
def holding (s : State) : State := { s with ctxs := [(0, { (s.ctx 0) with holds := [(0, ⟨3, some (0x2000, 0x2000), false, false⟩)] })] }
def rowOpen : State := { cmp with carafe := { cmp.carafe with openRows := [(subarrayOf 0x2000, 9)] } }

set_option maxRecDepth 4000 in
theorem wit_rows : CanRead (at6 cmp 0x2008) 6 ∧ CanWrite cmp 5 ∧ RowAt (at6 cmp 0x2008) 0x2008 ⟨[0x2008], true, false, false⟩ ∧ cmp.bufferHeld 0x2008 = none ∧
    mfind cmp.carafe.openRows (subarrayOf 0x2008) = none ∧ mfind rowOpen.carafe.openRows (subarrayOf 0x2008) = some 9 ∧
    cmp.myCore.outstFull = false ∧ (holding cmp).bufferHeld 0x2000 = some (0, 0, 0x2000) ∧
    ((cmp.ctx 0).hold 0).row = none ∧ (((holding cmp).ctx 0).hold 0).row = some (0x2000, 0x2000) ∧
    (((holding cmp).ctx 0).hold 0).gen.toNat = (0x3000 : Word).toNat / 4096 % 16 ∧ ¬GoodPointer 0xFF00000000000000 := by
  unfold CanRead CanWrite RowAt GoodPointer; decide

theorem wit_free_place : (cmp.ctx (cmp.ctxOf cmp.cur)).freePlace = some 0 :=
  List.find?_range_eq_some.2 ⟨by decide, by simp, by simp⟩

/-- A parameter block: microprogram 1, 2 iterations, channel 3, NOTIFY; operands in the page at 0x200000, banks 0 and 1, in a memory-side page. -/
def nbBlock : State :=
  padList { withG cmp 6 listPtr with xlats := [⟨0, 0x200000, 0x200000, 0x200000, 0x2F⟩] }
    [(0, 1), (2, 2), (6, 0x23), (10, 0x20), (18, 0x20), (26, 0x20), (48, 3)]

set_option maxRecDepth 4000 in
theorem wit_nbprog : CanRead nbBlock 6 ∧ CanWrite nbBlock 5 ∧ OwnList nbBlock listPtr 64 ∧ listNat nbBlock listPtr 0 8 / 64 % 1024 = 0 ∧
    listNat nbBlock listPtr 0 8 / 2 ^ 32 % 2 ^ 16 = 0 ∧ listNat nbBlock listPtr 0 8 / 2 ^ 54 = 0 ∧ listNat nbBlock listPtr 48 8 = 3 ∧
    listNat nbBlock listPtr 56 8 = 0 ∧ listNat nbBlock listPtr 0 8 / 2 ^ 16 % 2 ^ 16 = 2 ∧ listNat nbBlock listPtr 0 8 % 64 = 1 ∧
    (nbBlock.microWords 1).isSome = true ∧ listNat nbBlock listPtr 8 8 = 0x200000 ∧ listNat nbBlock listPtr 16 8 = 0x200000 ∧
    listNat nbBlock listPtr 24 8 = 0x200000 ∧ GoodPointer 0x200000 ∧ listNat nbBlock listPtr 32 8 = 0 ∧ nbBlock.myCore.outstFull = false ∧
    nbBlock.resolve (nbBlock.agent nbBlock.cur) 0x200000 1 permR = .ok ⟨[0x200000], false, true, false⟩ ∧
    nbBlock.xlat (nbBlock.ctxOf nbBlock.cur) 0x200000 = .ok ⟨0, 0x200000, 0x200000, 0x200000, 0x2F⟩ := by
  refine ⟨by unfold CanRead; decide, by unfold CanWrite; decide, by unfold OwnList; decide, by decide, by decide, by decide, by decide, by decide, by decide,
    by decide, by decide, by decide, by decide, by decide, by unfold GoodPointer; decide, by decide, by decide, by decide, by decide⟩

/-- A program of context 0 on bank 1 for NBSTAT. -/
def aProg : NbProg := ⟨7, 0, ⟨0, 0⟩, 0, false, 1, [], 2, 0, false, [0x200000, 0x200000, 0x200000], 0, 0, 0, 2, 1, 0, 0, [], [], false, .running, 0⟩
def nbRuns : State := { withG cmp 6 0x10007 with carafe := { cmp.carafe with nb := [(1, [aProg])] } }

theorem wit_nbstat : nbRuns.myCore.outstFull = false ∧ cmp.nbFind 0 7 1 = none ∧ nbRuns.nbFind 0 7 1 = some aProg ∧ CanRead nbRuns 6 ∧ CanWrite nbRuns 5 := by
  unfold CanRead CanWrite; decide

/-- A near-bank unit at work on the bank of PA 0x200000, a memory-side page at VA 0x200000: an LD there reaches the bank and waits. -/
def bankBusy : State :=
  { nbBlock with carafe := { nbBlock.carafe with nb := [(bankOf 0x200000, [{ aProg with bank := bankOf 0x200000 }])] } }

theorem wit_bank_busy : Arrives bankBusy 0x200000 0x200000 4 permR ⟨keysFrom 0x200000 4, false, true, false⟩ ∧
    bankBusy.unitAt (bankOf 0x200000) = some false := by unfold Arrives GoodPointer; decide

/-! ## The engine -/

def withK (s : State) (n : BitVec 6) (v : Word) : State := s.modMe fun x => { x with k := x.k.set n.toNat v n.isLt }
def withD (s : State) (n : BitVec 4) (d : BitVec 512) : State := s.modMe fun x => { x with d := x.d.set n.toNat d n.isLt }

/-- An FP32 field of 8 elements at VA 0x2000 with a shadow at VA 0x4000: one axis of 3 bits, map 2, 0, 1; the same with the identity map, with a
remap running, and not valid. -/
def field : BitVec 512 := 0x5000000000002000 + 0x4000 * 2 ^ 64 + 3 * 2 ^ 120 + (2 + 1 * 2 ^ 12) * 2 ^ 128 + 3 * 2 ^ 424 + 7 * 2 ^ 448
def fieldId : BitVec 512 := 0x5000000000002000 + 0x4000 * 2 ^ 64 + 3 * 2 ^ 120 + (1 * 2 ^ 6 + 2 * 2 ^ 12) * 2 ^ 128 + 3 * 2 ^ 424 + 7 * 2 ^ 448
def moving : BitVec 512 := field + 2 ^ 126

set_option exponentiation.threshold 600 in
set_option maxRecDepth 4000 in
theorem wit_engine_registers : CanRead cmp 5 ∧ CanRead cmp 6 ∧ dState (cmp.me.desc 2) = 0 ∧ dState ((withD cmp 2 moving).me.desc 2) ≠ 0 := by
  unfold CanRead; decide

/-- Registers for a 2 by 2 by 8 MMA of BF16 to accumulator 0; the control word takes counter 1. -/
def mma : State := withG (withK (withK (withK (withK (withK (withK (withK cmp 0 0x4000000000002000) 1 16) 2 0x4000000000003000) 3 16) 4 2) 5 2) 6 8) 6 0x100000000000
/-- And for APPLY and DIAG of one bit of field 0 with the matrix at VA 0x3000, with and without remaps. -/
def apply : State := withK (withK (withD (withG cmp 6 0x100000000000) 0 field) 10 1) 14 0x5000000000003000
def acc : State := withK (withK (withK (withK (withG cmp 6 0x100000000000) 12 0x5000000000002000) 13 8) 4 2) 5 2

/-- None of the checks fails; check number n is the first that does. -/
def NoneFails : List (Prop × Nat × Word) → Prop
  | [] => True
  | p :: l => ¬p.1 ∧ NoneFails l

def FirstFails : List (Prop × Nat × Word) → Nat → Prop
  | [], _ => False
  | p :: _, 0 => p.1
  | p :: l, n + 1 => ¬p.1 ∧ FirstFails l n

set_option exponentiation.threshold 600 in
set_option maxRecDepth 4000 in
theorem wit_matrix_jobs : CanRead mma 5 ∧ CanRead mma 6 ∧ GoodControl (mma.me.readG 6) ∧ ¬GoodControl 1 ∧ MayEnter mma (mma.me.readG 6) ∧
    fieldOpFault apply 4 = none ∧ fieldOpFault apply 8 = none ∧ MayEnter apply (apply.me.readG 6) ∧ (regK apply 11).toNat = 0 ∧
    (regK (withK apply 11 1) 11).toNat = 1 ∧ (∀ n ∈ applyDescs apply.me, dState (apply.me.desc n) = 0) ∧ fieldOpFault (withK apply 11 1) 4 = none ∧
    fieldOpFault (withK apply 15 16) 4 = some (7, 16) ∧ fieldOpFault (withK apply 15 16) 8 = some (7, 16) ∧ MayEnter acc (acc.me.readG 6) := by
  refine ⟨?_, ?_, ?_, ?_, ?_, ?_, ?_, ?_, ?_, ?_, ?_, ?_, ?_, ?_, ?_⟩ <;>
    first | decide | (unfold CanRead; decide) | (unfold GoodControl; decide) | (unfold MayEnter; decide)

/-- An MMA that passes its checks, and one for each check that is the first to fail. -/
theorem wit_mma_checks : NoneFails (mmaChecks mma) ∧
    ∀ p ∈ [(0, 8, 0x10000), (1, 0, 0xFF00000000000000), (2, 2, 0xFF00000000000000), (3, 0, 0x3800000000002000), (4, 2, 0x4800000000003000),
      (5, 0, 0x4080010000002000), (6, 2, 0x4080010000003000), (7, 4, 0x10000), (8, 5, 0x10000), (9, 6, 0x100000000), (10, 7, 1),
      (11, 0, 0x4000000000002001), (12, 2, 0x4000000000003001), (13, 1, 1), (14, 3, 1)], FirstFails (mmaChecks (withK mma p.2.1 p.2.2)) p.1 := by
  simp only [List.forall_mem_cons, List.not_mem_nil, false_implies, implies_true, and_true]
  dsimp only [NoneFails, FirstFails, mmaChecks]
  unfold GoodFmt GoodPointer BesideA Divides Peer AccRange OffElement OffStride
  repeat' apply And.intro
  all_goals decide

/-- The same for ACCLD of an I32 tile, for ACCST of a block format and for ACCZ. -/
theorem wit_transfer_checks : NoneFails (transferChecks acc [8, 9, 10, 11] false) ∧ NoneFails (zeroChecks acc) ∧
    (∀ p ∈ [(0, 12, 0xFF00000000000000), (1, 12, 0x3800000000002000), (2, 4, 0x10000), (3, 5, 0x10000), (5, 7, 1), (6, 12, 0x5000000000002001), (7, 13, 1)],
      FirstFails (transferChecks (withK acc p.2.1 p.2.2) [8, 9, 10, 11] false) p.1) ∧
    FirstFails (transferChecks (withK acc 12 0x8D00000000002000) [1, 2, 3, 4, 5, 6, 7, 8, 9, 10, 11, 12, 13, 14, 15, 17, 18, 19] true) 4 ∧
    ∀ p ∈ [(0, 4, 0x10000), (1, 5, 0x10000), (2, 7, 1)], FirstFails (zeroChecks (withK acc p.2.1 p.2.2)) p.1 := by
  simp only [List.forall_mem_cons, List.not_mem_nil, false_implies, implies_true, and_true]
  dsimp only [NoneFails, FirstFails, transferChecks, zeroChecks]
  unfold GoodPointer AccRange OffElement OffStride
  repeat' apply And.intro
  all_goals decide

set_option exponentiation.threshold 600 in
set_option maxRecDepth 4000 in
/-- REV of bits 0 to 2, ROT by 2 and SWAP of bits 0 and 2; a remap to the identity and one that puts bit 2 first; the shadow over the field. -/
theorem wit_fields : permFault field 2 0x1000300 = none ∧ permFault field 2 0x2020300 = none ∧ permFault fieldId 2 0x20100 = none ∧
    permFault field 2 0x3000300 = some (7, 0x3000300) ∧ GoodRemapControl 0x40000000002 ∧ GoodRemapControl 2 ∧ ¬GoodRemapControl 0x10 ∧
    descFault field 2 = none ∧ descFault (field + 3 * 2 ^ 126) 2 = some (7, 2) ∧ dState field = 0 ∧ dState moving ≠ 0 ∧ CanRead cmp 5 ∧ MayEnter cmp 2 := by
  refine ⟨?_, ?_, ?_, ?_, ?_, ?_, ?_, ?_, ?_, ?_, ?_, ?_, ?_⟩ <;>
    first | decide | (unfold GoodRemapControl; decide) | (unfold CanRead; decide) | (unfold MayEnter; decide)

/-- The field with a base in another format or a shadow elsewhere. -/
def based (base shadow : Nat) : BitVec 512 := BitVec.ofNat 512 (field.toNat - 0x5000000000002000 - 0x4000 * 2 ^ 64 + base + shadow * 2 ^ 64)

set_option exponentiation.threshold 600 in
set_option maxRecDepth 4000 in
/-- A remap passes its checks, in place, of its mask and to its shadow; a mask out of its field, a record, 2-byte elements in place, no shadow and one
over the field. -/
theorem wit_remap_checks : NoneFails (remapChecks field 2 true none) ∧ NoneFails (remapChecks field 2 false (some 4)) ∧
    FirstFails (remapChecks field 2 false (some 8)) 0 ∧ FirstFails (remapChecks field 2 false (some 0x10000000000)) 0 ∧
    FirstFails (remapChecks (based 0x8D00000000002000 0x4000) 2 false none) 0 ∧ FirstFails (remapChecks (based 0x4000000000002000 0x4000) 2 true none) 1 ∧
    FirstFails (remapChecks (based 0x5000000000002000 0) 2 false none) 2 ∧ FirstFails (remapChecks (based 0x5000000000002000 0x201F) 2 false none) 2 ∧
    NoneFails (remapChecks (based 0x5000000000002000 0x2020) 2 false none) := by
  dsimp only [NoneFails, FirstFails, remapChecks, List.cons_append, List.nil_append]
  repeat' apply And.intro
  all_goals decide

/-- A copy of 2 rows of FP32 from VA 0x2000 to VA 0x4000, of counter 1. -/
def copy : State := withK (withK (withK (withG (withG cmp 5 0x5000000000002000) 6 0x0002100000000004) 12 0x5000000000004000) 1 16) 13 16
/-- A scrub of one unit, and a list of one block of 64 bytes to device 1. -/
def scrub : State := withK (withG (withG cmp 5 0x2000) 6 1) 12 0x4000
def blocks : State :=
  padList (withG (withG (net cmp) 5 listPtr) 6 1) [(1, 0x20), (10, 0x20), (13, 0x01), (14, 0x80), (16, 0x40)]
set_option exponentiation.threshold 600 in
set_option maxRecDepth 4000 in
theorem wit_pour_jobs :
    CanRead copy 5 ∧ MayEnter copy (copy.me.readG 6) ∧ MayEnter scrub 1 ∧ OwnList blocks listPtr 32 ∧ MayEnter blocks 1 ∧
    blockFault blocks (Block.mk (num (listNat blocks listPtr 0 8)) (num (listNat blocks listPtr 8 8)) (num (listNat blocks listPtr 16 8))
      (num (listNat blocks listPtr 24 8))) false (listPtr.toNat % 2 ^ 56) = none ∧
    ownBytes cmp 0x2000 32 = .error (7, 0x2000) := by
  refine ⟨?_, ?_, ?_, ?_, ?_, ?_, ?_⟩ <;> first | decide | (unfold CanRead; decide) | (unfold MayEnter; decide) | (unfold OwnList; decide)

/-- Copies that pass, to a peer too, and for each check one that is the first to fail: of k12, k1 or k13, of ga and of gb. -/
theorem wit_copy_checks :
    let checks (n : BitVec 6) (v ga gb : Word) (peers : Bool) := copyChecks (withK copy n v) ga gb peers
    let ga : Word := 0x5000000000002000
    let gb : Word := 0x0002100000000004
    let dst : Word := 0x5000000000004000
    NoneFails (checks 12 dst ga gb false) ∧ NoneFails (checks 12 0x5080010000004000 ga gb true) ∧ FirstFails (checks 12 dst 0xFF00000000000000 gb false) 0 ∧
    FirstFails (checks 12 0xFF00000000000000 ga gb false) 1 ∧ FirstFails (checks 12 dst ga 0x0002100100000004 false) 2 ∧
    FirstFails (checks 12 dst 0x5080010000002000 gb false) 3 ∧ FirstFails (copyChecks (net copy) 0x5080000000002000 gb true) 3 ∧
    FirstFails (checks 12 0x5080010000004000 ga gb false) 4 ∧ FirstFails (checks 12 0x5800000000004000 ga gb false) 5 ∧
    FirstFails (checks 12 dst 0x5000000000002002 gb false) 6 ∧ FirstFails (checks 12 0x5000000000004002 ga gb false) 7 ∧
    FirstFails (checks 1 2 ga gb false) 8 ∧ FirstFails (checks 13 2 ga gb false) 9 := by
  dsimp only [NoneFails, FirstFails, copyChecks]
  unfold GoodPointer Own Peer OffElement OffStride
  repeat' apply And.intro
  all_goals decide

/-- A job of the slot of cmp: stopped, or with a remap that has started, or a code-table load. -/
def aJob (opc : BitVec 8) (st : JobSt) (rs : List Remap) : Job :=
  { id := 4, ctx := 0, owner := ⟨0, 0⟩, phys := false, opc := opc, a := 0, b := 0x100000000000, dval := 0, k := Vector.replicate 64 0, d := Vector.replicate 16 0, rm := 0,
    xm := false, seed := 1, bank := false, st := st, progress := 0, flags := 0, cause := 6, fault := 0x2000, remaps := rs, list := [], part := [],
    ask := none, got := [], pend := [], sends := [], pour := none, inRemap := rs ≠ [] }
def withJob (s : State) (j : Job) : State := { s with jobs := [(0, [j])], engs := [(engKey 0 0, { EngCtx.init with nextId := 5 })] }
def begun : Remap := ⟨2, false, field, field, true, 0, 0⟩

set_option exponentiation.threshold 600 in
set_option maxRecDepth 4000 in
theorem wit_job_control :
    let s := withJob cmp (aJob 4 .stopped [])
    let r := withJob cmp (aJob 5 .stopped [begun])
    CanRead s 5 ∧ CanRead s 6 ∧ s.myJob 4 = some (aJob 4 .stopped []) ∧ cmp.myJob 4 = none ∧ r.myJob 4 = some (aJob 5 .stopped [begun]) ∧
    (aJob 5 .stopped [begun]).inRemap = true ∧ (aJob 4 .stopped []).inRemap = false ∧ GoodControl 0x100000000000 ∧ ¬GoodControl 1 ∧ GoodPointer 0x2000 ∧
    MayEnter cmp 0x100000000000 ∧ (∀ j ∈ s.jobsOf 0, j.ctx = 0 → (j.opc.toNat < 0x80 → j.bank = (s.eng 0 0).bank) ∧ j.opc ≠ 13) ∧
    (∃ j ∈ (withJob cmp (aJob 13 .queued [])).jobsOf 0, j.ctx = 0 ∧ (j.opc.toNat < 0x80 ∧ j.bank ≠ (s.eng 0 0).bank ∨ j.opc = 13)) ∧ (aJob 0x81 .stopped []).usesAcc = false := by
  refine ⟨?_, ?_, ?_, ?_, ?_, ?_, ?_, ?_, ?_, ?_, ?_, ?_, ?_, ?_⟩ <;>
    first | decide | (unfold CanRead; decide) | (unfold GoodControl; decide) | (unfold GoodPointer; decide) | (unfold MayEnter; decide)

/-! ## The slot table, the brew table and the CSRs -/

/-- Memory of the package with these bytes. -/
def withMem (s : State) (bytes : List (Nat × Byte)) : State := { s with mem := bytes.map fun b => ⟨b.1, b.2⟩ }

/-- One entry of 10,000 ns with a guard of 1,000 ns at PA 0x3000, for PSLOT with count 1 and first 63 on a control core; and one whose
guard is 0. The control pair of one slot; and one whose count is 65. -/
def slotImage : State := withMem (withG (withG ctl 5 0x3000) 6 0x13F00) [(0x3000, 0xE8), (0x3001, 0x03), (0x3004, 0x10), (0x3005, 0x27)]
def badSlotImage : State := withMem (withG (withG ctl 5 0x3000) 6 0x13F00) [(0x3004, 0x10), (0x3005, 0x27)]
def controlImage : State := withMem (withG (withG ctl 5 0x3000) 6 2) [(0x3000, 0x01)]
def badControlImage : State := withMem (withG (withG ctl 5 0x3000) 6 2) [(0x3000, 0x41)]

/-- An image in the window of device 1; and the same with bit 55 clear, in this package. -/
def peerImage : State := withG (net cmp) 5 0x80010000003000

set_option maxRecDepth 4000 in
theorem wit_peer_images : PeerImage peerImage 0x80010000003000 1 ∧ ¬PeerImage cmp 0x3000 0 ∧
    PeerImage { net ctl with cur := ctl.cur } 0x80010000003000 1 ∧ (peerImage.me.readG 5) = 0x80010000003000 := by
  unfold PeerImage ImageReady GoodPointer Own Peer; decide

set_option exponentiation.threshold 600 in
set_option maxRecDepth 4000 in
theorem wit_slot_table : CanRead slotImage 5 ∧ CanRead slotImage 6 ∧ isControl slotImage.cur.core = true ∧
    Image slotImage 0x3000 16 permR (keysFrom 0x3000 16) ∧ ¬BadSlot slotImage (wordAt slotImage (keysFrom 0x3000 16) 0, wordAt slotImage (keysFrom 0x3000 16) 1) ∧
    Image badSlotImage 0x3000 16 permR (keysFrom 0x3000 16) ∧ BadSlot badSlotImage (wordAt badSlotImage (keysFrom 0x3000 16) 0, 0) ∧
    ¬BadControl controlImage (wordAt controlImage (keysFrom 0x3000 16) 0) ∧ Image controlImage 0x3000 16 permR (keysFrom 0x3000 16) ∧
    BadControl badControlImage (wordAt badControlImage (keysFrom 0x3000 16) 0) ∧ Image badControlImage 0x3000 16 permR (keysFrom 0x3000 16) ∧
    Image cmp 0x2000 16 permW (keysFrom 0x2000 16) ∧ isControl cmp.cur.core = false ∧
    (net cmp).fab.running 0 = true ∧ ctl.fab.running 0 = false ∧ (net cmp).fab.current 0 = some (0, 0) ∧ ctl.fab.current 0 = none ∧
    ((0x13F00 : Word).toNat / 2 ^ 8 % 64 + (0x13F00 : Word).toNat / 2 ^ 16 % 128 = 64) ∧ ¬(0x13F00 : Word).toNat / 4 % 64 ≠ 0 ∧ (0x13F04 : Word).toNat / 4 % 64 ≠ 0 := by
  refine ⟨?_, ?_, ?_, ?_, ?_, ?_, ?_, ?_, ?_, ?_, ?_, ?_, ?_, ?_, ?_, ?_, ?_, ?_, ?_, ?_⟩ <;>
    first | decide | (unfold CanRead; decide) | (unfold Image ImageReady GoodPointer Own Peer; decide) | (unfold BadSlot; decide) | (unfold BadControl; decide)

/-- The context of cmp owns the brew table, which holds entry 0 for stage 0 with template 0; and with window 0 to 0 armed. -/
def owner (s : State) : State := { s with ctxs := [(0, { (s.ctx 0) with brewown := true })], brew := { s.brew with templates := [(0, List.replicate 16 0)] } }
def armedWin : State := { owner cmp with brew := { (owner cmp).brew with armed := true } }
/-- One entry of KIND 3, and a template of one group of one core, at PA 0x2000. -/
def badItem : State := withMem (owner cmp) [(0x2000, 3)]
def goodTemplate : State := withMem (owner cmp) [(0x2003, 1), (0x2004, 1)]

set_option exponentiation.threshold 600 in
set_option maxRecDepth 4000 in
theorem wit_brew_load : (cmp.ctx (cmp.ctxOf cmp.cur)).brewown = false ∧ ((owner cmp).ctx 0).brewown = true ∧ mwf 0 (owner cmp).brew.entries = true ∧
    Image (owner cmp) 0x2000 8 permR (keysFrom 0x2000 8) ∧ (owner cmp).brew.meets 0 255 1 = false ∧ armedWin.brew.meets 0 0 1 = true ∧
    Image armedWin 0x2000 8 permR (keysFrom 0x2000 8) ∧ itemBad 0 0 0 [wordAt badItem (keysFrom 0x2000 8) 0] = true ∧
    itemBad 0 0 0 [wordAt (owner cmp) (keysFrom 0x2000 8) 0] = false ∧ itemBad 0 0 2 [wordAt (owner cmp) (keysFrom 0x2000 8) 0] = false ∧
    Image goodTemplate 0x2000 128 permR (keysFrom 0x2000 128) ∧
    itemBad 0 0 1 ((List.range 16).map fun k => wordAt goodTemplate (keysFrom 0x2000 128) k) = false ∧
    itemBad 4 8 1 ((List.range 16).map fun k => wordAt goodTemplate (keysFrom 0x2000 128) k) = true := by
  refine ⟨?_, ?_, ?_, ?_, ?_, ?_, ?_, ?_, ?_, ?_, ?_, ?_, ?_⟩ <;> first | decide | (unfold Image ImageReady GoodPointer Own Peer; decide)

set_option exponentiation.threshold 600 in
set_option maxRecDepth 4000 in
theorem wit_brew_arm_and_query : armedWin.brew.armed = true ∧ armedWin.brew.done = false ∧ (owner cmp).brew.armed = false ∧
    ¬CannotRun (owner cmp).brew 0 0 ∧ CannotRun (owner cmp).brew 1 0 ∧ CannotRun cmp.brew 0 255 ∧ (owner cmp).myCore.outstFull = false ∧
    (withReq (owner cmp) (.st 3 0x3000 0x3000 1)).ordered 4 = false ∧ (owner cmp).ordered 4 = true ∧ (net (owner cmp)).fab.reaches 1 = true := by
  unfold CannotRun; decide

def heldStash : State := { owner cmp with brew := { (owner cmp).brew with stash := [(63, ⟨0x2000, true, some 5⟩)] } }

set_option exponentiation.threshold 600 in
set_option maxRecDepth 4000 in
theorem wit_brew_free : (heldStash.ctx (heldStash.ctxOf heldStash.cur)).brewown = true ∧ heldStash.myCore.outstFull = false ∧
    ((withG heldStash 5 63).me.readG 5).toNat < 64 ∧ 64 ≤ ((withG heldStash 5 64).me.readG 5).toNat ∧ heldStash.ordered 4 = true ∧
    (heldStash.brew.stashAt 63).held ≠ none ∧ (heldStash.brew.stashAt 62).held = none ∧ CanRead heldStash 5 ∧ CanRead heldStash 6 ∧
    (withReq heldStash (.st 3 0x3000 0x3000 1)).ordered 4 = false := by unfold CanRead; decide

set_option exponentiation.threshold 600 in
set_option maxRecDepth 4000 in
/-- CSR numbers 0x7FF and 0xFFF are of no register; values that a register takes and that it does not. -/
theorem wit_csrs : CanWrite cmp 5 ∧ CanRead cmp 6 ∧ isControl ctl.cur.core = true ∧ isControl cmp.cur.core = false ∧ (∀ p ∈ csrTable, p.1 ≠ 0x7FF) ∧
    (∀ p ∈ csrTable, p.1 ≠ 0xFFF) ∧ (4 : Word).toNat % 8 < 5 ∧ ¬(5 : Word).toNat % 8 < 5 ∧ (64 : Word).toNat % 64 = 0 ∧ (63 : Word).toNat % 64 ≠ 0 := by
  unfold CanRead CanWrite; decide

/-- VALLOC: 8 registers at 96 are free, 4 at 32 are taken, base 2 is not legal; an empty register makes it wait. -/
def emptyV : State := cmp.modCore 0 fun c => { c with vt := c.vt.set 31 .empty }
def busySlot : State := cmp.modSlot ⟨0, 1⟩ fun x => { x with act := some ⟨.channel 4, 0, none⟩ }
def shortV (s : State) : State := [1, 2, 3].foldl (fun t o => t.modSlot ⟨t.cur.core, o⟩ fun x => { x with valloc := 0x20 }) s

set_option exponentiation.threshold 600 in
set_option maxRecDepth 4000 in
theorem wit_valloc : CanWrite cmp 5 ∧ CanRead cmp 6 ∧ ¬(2 % 4 = 0) ∧ 96 + 8 ≤ 128 ∧ (∀ o : Fin 4, o ≠ (shortV cmp).cur.slot →
      ((shortV cmp).myCore.slot o).vbase + ((shortV cmp).myCore.slot o).vcount ≤ 96) ∧
    (∃ o : Fin 4, o ≠ cmp.cur.slot ∧ (cmp.myCore.slot o).vbase ≤ 32 ∧ 32 < (cmp.myCore.slot o).vbase + (cmp.myCore.slot o).vcount) ∧
    emptyV.me.vbase ≤ 31 ∧ 31 < emptyV.me.vbase + emptyV.me.vcount ∧ emptyV.myCore.tagV 31 = .empty ∧ cmp.myCore.tagV 31 = .full := by
  unfold CanRead CanWrite; decide

set_option exponentiation.threshold 600 in
set_option maxRecDepth 4000 in
theorem wit_command_registers : Memory.wf cmp.mem = true ∧ (∀ o : Fin 4, o ≠ cmp.cur.slot → (cmp.myCore.slot o).act = none) ∧
    (∃ o : Fin 4, o ≠ busySlot.cur.slot ∧ (busySlot.myCore.slot o).act ≠ none) ∧ ctl.sched.busy = false ∧
    { ctl with sched := { ctl.sched with busy := true } }.sched.busy = true ∧ ctl.xinvBusy 0x10000 = false ∧
    { withReq cmp (.store 3 0x10000 1) with cur := ctl.cur }.xinvBusy 0x10000 = true ∧ ctl.grantBusy 255 = false ∧ ctl.fab.grantRun = none ∧
    { ctl with fab := { ctl.fab with grantRun := some (ctl.cur, 5) } }.fab.grantRun = some (ctl.cur, 5) ∧
    (0x1FF : Word).toNat / 2 ^ 8 % 4 = 1 ∧ (0xFF : Word).toNat / 2 ^ 8 % 4 = 0 ∧ 2 ≤ (0x2FF : Word).toNat / 2 ^ 8 % 4 ∧
    (4 : Word).toNat % 16 = 4 ∧ (5 : Word).toNat % 16 = 5 ∧ (0x4001 : Word).toNat / 2 ^ 14 ≠ 0 ∧
    (withMem ctl [(7, 0x80)]).read 0 8 / 2 ^ 63 % 2 = 1 ∧ ctl.read 0 8 / 2 ^ 63 % 2 = 0 ∧ CanRead ctl 6 ∧ CanWrite ctl 5 := by
  unfold CanRead CanWrite; decide

/-! ## Traps -/

/-- cmp with UE set and its record at VA 0x4000; with an upcall vector but no page for the record; with a posted store in flight. -/
def upc : State := cmp.modMe fun x => { x with upvec := 0x8001, upsave := 0x4000 }
def noRecord : State := cmp.modMe fun x => { x with upvec := 0x8001, upsave := 0x400000 }
def busyUpc : State := withReq upc (.st 3 0x3000 0x3000 1)
def kern : State := ctl.modMe fun x => { x with kvec := 0x8001 }

/-- An entry that has parked. -/
def parkedLoad : Replay := ⟨1, 0x400000, 0, 3, 5, 0, 6, 0x400000, 0, 0⟩
def withParked (s : State) : State := s.modMe fun x => { x with parked := [parkedLoad] }

theorem record_at : upc.recordLoc upc.cur permW = .ok ⟨keysFrom 0x4000 1920, true, false, false⟩ := by decide +kernel
theorem record_nodup : (keysFrom 0x4000 1920).Nodup :=
  (List.nodup_range).map fun _ _ h => Nat.add_left_cancel h

set_option exponentiation.threshold 600 in
set_option maxRecDepth 4000 in
theorem wit_traps : isControl kern.cur.core = true ∧ (kern.slot kern.cur).kvec.getLsbD 0 = true ∧ isControl upc.cur.core = false ∧
    (upc.slot upc.cur).upvec.getLsbD 0 = true ∧ upc.trapReady upc.cur = true ∧ busyUpc.trapReady busyUpc.cur = false ∧
    (withReq upc (.ldn 5 3 0x3000 0x3000)).me.settled = false ∧
    Memory.wf upc.mem = true ∧ (withParked upc).me.parked.length = 1 := by decide

set_option exponentiation.threshold 600 in
set_option maxRecDepth 4000 in
theorem wit_undeliverable : (cmp.slot cmp.cur).upvec.getLsbD 0 = false ∧ noRecord.trapReady noRecord.cur = true ∧
    noRecord.recordLoc noRecord.cur permW = .error 6 ∧ cmp.waiters = [] ∧ (cmp.ctx (cmp.ctxOf cmp.cur)).st = .running ∧
    (ctl.ctx (ctl.ctxOf ctl.cur)).st ≠ .running ∧ (ctl.slot ctl.cur).kvec.getLsbD 0 = false := by decide

def heldTrap : State := upc.modMe fun x => { x with trap := some ⟨7, 0x1234, 0x1000, 0⟩ }
def reported : State := upc.modMe fun x => { x with events := [(0, 4)] }
def interrupted : State := { kern with sched := { kern.sched with ints := [(0, 1, 0)] } }

set_option exponentiation.threshold 600 in
set_option maxRecDepth 4000 in
theorem wit_trap_events : heldTrap.me.trap = some ⟨7, 0x1234, 0x1000, 0⟩ ∧ heldTrap.trapReady heldTrap.cur = true ∧ heldTrap.me.upvec.getLsbD 0 = true ∧
    (withParked upc).me.parked = [parkedLoad] ∧ parkedLoad.kind ≠ 3 ∧ (withParked upc).me.atBoundary = true ∧ (withParked upc).me.trap = none ∧
    (withParked upc).me.act ≠ none ∧ (withParked upc).me.engFirst = false ∧
    reported.me.engFirst = true ∧ reported.me.upvec.getLsbD 0 = true ∧ reported.me.events = [(0, 4)] ∧ reported.me.atBoundary = true ∧ reported.me.trap = none ∧ reported.me.act ≠ none ∧
    interrupted.me.kvec.getLsbD 0 = true ∧ interrupted.me.atBoundary = true ∧ interrupted.me.trap = none ∧
    interrupted.sched.ints.find? (fun j => j.1 = interrupted.cur.core - 102400) = some (0, 1, 0) := by decide

theorem record_read : upc.recordLoc upc.cur permR = .ok ⟨keysFrom 0x4000 1920, true, false, false⟩ := by decide +kernel
def badRecord : State := withMem upc [(0x4160, 65)]
theorem bad_record_read : badRecord.recordLoc badRecord.cur permR = .ok ⟨keysFrom 0x4000 1920, true, false, false⟩ := by decide +kernel

set_option exponentiation.threshold 600 in
set_option maxRecDepth 4000 in
theorem wit_returns : (withReq upc (.ldn 5 3 0x3000 0x3000)).me.settled = false ∧ upc.me.settled = true ∧ upc.me.waitsFor 0x4000 1920 = false ∧
    upc.me.parkedOver 0x4000 1920 = false ∧ upc.isPoisoned (keysFrom 0x4000 1920) = false ∧ upc.myCore.outst = 0 ∧ kern.me.ktpc.toNat % 4 = 0 ∧
    isControl upc.cur.core = false ∧ isControl kern.cur.core = true := by
  refine ⟨?_, ?_, ?_, ?_, ?_, ?_, ?_, ?_, ?_⟩ <;> decide
set_option exponentiation.threshold 600 in
set_option maxRecDepth 4000 in
theorem wit_record_ok : recordOk (upc.seen upc.cur.core (keysFrom 0x4000 1920)) = true := by decide +kernel
set_option exponentiation.threshold 600 in
set_option maxRecDepth 4000 in
theorem wit_record_bad : recordOk (badRecord.seen badRecord.cur.core (keysFrom 0x4000 1920)) = false := by decide +kernel

/-- A record with one entry, a store to device 1, which is reachable. -/
def peerRecord : State := withMem (net upc) [(0x4160, 1), (0x4181, 0x20), (0x4185, 1), (0x4186, 0x80), (0x4190, 2), (0x4191, 0x30)]

set_option exponentiation.threshold 600 in
set_option maxRecDepth 4000 in
theorem wit_record_to_peer : recordOk (peerRecord.seen peerRecord.cur.core (keysFrom 0x4000 1920)) = true ∧
    leNat (((peerRecord.seen peerRecord.cur.core (keysFrom 0x4000 1920)).drop 384).take 8) = 0x80010000002000 ∧ peerRecord.fab.reaches 1 = true := by
  refine ⟨?_, ?_, ?_⟩ <;> decide +kernel

/-- Context 0 with a service queue of 4 entries at PA 0x10000, the first of them free, or full; and one whose queue is not mapped. -/
def serving (tags : SMap Bool) : State := { cmp with ctxs := [(0, { (cmp.ctx 0) with sqbase := 0x10000, sqlog := 2 })], tags := tags }
def noService : State := { cmp with ctxs := [(0, { (cmp.ctx 0) with sqbase := 0x400000, sqlog := 2 })] }
def freeEntry : SMap Bool := [(0x4010, false), (0x4011, false)]
def woken : State := cmp.modMe fun x => { x with wait := .wfe true }

set_option exponentiation.threshold 600 in
set_option maxRecDepth 4000 in
theorem wit_services : CanRead cmp 5 ∧ CanWrite cmp 6 ∧ busyUpc.ordered 4 = false ∧ (serving freeEntry).ordered 4 = true ∧
    (serving freeEntry).queueLoc 0 0x10000 64 = some (keysFrom 0x10000 64) ∧ (serving freeEntry).queueLoc 0 0x10040 32 = some (keysFrom 0x10040 32) ∧
    (wordsOf ((keysFrom 0x10040 32).take 8)).any (serving freeEntry).tagFull = false ∧ (wordsOf ((keysFrom 0x10040 32).take 8)).any (serving []).tagFull = true ∧
    { serving freeEntry with poison := [(0x4000, true)] }.isPoisoned ((keysFrom 0x10000 64).take 16) = true ∧
    (keysFrom 0x10000 64 ++ keysFrom 0x10040 32).Nodup ∧ mwf true freeEntry = true ∧ noService.queueLoc 0 0x400000 64 = none ∧
    woken.me.wait = .wfe true ∧ (∀ b, cmp.me.wait ≠ .wfe b) ∧ (withG { cmp with time := 9 } 5 9).me.readG 5 ≠ 0 ∧
    ((withG { cmp with time := 9 } 5 9).me.readG 5).toNat ≤ 9 := by
  unfold CanRead CanWrite
  refine ⟨?_, ?_, ?_, ?_, ?_, ?_, ?_, ?_, ?_, ?_, ?_, ?_, ?_, ?_, ?_, ?_⟩ <;> decide +kernel

/-- A microprogram of one word at PA 0x3000, END or a word that is none. -/
def routineImage (top : Byte) : State := withMem ctl (((0x3000, 0x01)) :: (0x3001, 0x08) :: if top = 0 then [] else [(0x300B, top)])

set_option exponentiation.threshold 600 in
set_option maxRecDepth 4000 in
theorem wit_routine_loads :
    let s := withG (routineImage 0) 5 0x3000
    CanRead s 5 ∧ CanWrite s 6 ∧ isControl s.cur.core = true ∧ GoodPointer 0x3000 ∧ ¬Own s 0x3000 ∧ s.me.acquiring = false ∧
    s.me.waitsFor 0x3000 264 = false ∧ s.resolve (s.agent s.cur) 0x3000 8 permR = .ok ⟨keysFrom 0x3000 8, true, false, false⟩ ∧
    s.isPoisoned (keysFrom 0x3000 8) = false ∧ leNat (s.bytes (keysFrom 0x3000 8)) = 0x801 ∧ routldHead 8 0x801 = 0 ∧ routldHead 63 0x801 = 0 ∧
    routldHead 7 0x801 = 2 ∧ routldHead 8 0 = 1 ∧ s.resolve (s.agent s.cur) 0x3008 4 permR = .ok ⟨keysFrom 0x3008 4, true, false, false⟩ ∧
    routldCode 0x801 [0] = 0 ∧ routldCode 0x801 [0xFF000000] = 3 ∧
    (routineImage 0xFF).bytes (keysFrom 0x3008 4) = [0, 0, 0, 0xFF] ∧ isControl cmp.cur.core = false := by
  unfold CanRead CanWrite GoodPointer Own Peer
  refine ⟨?_, ?_, ?_, ?_, ?_, ?_, ?_, ?_, ?_, ?_, ?_, ?_, ?_, ?_, ?_, ?_, ?_, ?_, ?_⟩ <;> decide +kernel

/-! ## Requests -/

def one : SlotId := ⟨0, 0⟩
/-- Slot 0 of core 0 waits: at issue; in a WFE to g6 with limit 9; with a region that failed, whose pending load TLIM gives up. -/
def retrying : State := cmp.modMe fun x => { x with wait := .retry }
def wfeWaits (b : Bool) : State := { cmp with time := 9 }.modMe fun x => { x with wait := .wfe b, wfeReg := 6, wfeLimit := 9 }
def failedRegion : State := cmp.modMe fun x => { x with region := some ⟨4, 0x2000, x.g, x.gt, some (0x101, 0)⟩ }
def failedLong : State :=
  { withReq cmp (.ldn 5 3 0x3000 0x3000) with time := 10000000 }.modMe fun x => { x with region := some ⟨4, 0x2000, x.g, x.gt, some (0x101, 0)⟩ }

set_option exponentiation.threshold 600 in
set_option maxRecDepth 4000 in
theorem wit_waiting_slots : (retrying.slot one).wait = .retry ∧ ((wfeWaits false).slot one).wait = .wfe false ∧ ((wfeWaits false).slot one).wfeLimit ≠ 0 ∧
    ((wfeWaits false).slot one).wfeLimit.toNat ≤ (wfeWaits false).time ∧ ((wfeWaits true).slot one).wait = .wfe true ∧
    (failedRegion.slot one).region = some ⟨4, 0x2000, cmp.me.g, cmp.me.gt, some (0x101, 0)⟩ ∧ (∀ r ∈ (failedRegion.slot one).reqs, r.region = false) ∧
    (failedRegion.slot one).settled = true ∧ (failedRegion.slot one).atBoundary = true ∧ (failedRegion.ctx (failedRegion.ctxOf one)).st ≠ .saving ∧
    (failedLong.slot one).settled = false ∧ (failedLong.slot one).region.isSome ∧ (failedLong.slot one).atBoundary = true ∧
    (failedLong.ctx (failedLong.ctxOf one)).st ≠ .saving ∧ 0 + failedLong.fab.tlim ≤ failedLong.time := by decide

/-- Request 0 of the slot, as withReq puts it there; lanes 3 and 9 of a vector load that failed. -/
def req0 (k : ReqKind) : Req := ⟨0, k, true, false, false, false, 0, 0, false⟩
def word4 : Loc := ⟨keysFrom 0x2000 4, true, false, false⟩
def twoBad : List (Nat × BitVec 8 × Word) := [(9, 12, 0x2000), (3, 6, 0x400000)]
/-- An access at VA 0x2000 in flight, and one at VA 0x400000, which is not mapped. -/
def landing : State := withReq upc (.ldn 5 3 0x2000 0x2000)
def lost : State := withReq upc (.ldn 5 3 0x400000 0x400000)
def lostStore : State := withReq upc (.st 3 0x400000 0x400000 7)

set_option exponentiation.threshold 600 in
set_option maxRecDepth 4000 in
theorem wit_producers : ((withReq upc (.eng 5 7)).slot one).req 0 = some (req0 (.eng 5 7)) ∧ (landing.slot one).req 0 = some (req0 (.ldn 5 3 0x2000 0x2000)) ∧
    Ready landing one (req0 (.ldn 5 3 0x2000 0x2000)) 0x2000 8 permR here ∧ (landing.slot one).clear 0 0x2000 8 = true ∧
    Ready (withReq upc (.vld 3 4 7 [(15, 0x2000)] [])) one (req0 (.vld 3 4 7 [(15, 0x2000)] [])) 0x2000 4 permR word4 ∧
    Ready (withReq upc (.vld 127 4 7 [(0, 0x2000)] twoBad)) one (req0 (.vld 127 4 7 [(0, 0x2000)] twoBad)) 0x2000 4 permR word4 ∧
    (∀ q ∈ twoBad, q = (3, 6, 0x400000) ∨ 3 < q.1) := by unfold Ready; decide

theorem wit_landing_poison : ¬MeetsPoison landing 0 0x2000 here ∧ MeetsPoison { landing with poison := [(0x801, true)] } 0 0x2000 here := by
  constructor
  · rintro ⟨i, k, h, q⟩
    have e : landing.poison = [] := by decide
    have d : (landing.core 0).dcache = [] := by decide
    rw [d, e] at q
    split at q
    · rename_i c hc
      split at hc <;> simp at hc
    · simp [mget] at q
  · exact ⟨4, 0x2004, by decide, (by decide : mget false [(0x801, true)] (0x2004 / 4) = true)⟩

set_option exponentiation.threshold 600 in
set_option maxRecDepth 4000 in
theorem wit_posted_stores : ((withReq upc (.st 3 0x2000 0x2000 7)).slot one).req 0 = some (req0 (.st 3 0x2000 0x2000 7)) ∧
    Ready (withReq upc (.st 3 0x2000 0x2000 7)) one (req0 (.st 3 0x2000 0x2000 7)) 0x2000 8 permW here ∧ here.keys.Nodup ∧ Memory.wf upc.mem = true ∧
    (withReq upc (.st 3 0x2000 0x2000 7)).forwards 0 here = true ∧ (withReq upc (.st 3 0x2000 0x2000 7)).sliceClash 0 here.keys = false ∧
    Ready (withReq upc (.vst [(5, 0x2000, [1, 2, 3, 4])])) one (req0 (.vst [(5, 0x2000, [1, 2, 3, 4])])) 0x2000 4 permW word4 ∧
    (let k : ReqKind := .st 3 (num (winBase + 8)) (num (winBase + 8)) 7
     let l : Loc := ⟨keysFrom (padKey 0 8) 8, true, false, true⟩
     Ready (withReq upc k) one (req0 k) (winBase + 8) 8 permW l ∧ (withReq upc k).forwards 0 l = false ∧ (withReq upc k).sliceOver 0 l.keys = false ∧
     l.keys.Nodup ∧ winBase + 8 < 2 ^ 55) := by unfold Ready; decide

/-- A store of n bytes that the slices hold. -/
def sliceOf (num : Nat) (sl : SlotId) (key n : Nat) : SliceStore := ⟨num, sl, 0, 0, key, keysFrom key n, List.replicate n 1, none, []⟩
def draining (l : List SliceStore) : State := { withReq upc (.vst []) with slices := l }
def storing (k : ReqKind) (l : List SliceStore) : State := { withReq upc k with slices := l }

set_option exponentiation.threshold 600 in
set_option maxRecDepth 4000 in
/-- What a posted store waits for: an earlier access of its slot over its bytes; a store of its own die's slices over its word, where they do not
take it; a byte of the word in the slices of another die, where they do. -/
theorem wit_posted_stores_wait :
    (∃ q ∈ (withReq upc (.st 3 0x2000 0x2000 7)).me.reqs, q.num < 1 ∧ ∃ p ∈ q.kind.spans, 0x2004 < p.1 + p.2 ∧ p.1 < 0x2004 + 4) ∧
    (let k : ReqKind := .st 3 (num (winBase + 8)) (num (winBase + 8)) 7
     let l : Loc := ⟨keysFrom (padKey 0 8) 8, true, false, true⟩
     let s := storing k [sliceOf 5 ⟨1, 0⟩ (padKey 0 8) 4]
     Ready s one (req0 k) (winBase + 8) 8 permW l ∧ s.forwards 0 l = false ∧
       ∃ e ∈ s.slices, dieOf e.sl.core = dieOf 0 ∧ ∃ k ∈ e.keys, ∃ q ∈ l.keys, q / 4 = k / 4) ∧
    (let s := storing (.st 3 0x2000 0x2000 7) [sliceOf 5 ⟨12800, 0⟩ 0x2001 1]
     Ready s one (req0 (.st 3 0x2000 0x2000 7)) 0x2000 8 permW here ∧ s.forwards 0 here = true ∧ s.sliceClash 0 here.keys = true ∧
       (storing (.st 3 0x2000 0x2000 7) [sliceOf 5 ⟨12800, 0⟩ 0x2000 8]).sliceClash 0 here.keys = false) := by unfold Ready; decide

set_option exponentiation.threshold 600 in
set_option maxRecDepth 4000 in
/-- The slices hold two stores of request 0 at VA 0x2000, behind one of another core of the die to another word; and one to the same word. -/
theorem wit_slices_drain :
    let s := draining ([sliceOf 5 ⟨1, 0⟩ 0x2004 4] ++ sliceOf 6 one 0x2000 4 :: [sliceOf 7 one 0x2000 4])
    (s.slot one).req 0 = some (req0 (.vst [])) ∧ (∀ b ∈ [sliceOf 5 ⟨1, 0⟩ 0x2004 4], ¬(b.sl = one ∧ b.req = 0) ∧
      ∀ k ∈ b.keys, ∀ q ∈ (sliceOf 6 one 0x2000 4).keys, q / 4 ≠ k / 4) ∧
    s.canMerge (keysFrom 0x2000 4) = true ∧ (keysFrom 0x2000 4).Nodup ∧ s.waiters = [] ∧ (sliceOf 6 one 0x2000 4).full = [] ∧
    (∃ b ∈ [sliceOf 7 one 0x2000 4], b.sl = one ∧ b.req = 0) ∧
    (∃ b ∈ [sliceOf 5 ⟨1, 0⟩ 0x2001 1], ∃ k ∈ b.keys, ∃ q ∈ (sliceOf 6 one 0x2000 4).keys, q / 4 = k / 4) := by decide

def twoLost : State :=
  upc.modMe fun x => { x with reqs := [req0 (.ldn 5 3 0x400000 0x400000), { req0 (.ldn 6 3 0x400000 0x400000) with num := 1 }] }
set_option exponentiation.threshold 600 in
set_option maxRecDepth 4000 in
theorem wit_parking : (lost.slot one).req 0 = some (req0 (.ldn 5 3 0x400000 0x400000)) ∧ (lost.slot one).act ≠ none ∧
    (lost.slot one).upvec.getLsbD 0 = true ∧ (∀ q ∈ (lost.slot one).reqs, q.num < 0 → lost.parkOf one q = none) ∧
    lost.resolve ((req0 (.ldn 5 3 0x400000 0x400000)).agent one) 0x400000 8 permR = .error 6 ∧
    lostStore.resolve ((req0 (.st 3 0x400000 0x400000 7)).agent one) 0x400000 8 permW = .error 6 ∧
    (lostStore.slot one).req 0 = some (req0 (.st 3 0x400000 0x400000 7)) ∧ ((withReq cmp (.st 3 0x400000 0x400000 7)).slot one).upvec.getLsbD 0 = false ∧
    (∃ q ∈ (twoLost.slot one).reqs, q.num < 1 ∧ (twoLost.parkOf one q).isSome = true) := by decide

def waitFull : State := { withReq cmp (.load 5 3 0x2000 true) with waiters := [⟨one, 0, 0x2000, 8, .ldfe⟩] }
/-- An older waiter whose word is empty stands before it. -/
def older : Waiter := ⟨⟨1, 0⟩, 4, 0x3000, 8, .ldf⟩
def waitSecond : State := { waitFull with waiters := [older, ⟨one, 0, 0x2000, 8, .ldfe⟩], tags := [(0xC00, false)] }
def waitEmpty : State := { withReq cmp (.store 3 0x2000 7) with waiters := [⟨one, 0, 0x2000, 8, .ste⟩], tags := [(0x800, false), (0x801, false)] }
set_option exponentiation.threshold 600 in
set_option maxRecDepth 4000 in
theorem wit_tag_waiters : ((waitFull.slot one).req 0).isSome ∧ waitFull.isPoisoned (keysFrom 0x2000 8) = false ∧ waitFull.sliceOver 0 (keysFrom 0x2000 8) = false ∧ mwf true waitFull.tags = true ∧
    (∀ i, i < 8 → waitFull.tagFull ((0x2000 + i) / 4) = true) ∧ ((waitEmpty.slot one).req 0).isSome ∧ mwf true waitEmpty.tags = true ∧
    (∀ i, i < 8 → waitEmpty.tagFull ((0x2000 + i) / 4) = false) ∧ waitEmpty.isPoisoned (keysFrom 0x2000 8) = false ∧
    waitSecond.waiters = [older] ++ ⟨one, 0, 0x2000, bytesOf 3, .ldfe⟩ :: [] ∧ older.holds waitSecond = false ∧ mwf true waitSecond.tags = true ∧
    (∀ i, i < 8 → waitSecond.tagFull ((0x2000 + i) / 4) = true) ∧ (∀ w ∈ waitFull.waiters, 0x700 ∉ (keysFrom w.key w.n).map (· / 4)) := by decide

/-- ADD32 with a reply, and RDCF32 where the count is 1. -/
def shipped (n : Nat) (reply : Bool) : State := withMem (withReq cmp (.ship n 5 reply (decide (n % 16 ≠ 0)) 0x2000 3 0)) [(0x2004, 1)]
set_option exponentiation.threshold 600 in
set_option maxRecDepth 4000 in
theorem wit_routines : ((shipped 0 true).slot one).req 0 = some (req0 (.ship 0 5 true false 0x2000 3 0)) ∧
    Ready (shipped 0 true) one (req0 (.ship 0 5 true false 0x2000 3 0)) 0x2000 4 permRW ⟨keysFrom 0x2000 4, true, false, false⟩ ∧ Memory.wf (shipped 0 true).mem = true ∧ cmp.waiters = [] ∧
    (shipped 0 true).sliceOver 0 (keysFrom 0x2000 4) = false ∧
    Ready (shipped 31 false) one (req0 (.ship 31 5 false true 0x2000 3 0)) 0x2000 8 permRW here ∧ leNat ((shipped 31 false).bytes here.keys) / 2 ^ 32 = 1 := by unfold Ready; decide

def chained (p : Word) (off : Word32) (rest : List (Word32 × Word)) : State := withReq cmp (.chain 5 p 0 7 ((off, 0xFF) :: rest) none)
set_option exponentiation.threshold 600 in
set_option maxRecDepth 4000 in
theorem wit_chain_steps : ((chained 0x2000 8 []).slot one).req 0 = some (req0 (.chain 5 0x2000 0 7 [(8, 0xFF)] none)) ∧
    ¬GoodPointer 0xFF00000000000000 ∧ GoodPointer 0x2000 ∧ (0x2001 : Nat) % 8 ≠ 0 ∧ (0x2008 : Nat) < winBase ∧ 7 < 8 ∧
    (chained 0x400000 0 []).resolve ((req0 (.post)).agent one) 0x400000 8 permR = .error 6 ∧
    (chained 0x2000 8 [(0, 0)]).resolve ((req0 (.post)).agent one) 0x2008 8 permR = .ok ⟨keysFrom 0x2008 8, true, false, false⟩ ∧
    cmp.isPoisoned (keysFrom 0x2008 8) = false ∧
    ((chained 0x2000 8 [(0, 0)]).slot one).clear 0 0x2008 8 = true ∧ (chained 0x2000 8 []).sliceOver 0 (keysFrom 0x2008 8) = false ∧ 8 ≤ 8 := by unfold GoodPointer; decide

/-- A load of device 1 whose frame waits for its answer. -/
def readFrame (b : FrameBody) : Frame := ⟨0, 1, one, 0, 3, 0, 0, 0, b⟩
def remoteLoad (k : ReqKind) (b : FrameBody) : State :=
  let s := (net cmp).modMe fun x => { x with reqs := [{ req0 k with peer := true }] }
  { s with fab := { s.fab with sent := [readFrame b] } }
set_option exponentiation.threshold 600 in
set_option maxRecDepth 4000 in
theorem wit_peer_answers :
    let l := remoteLoad (.ldn 5 3 0x80010000002000 0x80010000002000) (.access (.read 0x2000 8))
    (∀ b ∈ [FrameBody.access (.read 0x2000 8), .access (.syncLoad 0x2000 8 true)], asks (readFrame b) one 0 = true ∧ (readFrame b).elem = 3 ∧ (readFrame b).dst = 1) ∧ l.fab.sent = [] ++ readFrame (.access (.read 0x2000 8)) :: [] ∧
    (∀ g ∈ l.fab.sent ++ l.fab.queue, g.body ≠ .withdraw) ∧
    (l.slot one).req 0 = some { req0 (.ldn 5 3 0x80010000002000 0x80010000002000) with peer := true } ∧ (List.replicate 8 (0 : Byte)).length = bytesOf 3 ∧
    ((remoteLoad (.load 5 3 0x80010000002000 true) (.access (.syncLoad 0x2000 8 true))).slot one).req 0 =
      some { req0 (.load 5 3 0x80010000002000 true) with peer := true } ∧
    (let q := { req0 (.load 5 3 0x80010000002000 false) with peer := true }
     q.region = false ∧ q.quiet = false ∧ (1 : Nat) ≤ 6) ∧
    ((remoteLoad (.store 3 0x80010000002000 7) (.access (.read 0x2000 8))).slot one).req 0 = some { req0 (.store 3 0x80010000002000 7) with peer := true } ∧
    (l.fab.queue ++ l.fab.sent).filter (fun g => asks g one 0) = [readFrame (.access (.read 0x2000 8))] ∧ l.fab.ctrl.getLsbD 8 = true ∧
    cmp.fab.ctrl.getLsbD 8 = false ∧ ((l.fab.slots.toList.take (l.fab.ctrl.toNat % 128)).map fun e => e.1.toNat / 2 ^ 32).sum = 10000 ∧
    0 + (2 * 10000 + 1000000) ≤ { l with time := 1020000 }.time ∧ (∀ m ∈ (net cmp).myCore.outq, m.region ≠ some (one, 0)) := by
  refine ⟨?_, ?_, ?_, ?_, ?_, ?_, ?_, ?_, ?_, ?_, ?_, ?_, ?_, ?_⟩ <;> decide

/-- Context 0 with a fault queue of 4 entries at PA 0x10000. -/
def queueing : State :=
  { cmp with ctxs := [(0, { (cmp.ctx 0) with fqbase := 0x10000, fqlog := 2 })], sched := { cmp.sched with ctxtab := 0x20000 } }
set_option exponentiation.threshold 600 in
set_option maxRecDepth 4000 in
theorem wit_fault_records : queueing.queueLoc 0 0x10000 64 = some (keysFrom 0x10000 64) ∧ queueing.queueLoc 0 0x10040 64 = some (keysFrom 0x10040 64) ∧
    (wordsOf ((keysFrom 0x10040 64).take 8)).any { queueing with tags := (List.range 16).map fun i => (0x4010 + i, false) }.tagFull = false ∧
    (keysFrom 0x10000 64 ++ keysFrom 0x10040 64).Nodup ∧ (∀ i, i < 8 → 0x20000 + i ∉ keysFrom 0x10000 64 ++ keysFrom 0x10040 64) ∧
    mwf true ((List.range 16).map fun i => (0x4010 + i, false)) = true ∧ (queueing.ctx 0).st = .running := by
  refine ⟨?_, ?_, ?_, ?_, ?_, ?_, ?_⟩ <;> decide +kernel

/-! ## Activations -/

/-- A message of context 0 from core 1 of cluster 0 for channel 3 of core 0: handler 0x1100 and one word of payload; or a counter message. -/
def aMsg (dec : Option (BitVec 16)) : Msg := ⟨3 * 2 ^ 19, 4, false, 0, dec, [0x1100, 0, 77], [0], false, false, none, none, []⟩
def queued (dec : Option (BitVec 16)) : State := { cmp with net := [aMsg dec] }
def fullIn : State := { queued none with cores := [(0, { cmp.myCore with inq := List.replicate 64 (aMsg none) })] }

set_option exponentiation.threshold 600 in
set_option maxRecDepth 4000 in
theorem wit_arrivals : ((queued none).msgs none)[0]? = some (aMsg none) ∧ (aMsg none).dest.getLsbD 55 = false ∧ 0 ∈ (aMsg none).targets ∧
    (queued none).mayLeave none 0 0 (aMsg none) = true ∧ ((queued none).core 0).ctx = some (aMsg none).ctx ∧ (cmp.core 0).inq.length < 64 ∧
    64 ≤ (fullIn.core 0).inq.length ∧ (fullIn.core 0).ctx = some 0 ∧ ({ queued none with cores := [] }.core 0).ctx ≠ some 0 ∧
    (∀ k ∈ ((queued none).ctx 0).savedCores, k.coord ≠ 0) ∧ ((queued (some 1)).msgs none)[0]? = some (aMsg (some 1)) ∧
    (queued (some 1)).mayLeave none 0 0 (aMsg (some 1)) = true ∧ Memory.wf cmp.mem = true ∧ (aMsg (some 1)).targets = [0] := by decide

/-- Slot 0 is free, channel 3 is unmasked with a region of one word at 0x800; a message for it is queued, or it has fired. -/
def ready3 (e : Channel) (ms : List Msg) : State :=
  let c : Core := { cmp.myCore with slots := Core.init.slots, inq := ms, ch := (Vector.replicate 32 Channel.init).set 3 e }
  { cmp with cores := [(0, c)], ctxs := [(0, { (cmp.ctx 0) with tbndlo := 0x1000, tbndhi := 0x2000 })] }
def open3 : Channel := { Channel.init with mask := false, rlen := 1, rbase := 0x800, haddr := 0x1200 }
def toStart : State := ready3 open3 [aMsg none]
def fired3 : State := ready3 { open3 with pnum := 1 } []

set_option exponentiation.threshold 600 in
set_option maxRecDepth 4000 in
theorem wit_message_start : toStart.fill 0 = some (one, .message 3) ∧ (toStart.core 0).ctx = some 0 ∧
    (toStart.core 0).inq.find? (fun k => k.dest.toNat / 2 ^ 19 % 32 = (3 : BitVec 5).toNat) = some (aMsg none) ∧ Legal toStart 0 0x1100 ∧
    ¬Legal toStart 0 0x2004 ∧ Legal toStart 0 0x2000 ∧ Legal toStart 0 0x1000 ∧ ¬Legal toStart 0 0xFFC ∧ toStart.waiters = [] ∧
    mwf true toStart.tags = true ∧ open3.rbase.toNat % 4 = 0 ∧
    (∀ b : Fin 4, ¬InEntry toStart 0 3 (2 ^ 40 + 0x800 + b)) := by unfold Legal InEntry; decide

set_option exponentiation.threshold 600 in
set_option maxRecDepth 4000 in
theorem wit_firing_start : fired3.fill 0 = some (one, .firing 3) ∧ (fired3.core 0).ctx = some 0 ∧ Memory.wf fired3.mem = true ∧
    Legal fired3 0 ((fired3.core 0).chan 3).haddr ∧ ¬Legal (ready3 { open3 with pnum := 1, haddr := 0x3000 } []) 0 0x3000 ∧
    (ready3 { open3 with pnum := 1, haddr := 0x3000 } []).fill 0 = some (one, .firing 3) := by unfold Legal; decide

/-- A deque with one task; and core 0 in a group with core 1, whose deque has one task: whole, or a range of two. -/
def poppable : State := { cmp with cores := [(0, { cmp.myCore with slots := Core.init.slots, bottom := 1 })] }
def stealable (bytes : List (Nat × Byte)) : State :=
  { withMem cmp bytes with
    cores := [(0, { cmp.myCore with slots := Core.init.slots }), (1, { Core.init with ctx := some 0, bottom := 1 })],
    sched := { cmp.sched with groups := [⟨0, 0, 0, 0, 0, 0, 2, false, false⟩] } }
def rangeTask : List (Nat × Byte) :=
  let k := (stealable []).core 1 |>.taskKey 1 0
  [(k + 19, 4), (k + 28, 2)]

set_option exponentiation.threshold 600 in
set_option maxRecDepth 4000 in
theorem wit_tasks_run : poppable.fill 0 = some (one, .pop) ∧ Memory.wf poppable.mem = true ∧ (stealable []).fill 0 = some (one, .steal 1) ∧
    ((stealable []).taskAt 1 0).info.getLsbD 26 = false ∧ (stealable rangeTask).fill 0 = some (one, .steal 1) ∧
    ((stealable rangeTask).taskAt 1 0).info.getLsbD 26 = true ∧ ((stealable rangeTask).taskAt 1 0).range = 0x200000000 := by decide

/-! ## Jobs and programs -/

/-- A running job of the slot of cmp with registers k4 up to k15, and one on pour engine 31. -/
def runJob (opc : BitVec 8) (ks : List (Fin 64 × Word)) : Job :=
  { aJob opc .running [] with k := ks.foldl (fun k p => k.set p.1 p.2) (Vector.replicate 64 0), cause := 0, fault := 0 }
def clearing : Job := runJob 11 [(4, 1), (5, 2)]
def filling : Job := { runJob 0x82 [(13, 4)] with a := 0x5000000000002000, b := 0x1100000000001, dval := 7, pour := some 31 }
def ranOut : Job := runJob 11 []
def zeroDeep : Job := runJob 4 [(0, 0x4000000000002000), (4, 2), (5, 2)]
def faulting : Job := { filling with a := 0x5000000000400000 }
def withJobs (js : List Job) : State := { cmp with jobs := [(0, js)], engs := [(engKey 0 0, { EngCtx.init with nextId := 9 })] }

set_option exponentiation.threshold 600 in
set_option maxRecDepth 4000 in
theorem wit_jobs_start : Stands (withJob cmp (aJob 4 .queued [])) 0 [] (aJob 4 .queued []) [] ∧ MayRun (withJob cmp (aJob 4 .queued [])) (aJob 4 .queued []) ∧
    PourLives cmp ∧
    (let j : Job := { aJob 5 .queued [] with id := 5 }
     let s := withJobs [aJob 0x81 .stopped [], j]
     Stands s 0 [aJob 0x81 .stopped []] j [] ∧ MayRun s j ∧ onMatrix j ∧ ∃ i ∈ [aJob 0x81 .stopped []], i.owner = j.owner ∧ i.st = .stopped) ∧
    (let i : Job := { aJob 4 .running [] with owner := ⟨1, 0⟩ }
     let j : Job := { aJob 4 .queued [] with id := 5 }
     Stands (withJobs [i, j]) 0 [i] j [] ∧ j.usesAcc = true ∧ i.usesAcc = true ∧ i.owner ≠ j.owner ∧ i.st ≠ .stopped) ∧
    OnPour cmp cmp (aJob 4 .queued []) (aJob 4 .queued []) := by
  refine ⟨?_, ?_, ⟨31, by decide⟩, ?_, ?_, ?_⟩ <;>
    first | (unfold Stands; decide) | (unfold MayRun; decide) | (unfold Stands MayRun onMatrix; decide) | (unfold OnPour; decide)

set_option exponentiation.threshold 600 in
set_option maxRecDepth 4000 in
theorem wit_jobs_complete : Stands (withJob cmp ranOut) 0 [] ranOut [] ∧ MayRun (withJob cmp ranOut) ranOut ∧ ranOut.total ≤ ranOut.progress ∧
    ranOut.ask = none ∧ ranOut.opc ≠ 4 ∧ Stands (withJob cmp zeroDeep) 0 [] zeroDeep [] ∧ zeroDeep.total = 0 ∧ zeroDeep.k[8].getLsbD 1 = false ∧
    zeroDeep.owner.core / 8 = 0 ∧ mwf 0 ((withJob cmp zeroDeep).eng 0 0).acc = true := by
  refine ⟨?_, ?_, ?_, ?_, ?_, ?_, ?_, ?_, ?_, ?_⟩ <;> first | decide | (unfold Stands; decide) | (unfold MayRun; decide)

def loadsAcc : Job := runJob 9 [(4, 2), (5, 2), (12, 0x5000000000002000), (13, 8)]
def storesAcc : Job := runJob 10 [(4, 2), (5, 1), (12, 0x5000000000002000), (13, 8)]
def loadsTable : Job := { runJob 13 [] with a := 0x2000 }
def multiplies : Job := runJob 4 [(0, 0x4000000000002000), (1, 16), (2, 0x4000000000003000), (3, 16), (4, 2), (5, 2), (6, 8)]

set_option exponentiation.threshold 600 in
set_option maxRecDepth 4000 in
theorem wit_matrix_progress :
    (∀ j ∈ [clearing, loadsAcc, storesAcc, loadsTable, multiplies],
      Stands (withJob cmp j) 0 [] j [] ∧ Running (withJob cmp j) 0 j ∧ j.rm ≠ 4 ∧ j.part = [] ∧ j.pend = []) ∧
    mwf true cmp.tags = true ∧ cmp.waiters = [] ∧ mwf 0 ((withJob cmp clearing).eng 0 0).acc = true ∧ mwf 0 ((withJob cmp clearing).eng 0 0).bank0 = true ∧
    clearing.progress < clearing.k[4].toNat ∧ fmtOf loadsAcc.k[12] = 10 ∧
    (∀ u, u < 2 → (withJob cmp loadsAcc).resolve ((withJob cmp loadsAcc).jobAgent loadsAcc) (offsetBy loadsAcc.k[12] (4 * u : Nat)) 4 permR =
      .ok ⟨keysFrom (0x2000 + 4 * u) 4, true, false, false⟩ ∧ cmp.isPoisoned (keysFrom (0x2000 + 4 * u) 4) = false) ∧
    offsetBy storesAcc.k[12] 0 = 0x2000 ∧ JobWrites (withJob cmp storesAcc) storesAcc 0x2000 word4 ∧ ToSlices (withJob cmp storesAcc) storesAcc word4 ∧
    JobReads (withJob cmp loadsTable) loadsTable 0x2000 8 here ∧
    (∀ r, r < 2 → ((withJob cmp multiplies).rowElems multiplies multiplies.k[0] 16 r 0 8).isOk = true ∧
      ((withJob cmp multiplies).rowElems multiplies multiplies.k[2] 16 r 0 8).isOk = true) ∧ min (perStep 8) 8 = 8 ∧ 0 < multiplies.total := by
  refine ⟨?_, ?_, ?_, ?_, ?_, ?_, ?_, ?_, ?_, ?_, ?_, ?_, ?_, ?_, ?_⟩ <;>
    first | decide +kernel | (unfold JobWrites JobMeets ToSlices; decide +kernel) | (unfold ToSlices; decide +kernel) | (unfold JobReads JobMeets; decide +kernel) | (intro j hj; unfold Stands Running MayRun NoneForwarded; revert j; decide +kernel)

/-- APPLY and DIAG of one bit on the field of 8 elements, source 2 and destination 3; DIAG where position 0 is void. -/
def applies (opc : BitVec 8) (d : BitVec 512) : Job :=
  { runJob opc [(10, 1), (14, 0x5000000000003000), (15, 2), (16, 3)] with d := ((Vector.replicate 16 0).set 2 d).set 3 d }

set_option exponentiation.threshold 600 in
set_option maxRecDepth 8000 in
theorem wit_field_progress :
    (∀ j ∈ [applies 5 field, applies 6 field], Stands (withJob cmp j) 0 [] j [] ∧ Running (withJob cmp j) 0 j ∧ j.rm ≠ 4 ∧ j.progress < j.total ∧
      j.part = [] ∧ dState (j.desc 2) = 0 ∧ j.k[15].toNat = 2 ∧ j.k[16].toNat = 3) ∧
    (let j := applies 5 field
     let s := withJob cmp j
     let ix := (List.range 2).map (batchIndex 3 [0] 0)
     (s.fieldRead j field ix).isOk = true ∧ (s.matEntries j (List.range 4)).isOk = true ∧
     ix.filterMap (fieldAddr field) = [0x2000, 0x2010] ∧ 
     (s.jobEmit j 1 ((ix.filterMap (fieldAddr field)).map fun a => (a, [0, 0, 0, 0]))).isOk = true) ∧
    (let j := applies 6 field
     let s := withJob cmp j
     isVoid field 0 = false ∧ isVoid field 7 = false ∧ dFmt field = 10 ∧ (s.fieldRead j field [0]).map List.length = .ok 1 ∧
     (s.matEntries j [0]).map List.length = .ok 1 ∧ j.matFmt = 10 ∧ elemAddr field (dBuffer field) (physical field 0) = 0x2000 ∧
     JobWrites s j 0x2000 word4) := by
  refine ⟨?_, ⟨?_, ?_, ?_, ?_⟩, ⟨?_, ?_, ?_, ?_, ?_, ?_, ?_, ?_⟩⟩ <;>
    first | decide +kernel | (unfold JobWrites JobMeets ToSlices; decide +kernel) | (intro j hj; unfold Stands Running MayRun NoneForwarded; revert j; decide +kernel)

def copying (flags : Word) : Job :=
  { runJob 0x81 [(1, 16), (12, 0x5000000000004000), (13, 16)] with a := 0x5000000000002000, b := 0x2000000000004 + flags, pour := some 31 }
def tagging : Job := { filling with opc := 0x83, b := 0x1000100000001 }
/-- PCOLL with one block: of 64 bytes to the own package, or to device 1. -/
def collects (dst : Word) (sends : List Send) : Job :=
  { filling with opc := 0x86, list := [0x2000, dst, 0x40, 0], sends := sends, b := 1 }

set_option exponentiation.threshold 600 in
set_option maxRecDepth 4000 in
theorem wit_pour_progress :
    (∀ j ∈ [filling, copying 0, copying 0x80000000000, tagging, collects 0x4000 [], collects 0x80010000004000 [⟨0, 8, 0, .answered 0⟩]],
      Stands (withJob cmp j) 0 [] j [] ∧ Running (withJob cmp j) 0 j ∧ j.part = []) ∧
    sizeColumn[fmtOf filling.a]? = some 4 ∧ fmtOf (copying 0).k[12] = fmtOf (copying 0).a ∧ (copying 0x80000000000).b.getLsbD 43 = true ∧
    (copying 0).b.getLsbD 43 = false ∧ filling.progress < filling.b.toNat / 2 ^ 48 * (filling.b.toNat % 2 ^ 32) ∧
    (let s := withJob cmp filling
     JobWrites s filling 0x2000 word4 ∧ ¬ToSlices s filling word4 ∧ JobMeets s (copying 0) 0x2000 4 permR word4 ∧
     JobWrites (s.used (s.jobAgent (copying 0)) 0x2000 4) (copying 0) 0x4000 ⟨keysFrom 0x4000 4, true, false, false⟩ ∧
     ToSlices s { copying 0 with opc := 0x80, pour := none } ⟨keysFrom 0x4000 4, true, false, false⟩ ∧
     s.locFull word4 = true ∧ { s with tags := [(0x800, false)] }.locFull word4 = false ∧ s.isPoisoned word4.keys = false) ∧
    (let j := collects 0x4000 []
     let s := withJob cmp j
     (s.blockBytes j (blockAt j.list 0)).map List.length = .ok 64 ∧ (blockAt j.list 0).dst.toNat % 2 ^ 56 = 0x4000 ∧
     s.jobBlock j permW 0x4000 64 = .ok (keysFrom 0x4000 64) ∧ s.sliceOver j.home (keysFrom 0x4000 64) = false ∧ s.blockFits (keysFrom 0x4000 64) false = true) ∧
    (collects 0x80010000004000 [⟨0, 8, 0, .answered 0⟩]).sends.find? (fun c => c.st = .answered 0) = some ⟨0, 8, 0, .answered 0⟩ ∧
    (net cmp).fab.reaches 1 = true ∧ (blockAt (collects 0x80010000004000 []).list 0).dst.toNat % 2 ^ 56 / 2 ^ 55 = 1 := by
  refine ⟨?_, ?_, ?_, ?_, ?_, ?_, ⟨?_, ?_, ?_, ?_, ?_, ?_, ?_, ?_⟩, ⟨?_, ?_, ?_, ?_, ?_⟩, ?_, ?_, ?_⟩ <;>
    first | decide +kernel | (unfold JobWrites JobMeets ToSlices; decide +kernel) | (unfold ToSlices; decide +kernel) | (unfold JobMeets; decide +kernel) | (intro j hj; unfold Stands Running MayRun NoneForwarded; revert j; decide +kernel)

def remapJob (r : Remap) : Job := { aJob 8 .queued [r] with d := (Vector.replicate 16 0).set 2 field, inRemap := false, pour := some 31 }
def toBegin : Remap := newRemap 2 field false fun i => i
def moved : Remap := { toBegin with started := true }
def finished : Remap := { toBegin with started := true, next := 8 }
/-- Its target is not mapped. -/
def lostField : BitVec 512 := field + 0x400000 * 2 ^ 64
def lostRemap : Job := { remapJob (newRemap 2 lostField false fun i => i) with d := (Vector.replicate 16 0).set 2 lostField }

set_option exponentiation.threshold 600 in
set_option maxRecDepth 4000 in
theorem wit_jobs_fault : Stands (withJob cmp faulting) 0 [] faulting [] ∧
    (match (withJob cmp faulting).attempt 0 faulting with | .fault c va => decide (c = 6 ∧ va = 0x400000) | _ => false) = true ∧
    faulting.pour ≠ none ∧ faulting.remaps = [] ∧ Stands (withJob cmp lostRemap) 0 [] lostRemap [] ∧
    (match (withJob cmp lostRemap).attempt 0 lostRemap with | .fault c va => decide (c = 6 ∧ va = 0x404000) | _ => false) = true ∧
    (withJob cmp lostRemap).remapMayStart 0 lostRemap = true ∧ (∀ n, lostRemap.pour = some n → RUnit.pour n ∉ cmp.repair.retired) := by
  refine ⟨?_, ?_, ?_, ?_, ?_, ?_, ?_, ?_⟩ <;>
    first | (unfold Stands; decide) | decide +kernel

set_option exponentiation.threshold 600 in
set_option maxRecDepth 8000 in
theorem wit_remaps :
    (∀ r ∈ [toBegin, moved, finished], Stands (withJob (withD cmp 2 field) (remapJob r)) 0 [] (remapJob r) [] ∧ MayRun (withJob (withD cmp 2 field) (remapJob r)) (remapJob r) ∧
      (remapJob r).remaps = [r] ∧ (remapJob r).st ≠ .stopped) ∧
    (∀ n, (remapJob moved).pour = some n → RUnit.pour n ∉ cmp.repair.retired) ∧ toBegin.started = false ∧ moved.started = true ∧ moved.complete = false ∧
    finished.complete = true ∧ cmp.tagPass (remapJob toBegin) toBegin = (wordsOf (keysFrom 0x4000 32), none) ∧ moved.inplace = false ∧
    sizeColumn[dFmt moved.before]? = some 4 ∧ (cmp.shadowElem (remapJob moved) moved 0).isOk = true ∧
    (match (withJob cmp (remapJob moved)).shadowUnit (remapJob moved) moved [] with | .did .. => true | _ => false) = true ∧
    elemAddr moved.before (dShadow moved.before) 0 = 0x4000 ∧
    cmp.resolve (cmp.jobAgent (remapJob moved)) 0x4000 4 permW = .ok ⟨keysFrom 0x4000 4, true, false, false⟩ := by
  refine ⟨?_, ?_, ?_, ?_, ?_, ?_, ?_, ?_, ?_, ?_, ?_, ?_, ?_⟩ <;>
    first | decide +kernel | (intro j hj; unfold Stands MayRun; revert j; decide +kernel)

/-- The same remap in place: its cycle of one, and that of elements 1, 2 and 4. -/
def turning (next : Nat) : Remap := { newRemap 2 field true (fun i => i) with started := true, next := next }
def wordAt2000 (P : Nat) : Loc := ⟨keysFrom (0x2000 + 4 * P) 4, true, false, false⟩

set_option exponentiation.threshold 600 in
set_option maxRecDepth 8000 in
theorem wit_in_place : (turning 0).cycle ((turning 0).leader 0) = [0] ∧ ((turning 1).cycle ((turning 1).leader 1)).length = 3 ∧
    ∀ n < 2, let r := turning n
      let ps := r.cycle (r.leader r.next)
      let j := remapJob r
      let s := withJob (withD cmp 2 field) j
      (∀ P ∈ ps, Machine.moved r P ∈ ps ∧ ∀ Q ∈ ps, Machine.moved r P = Machine.moved r Q → P = Q) ∧ r.complete = false ∧ j.pour ≠ none ∧
        ∀ P ∈ ps, elemAddr r.before (dbits r.before 0 55) P = 0x2000 + 4 * P ∧ JobMeets s j (0x2000 + 4 * P) 4 permR (wordAt2000 P) ∧
          JobMeets s j (0x2000 + 4 * P) 4 permW (wordAt2000 P) ∧ (wordAt2000 P).tagged = true ∧ (wordAt2000 P).keys.headD 0 % 4 = 0 ∧
          s.sliceOver j.home (wordAt2000 P).keys = false ∧ s.isPoisoned (wordAt2000 P).keys = false ∧
          ∀ Q ∈ ps, Q ≠ P → ∀ k ∈ (wordAt2000 Q).keys, k ∉ (wordAt2000 P).keys := by
  unfold JobMeets
  refine ⟨by decide +kernel, by decide +kernel, ?_⟩
  dsimp only
  intro n hn
  interval_cases n <;> (refine ⟨by decide +kernel, by decide +kernel, by decide, ?_⟩; decide +kernel)

/-- Programs of bank 0 in a page that is memory-side and TAGGED. -/
def bankPage (p : NbProg) : State :=
  { cmp with xlats := [⟨0, 0x200000, 0x200000, 0x200000, 0x6F⟩], carafe := { cmp.carafe with nb := [(0, [p])] } }
def lanes512 (v : Word32) : List Word32 := List.replicate 512 v
def progOf (st : NbSt) (words : List Word32) (mpc : Nat) : NbProg :=
  ⟨7, 0, one, 0, false, 1, words, 2, 3, true, [0x200000, 0x200000, 0x200000], 0, 0x3F800000, 0, 1, 0, 0, mpc, lanes512 0, lanes512 0, false, st, 0⟩

set_option exponentiation.threshold 600 in
set_option maxRecDepth 4000 in
theorem wit_bank_programs : AtHead (bankPage (progOf .queued [] 0)) 0 (progOf .queued [] 0) [] ∧ ((bankPage (progOf .queued [] 0)).microWords 1).isSome ∧
    (∀ r ∈ (progOf .queued (microBuiltin 1) 0).writes,
      ((bankPage (progOf .queued [] 0)).nbRow (progOf .queued (microBuiltin 1) 0) ((progOf .queued (microBuiltin 1) 0).rowVa r.1 r.2)).isOk = true) ∧
    AtHead (bankPage (progOf .running [0x10000000] 0)) 0 (progOf .running [0x10000000] 0) [] ∧ (progOf .running [0x10000000] 0).ba0.length = 512 ∧
    (bankPage (progOf .running [0x10000000] 0)).nbRow (progOf .running [0x10000000] 0) 0x200000 = .ok (0x200000, true) ∧
    (bankPage (progOf .running [0x20000000] 0)).nbRow (progOf .running [0x20000000] 0) 0x200000 = .ok (0x200000, true) ∧
    cmp.isPoisoned (keysFrom 0x200000 2048) = false ∧ (progOf .yielding [0x10000000] 1).words[1]? = none ∧ cmp.carafe.waiting = [] ∧
    (progOf .yielding [0x10000000, 0x10000000] 1).words[1]? = some 0x10000000 ∧
    AtHead (bankPage (progOf .yielding [0x10000000] 1)) 0 (progOf .yielding [0x10000000] 1) [] := by
  unfold AtHead; decide +kernel

/-- A load of the bank waits there; one of another bank does too. -/
def waitsAtBank (va : Word) : State :=
  let s := bankPage (progOf .yielding [0x10000000] 1)
  { withReq s (.ldn 5 3 va va) with carafe := { s.carafe with waiting := [⟨0, .req one 0⟩] } }

set_option exponentiation.threshold 600 in
set_option maxRecDepth 4000 in
theorem wit_bank_ends : (0 : Nat) + 1 < (progOf .yielding [] 0).iters ∧ (progOf .yielding [] 0).iters ≤ 1 + 1 ∧
    (progOf .yielding [] 0).banks = BitVec.ofNat 32 (2 ^ (0 % 32)) ∧ (progOf .yielding [] 0).notify = true ∧
    (waitsAtBank 0x200000).stillWaits ⟨0, .req one 0⟩ = true ∧ (waitsAtBank 0x200800).stillWaits ⟨0, .req one 0⟩ = false ∧
    (((waitsAtBank 0x200800).slot one).req 0).isSome = true ∧
    (waitsAtBank 0x200000).carafe.waiting.filter (fun w => w.bank = 0 && (waitsAtBank 0x200000).stillWaits w) = [⟨0, .req one 0⟩] ∧
    (⟨keysFrom 0x200000 4, true, true, false⟩ : Loc).bank = 0 := by decide

/-! ## Contexts -/

/-- The context table at PA 0x20000 with entry 1: one accumulator window, queues of 16 and 4096 entries; command op for context n. -/
def table1 (bytes : List (Nat × Byte)) (op : BitVec 4) (n : BitVec 6) (cs : SMap Ctx) : State :=
  { withMem ctl bytes with sched := { ctl.sched with ctxtab := 0x20000, busy := true, cmd := op, cmdCtx := n }, ctxs := cs }
def entry1 : List (Nat × Byte) := [(0x20122, 0x10), (0x20140, 4), (0x20141, 12)]
def entryOwner : List (Nat × Byte) := [(0x20122, 0x10), (0x20123, 0x10), (0x20140, 4), (0x20141, 12)]

set_option exponentiation.threshold 600 in
set_option maxRecDepth 4000 in
theorem wit_create : Commanded (table1 entry1 1 1 []) 1 1 ∧ Memory.wf (table1 entry1 1 1 []).mem = true ∧ ((table1 entry1 1 1 []).ctx 1).st = .free ∧
    GoodEntry (table1 entry1 1 1 []) 1 ∧ OneOwner (table1 entry1 1 1 []) 1 ∧ ¬GoodEntry (table1 [] 1 1 []) 1 ∧
    ((table1 entry1 1 1 [(1, { Ctx.init with st := .saved })]).ctx 1).st ≠ .free ∧
    GoodEntry (table1 entryOwner 1 1 [(2, { Ctx.init with st := .running, brewown := true })]) 1 ∧
    ¬OneOwner (table1 entryOwner 1 1 [(2, { Ctx.init with st := .running, brewown := true })]) 1 := by
  refine ⟨?_, ?_, ?_, ?_, ?_, ?_, ?_, ?_, ?_⟩ <;>
    first | decide +kernel | (unfold Commanded; decide +kernel) | (unfold GoodEntry; decide +kernel) | (unfold OneOwner; decide +kernel)

def saving (st after : CtxSt) : SMap Ctx := [(0, { Ctx.init with st := st, after := after, accw := 1, corelim := 8, save := 0x40000 })]
def haltedCore : Core := { coreOf0 { Slot.init 0 with act := some ⟨.channel 3, 0, none⟩, pc := 0x1000, wait := .halted } with
  ctx := some 0, slots := #v[{ Slot.init 0 with act := some ⟨.channel 3, 0, none⟩, pc := 0x1000, wait := .halted }, { Slot.init 1 with wait := .halted },
    { Slot.init 2 with wait := .halted }, { Slot.init 3 with wait := .halted }] }
def settledSaving : State := { table1 [] 3 0 (saving .saving .saved) with cores := [(0, haltedCore)] }

/-- Context 0 is SAVING; its slot waits in a blocking access on an empty word, here or at device 1. -/
def haltsAt (k : ReqKind) (peer : Bool) (ws : List Waiter) (sent : List Frame) : State :=
  let s := (net cmp).modMe fun x => { x with reqs := [{ req0 k with peer := peer }], wait := .sent 0 }
  { s with ctxs := saving .saving .saved, waiters := ws, tags := [(0x800, false), (0x801, false)], fab := { s.fab with sent := sent } }

set_option exponentiation.threshold 600 in
set_option maxRecDepth 4000 in
theorem wit_preempt : Commanded (table1 [] 3 0 (saving .running .saved)) 3 0 ∧ ((table1 [] 3 0 (saving .running .saved)).ctx 0).st = .running ∧
    ((table1 [] 3 0 (saving .stopped .saved)).ctx 0).st ≠ .running ∧
    (let s := { cmp with ctxs := saving .saving .saved }
     isControl 0 = false ∧ (s.core 0).ctx = some 0 ∧ (s.ctx 0).st = .saving ∧ s.waiters = [] ∧ s.served = s ∧ (s.slot one).wait = .ready ∧
     s.fab.queue ++ s.fab.sent = []) ∧
    (({ wfeWaits false with ctxs := saving .saving .saved }).slot one).wait = .wfe false ∧
    (let s := haltsAt (.load 5 3 0x2000 true) false [⟨one, 0, 0x2000, 8, .ldfe⟩] []
     (s.slot one).wait = .sent 0 ∧ (s.slot one).reqs = [{ req0 (.load 5 3 0x2000 true) with peer := false }] ∧ s.served = s ∧ (s.ctx 0).st = .saving) ∧
    (let f : Frame := { readFrame (.access (.syncLoad 0x2000 8 true)) with seq := 1 }
     let s := haltsAt (.load 5 3 0x80010000002000 true) true [] [f]
     (s.slot one).wait = .sent 0 ∧ (s.slot one).reqs = [{ req0 (.load 5 3 0x80010000002000 true) with peer := true }] ∧ s.waitsAt one 0 = [f] ∧
     f.seq ≠ 0 ∧ (∀ g ∈ s.fab.queue ++ s.fab.sent, g.body ≠ .withdraw)) := by
  unfold Commanded; refine ⟨?_, ?_, ?_, ⟨?_, ?_, ?_, ?_, ?_, ?_, ?_⟩, ?_, ⟨?_, ?_, ?_, ?_⟩, ?_, ?_, ?_, ?_, ?_⟩ <;> decide +kernel

set_option exponentiation.threshold 600 in
set_option maxRecDepth 4000 in
theorem wit_save : (settledSaving.ctx 0).st = .saving ∧ (settledSaving.ctx 0).after = .saved ∧ settledSaving.settledCtx 0 = true ∧ settledSaving.waiters = [] ∧
    Memory.wf settledSaving.mem = true ∧ (settledSaving.cores.map (·.1)).Pairwise (· < ·) ∧ Commanded settledSaving 3 0 ∧
    (settledSaving.octetsOf 0 (settledSaving.coresOf 0)).length = 0 ∧ settledSaving.sched.ctxtab.toNat + 8 ≤ (settledSaving.ctx 0).save.toNat ∧ (settledSaving.ctx 0).save.toNat + 40 ≤ 2 ^ 40 := by
  unfold Commanded; decide

/-- Context 0 is out with core c; entry 0 has one window, queues of 16, its save area at PA 0x40000. -/
def entry0 : List (Nat × Byte) := [(0x20022, 0x10), (0x2002A, 0x04), (0x20040, 4), (0x20041, 4)]
def savedIn (c : Nat) (coord : List (Nat × Byte)) (op : BitVec 4) : State :=
  table1 (entry0 ++ coord) op 0 [(0, { Ctx.init with st := .saved, savedCores := [⟨c, haltedCore, [], [], [], false⟩] })]
/-- The coordinate that the first block of the save area gives. -/
def coordWord (s : State) : Nat := s.read (0x40000 + 131072 + 0x1A500) 8

set_option exponentiation.threshold 600 in
set_option maxRecDepth 4000 in
/-- A context that is out with core 0; a lost block; a coordinate that the kernel has rewritten to core 1, and one that names cluster 100. -/
theorem wit_resume :
    let s := savedIn 0 [] 2
    let moved := savedIn 0 [(0x7A500, 4)] 2
    Commanded s 2 0 ∧ GoodEntry s 0 ∧ OneOwner s 0 ∧ (s.ctx 0).st = .saved ∧ entryAt s 0 0x28 = 0x40000 ∧ coordWord s = 0 ∧
    (coordWord (savedIn 0 [(0x7A507, 0x80)] 2)).testBit 63 = true ∧ 100 ≤ coordWord (savedIn 0 [(0x7A501, 200)] 2) / 2 ^ 9 % 128 ∧
    s.diemaxNow.toNat = 7 ∧ s.octetsOf 0 (s.ctx 0).savedCores = [] ∧ s.canBind 0 (s.ctx 0) 1 [0] [] = true ∧
    coordWord moved / 4 % 128 = 1 ∧ moved.canBind 0 (moved.ctx 0) 1 [1] [] = true ∧
    (let s := { s with cores := [(0, { Core.init with ctx := some 5 })] }; s.canBind 0 (s.ctx 0) 1 [0] [] = false ∧ Commanded s 2 0) ∧
    (s.ctx 0).savedRows = [] ∧ ((s.ctx 0).savedCores.map (·.coord)).Nodup ∧
    (∀ k ∈ (s.ctx 0).savedCores, ∀ x ∈ k.core.slots.toList, ∀ p ∈ x.parked, p.kind ≠ 3) ∧ (∀ k ∈ (s.ctx 0).savedCores, k.pad = []) ∧
    Commanded (savedIn 0 [] 4) 4 0 ∧ (savedIn 0 [] 4).grantsOf 0 = [] ∧ ((table1 entry0 4 0 []).ctx 0).st = .free := by
  refine ⟨?_, ?_, ?_, ?_, ?_, ?_, ?_, ?_, ?_, ?_, ?_, ?_, ?_, ?_, ?_, ?_, ?_, ?_, ?_, ?_, ?_⟩ <;>
    first | decide +kernel | (unfold Commanded; decide +kernel) | (unfold GoodEntry; decide +kernel) | (unfold OneOwner; decide +kernel)

/-! ## Launches and the brew table -/

/-- Launch queue 0 of context 0 at PA 0x10000 with 16 slots; slot 0 holds a descriptor of one group of one core, or nothing. -/
def launchQ (bytes : List (Nat × Byte)) : State :=
  { withMem cmp bytes with ctxs := [(0, { (cmp.ctx 0) with tbndhi := 0x2000, queues := (Vector.replicate 8 (0, 0)).set 0 (0x10000, 4) })] }
def goodQ : State := launchQ [(0x10083, 1), (0x10084, 1)]
def oneGroup : Desc := ⟨1, 1, 0, false, false, false, 0, 0, 0x1000, 0, 0x0100020000000101, 0, []⟩
def aLaunch (st : LaunchSt) : Launch := ⟨0, 0, some 0, oneGroup, st, 0, 0, 0, none⟩
def withLaunches (s : State) (ls : List Launch) : State := { s with sched := { s.sched with launches := ls, nextLaunch := 9 } }

set_option exponentiation.threshold 600 in
set_option maxRecDepth 4000 in
theorem wit_descriptor_take : ((goodQ.ctx 0).queues.toList)[0]? = some (0x10000, 4) ∧ (0x10000 : Word) ≠ 0 ∧ (goodQ.ctx 0).st = .running ∧
    Memory.wf goodQ.mem = true ∧ mwf true goodQ.tags = true ∧ goodQ.queueLoc 0 0x10000 64 = some (keysFrom 0x10000 64) ∧
    goodQ.queueLoc 0 0x10080 128 = some (keysFrom 0x10080 128) ∧ goodQ.isPoisoned (keysFrom 0x10080 128) = false ∧
    (∀ b ∈ (keysFrom 0x10080 128).take 8, goodQ.tagFull (b / 4) = true) ∧ (keysFrom 0x10000 64 ++ keysFrom 0x10080 128).Nodup ∧
    GoodDesc (descWord goodQ (keysFrom 0x10080 128)) ∧ ¬GoodDesc (descWord (launchQ []) (keysFrom 0x10080 128)) ∧
    descWord goodQ (keysFrom 0x10080 128) 1 = 0 ∧ descWord (launchQ [(0x10083, 1), (0x10084, 1), (0x10089, 0x30)]) (keysFrom 0x10080 128) 1 = 0x3000 ∧
    (∃ b ∈ (keysFrom 0x10080 128).take 8, { goodQ with tags := [(0x4020, false)] }.tagFull (b / 4) = false) ∧
    (∃ l ∈ (withLaunches goodQ [aLaunch .waitdep]).sched.launches, l.ctx = 0 ∧ l.queue = some 0 ∧ l.st = .waitdep) := by
  refine ⟨?_, ?_, ?_, ?_, ?_, ?_, ?_, ?_, ?_, ?_, ?_, ?_, ?_, ?_, ?_, ?_⟩ <;> first | decide +kernel | (unfold GoodDesc; decide +kernel)

/-- The launch of oneGroup needs 1 of channel 1 and 0 of channel 0; one needs 2 and 1 of channel 1. -/
def depOf (ls : List Launch) (n : BitVec 16) : State := { withLaunches cmp ls with ctxs := [(0, { (cmp.ctx 0) with dep := [(1, n)] })] }
def sameChannel : Launch := { aLaunch .waitdep with num := 1, desc := { oneGroup with deps := 0x01010201 } }
set_option exponentiation.threshold 600 in
set_option maxRecDepth 4000 in
theorem wit_dependences : InList (depOf [aLaunch .waitdep] 1) [] (aLaunch .waitdep) [] ∧ ((depOf [] 1).ctx 0).st = .running ∧
    needs oneGroup = ((1, 1), (0, 0)) ∧ mwf 0 ((depOf [] 1).ctx 0).dep = true ∧ Met (depOf [] 1) (aLaunch .waitdep) ∧ ¬Met cmp (aLaunch .waitdep) ∧
    needs sameChannel.desc = ((1, 2), (1, 1)) ∧ ¬Met (depOf [] 2) sameChannel ∧ Met (depOf [] 3) sameChannel ∧
    InList (depOf [sameChannel, aLaunch .waitdep] 1) [sameChannel] (aLaunch .waitdep) [] ∧ sameChannel.ctx = 0 ∧ sameChannel.st = .waitdep := by
  unfold InList Met; decide

/-- A launch of two groups of one core waits, and the first goes to core 1 of cluster 0: core 0 is in a group. -/
def twoGroups : Launch := { aLaunch .ready with desc := { oneGroup with ngrp := 2 } }
def toPlace : State := withLaunches { cmp with sched := { cmp.sched with groups := [⟨5, 0, 0, 0, 0, 0, 1, false, false⟩] } } [twoGroups]
theorem wit_chosen_run : ∃ s : State, ChosenRun s { aLaunch .ready with desc := oneGroup } 0 0 0 ∧ InList s [] (aLaunch .ready) [] ∧ aLaunch .ready ∈ s.waiting := by
  let s := withLaunches cmp [aLaunch .ready]
  have free : ∀ k, s.coreFree 0 k = true := by
    intro k
    show (match (s.core k).ctx with | none => true | some n => decide (n = 0) && (s.groupOf k).isNone) = true
    have g : s.groupOf k = none := rfl
    rw [g]
    by_cases h : k = 0
    · subst h; rfl
    · have c : s.core k = Core.init := by
        show mget Core.init [(0, _)] k = _
        simp only [mget]
        rw [if_neg (Ne.symm h)]
        split <;> rfl
      rw [c]; rfl
  have all : ∀ c, freeCores s (aLaunch .ready) 0 c = 128 := by
    intro c
    show ((List.range 128).filter fun r => s.coreFree 0 (0 * 12800 + c * 128 + r)).length = 128
    simp only [free, List.filter_true, List.length_range]
  refine ⟨s, ⟨by unfold Live; decide, ?_, ?_, ?_, fun _ _ => Nat.zero_le _⟩, by unfold InList; decide, by decide⟩
  · unfold Fits FreeTo; refine ⟨by decide, by decide, by decide, ?_, by decide, by decide⟩
    intro r _ u hu
    exact absurd hu (by simp [show s.repair.fenced = [] from rfl])
  · intro v c a _ _
    exact .inr ⟨rfl, .inr ⟨rfl, Nat.zero_le _⟩⟩
  · intro c a _
    exact .inr ⟨by rw [show freeCores s { aLaunch .ready with desc := oneGroup } 0 0 = _ from all 0,
      show freeCores s { aLaunch .ready with desc := oneGroup } 0 c = _ from all c], Nat.zero_le _⟩

/-- A launch of higher priority, which no run of cores is long enough for, goes first in the order; and a brew launch of one group. -/
def firstOf : Launch := { aLaunch .ready with num := 2, desc := { oneGroup with gsize := 200 } }
def lowPrio : Launch := { twoGroups with desc := { twoGroups.desc with prio := 1 } }
def brewLaunch : Launch := { aLaunch .ready with brew := some (255, 1, 5, 0x2000) }
set_option exponentiation.threshold 600 in
set_option maxRecDepth 4000 in
theorem wit_placing : InList toPlace [] twoGroups [] ∧ toPlace.waiting = [twoGroups] ∧ (toPlace.placeFor twoGroups).isSome ∧
    twoGroups.placed + 1 < twoGroups.desc.ngrp ∧ twoGroups.brew = none ∧
    (let s := withLaunches cmp [firstOf, lowPrio]
     s.waiting = [firstOf, lowPrio] ∧ Before s firstOf lowPrio ∧ ¬Before s lowPrio firstOf ∧ s.placeFor firstOf = none ∧ (s.placeFor lowPrio).isSome) ∧
    (let s := withLaunches cmp [twoGroups, lowPrio]; Before s twoGroups lowPrio ∧ s.placeFor twoGroups ≠ none) ∧
    InList (withLaunches cmp [brewLaunch]) [] brewLaunch [] ∧ (withLaunches cmp [brewLaunch]).waiting = [brewLaunch] ∧
    ((withLaunches cmp [brewLaunch]).placeFor brewLaunch).isSome ∧ ¬brewLaunch.placed + 1 < brewLaunch.desc.ngrp := by
  unfold InList Before; decide +kernel

def quietCore : Core := { Core.init with ctx := some 0 }
def exiting (l : Launch) (others : List Group) : State :=
  { cmp with cores := [(0, quietCore)], sched := { cmp.sched with launches := [l], groups := ⟨0, 0, 0, 0, 0, 0, 1, false, false⟩ :: others } }
def placedAll (st : LaunchSt) : Launch := { aLaunch st with placed := 1 }
def other (triggered exited : Bool) : Group := ⟨0, 1, 0, 0, 0, 1, 1, triggered, exited⟩
set_option exponentiation.threshold 600 in
set_option maxRecDepth 4000 in
theorem wit_group_exit : InList (exiting (placedAll .running) []) [] (placedAll .running) [] ∧
    (exiting (placedAll .triggered) []).sched.groups = [] ++ ⟨0, 0, 0, 0, 0, 0, 1, false, false⟩ :: [] ∧
    (∀ m ∈ (exiting (placedAll .running) []).net, ∀ x, m.launch = some x → ¬(x.1 = 0 ∧ x.2.1 = 0)) ∧ ((exiting (placedAll .running) []).core 0).ctx = some 0 ∧
    (exiting (placedAll .running) []).quiescent 0 = true ∧ (∀ k, ((exiting (placedAll .running) []).slot ⟨0, k⟩).performedAt 4 = true) ∧
    (exiting (placedAll .running) []).slices = [] ∧ (placedAll .running).desc.ngrp ≤ (placedAll .running).placed ∧
    (aLaunch .ready).placed < (aLaunch .ready).desc.ngrp ∧ InList (exiting (aLaunch .ready) []) [] (aLaunch .ready) [] ∧
    mwf 0 ((exiting (placedAll .running) []).ctx 0).dep = true ∧ ((other true false).triggered = true ∧ (other true false).exited = false) ∧
    ¬((other false false).triggered = true ∨ (other false false).exited = true) ∧ (other false true).exited = true ∧
    ({ placedAll .running with brew := some (255, 0, 0, 0) } : Launch).brew.map (·.1) = some 255 ∧ mwf 0 cmp.brew.states = true := by
  unfold InList; refine ⟨?_, ?_, ?_, ?_, ?_, ?_, ?_, ?_, ?_, ?_, ?_, ?_, ?_, ?_, ?_, ?_⟩ <;> decide +kernel

/-- Window 0 to 0 armed with an entry that waits on arrival channel 1 and has free slots on channel 2, threshold 1, READ, stash slot 3. -/
def brewing (chans : SMap (BitVec 16)) : State :=
  { owner cmp with
    brew := { (owner cmp).brew with armed := true, entries := [(0, 0x0142414300000000)], chans := chans, stash := [(3, ⟨0x2000, true, none⟩)] } }
set_option exponentiation.threshold 600 in
set_option maxRecDepth 4000 in
theorem wit_brew : ((brewing []).ctxs.find? fun c => c.2.brewown && c.2.st ≠ .free).map (·.1) = some 0 ∧ ((brewing []).ctx 0).st = .running ∧
    (brewing []).brew.armed = true ∧ (brewing []).brew.done = false ∧ (brewing []).brew.head ≤ (brewing []).brew.last ∧ (brewing []).brew.serial = false ∧
    (brewing []).sched.groups = [] ∧ (brewing []).sched.launches = [] ∧
    (mget 0 (brewing []).brew.entries 0).toNat.testBit 46 = true ∧ (mget 0 (brewing []).brew.entries 0).toNat.testBit 54 = true ∧
    (mget 0 (brewing []).brew.entries 0).toNat / 2 ^ 40 % 64 = 1 ∧ (mget 0 (brewing []).brew.entries 0).toNat / 2 ^ 48 % 64 = 2 ∧
    (mget 0 (brewing []).brew.chans 1).toNat = 0 ∧ 1 ≤ (mget 0 (brewing [(1, 1), (2, 1)]).brew.chans 1).toNat ∧
    ¬(mget 0 (brewing []).brew.entries 0).toNat / 2 ^ 56 ≤ (mget 0 (brewing [(1, 1)]).brew.chans 2).toNat ∧
    (mget 0 (brewing []).brew.entries 0).toNat / 2 ^ 56 = 1 ∧
    (mget Stash.init (let b := brewing [(1, 1), (2, 1)]; { b with brew := { b.brew with stash := [(3, ⟨0x2000, true, some 5⟩)] } }).brew.stash 3).held ≠ none ∧
    mwf 0 (brewing [(1, 1), (2, 1)]).brew.chans = true ∧ mwf 0 (brewing []).brew.states = true ∧ mwf Stash.init (brewing []).brew.stash = true ∧ State.reset.ctxs = [] := by decide

def posted (p : Post) : State := { withReq (owner (net cmp)) .post with posts := [p] }
def granting (s : State) : State :=
  { s with ctxs := [(0, { (s.ctx 0) with brewown := true })], fab := { s.fab with grants := [(2, ⟨false, true, true, true, true, 1, 0, 0x1000, 0x3000, 0x2000⟩)] } }
set_option exponentiation.threshold 600 in
set_option maxRecDepth 4000 in
theorem wit_posts : (posted ⟨one, 0, 0, true, 5, 3⟩).posts[0]? = some ⟨one, 0, 0, true, 5, 3⟩ ∧
    (posted ⟨one, 0, 0, false, 5, 3⟩).posts[0]? = some ⟨one, 0, 0, false, 5, 3⟩ ∧ mwf 0 ((posted ⟨one, 0, 0, true, 5, 3⟩).ctx 0).dep = true ∧
    mwf 0 (owner (net cmp)).brew.chans = true ∧
    (let s := { posted ⟨one, 0, 0, true, 5, 3⟩ with posts := [⟨one, 0, 0, true, 5, 3⟩, ⟨one, 1, 0, true, 5, 3⟩] }
     ∃ q ∈ s.posts.take 1, q.slot = one ∧ q.dependence = true ∧ q.ch = 5) ∧
    (let f : Frame := ⟨1, 0, ⟨7, 0⟩, 1, 0, 4, 0, 0, .post false 5 3⟩
     let s := granting (net cmp)
     { s with fab := { s.fab with arrived := [f] } }.fab.arrived[0]? = some f ∧
     ∃ x ∈ s.fab.grants, x.2.recalled = false ∧ x.2.brew = true ∧ x.2.gdev.toNat = f.src ∧ (s.ctx x.2.ctx.toNat).brewown = true) := by decide

/-! ## The fabric -/

def torusOf (ps : List Packet) : State := { cmp with fab := { cmp.fab with torus := ps } }
set_option exponentiation.threshold 600 in
set_option maxRecDepth 4000 in
theorem wit_torus : away 0 99 = 2 ∧ away 0 1 = 1 ∧ (⟨0, 0, 0, 99, 4095⟩ : Packet).age ≤ 4095 ∧ (torusOf [⟨0, 0, 0, 1, 9⟩, ⟨0, 0, 5, 1, 8⟩]).fab.torus.length = 2 ∧
    (∀ p ∈ (torusOf [⟨0, 0, 0, 1, 9⟩, ⟨0, 0, 5, 1, 8⟩, ⟨0, 0, 6, 2, 7⟩, ⟨0, 0, 7, 3, 6⟩]).fab.torus, p.die = 0 ∧ p.pos = 0 ∧ p.target ≠ 0) ∧
    (let here := (torusOf [⟨0, 0, 0, 1, 9⟩, ⟨0, 0, 5, 1, 8⟩, ⟨0, 0, 6, 2, 7⟩, ⟨0, 0, 7, 3, 6⟩, ⟨1, 5, 7, 3, 6⟩]).fab.torus.filter fun p => p.die = 0
     (∀ p ∈ here, p.pos < 100 ∧ p.target < 100) ∧ here.length = 4) := by decide

/-- A packet from port src to port dst, of a type, with a number, on its way to end e of its link; `rest` is the state of the links. -/
def onLink (e : Nat) (type : Nat) (seq : BitVec 12) (src dst : Nat) (ends : SMap KdpEnd) (ports : SMap KdpPort) : State :=
  { cmp with kdp := { cmp.kdp with ends := ends, ports := ports, flight := [(e, ⟨header type seq 0 src dst 0 0 0, 0x2000, [], none⟩)] } }
def fullEnd (n : Nat) : KdpEnd := { KdpEnd.init with spent := Vector.replicate 4 n }

set_option exponentiation.threshold 600 in
set_option maxRecDepth 4000 in
/-- A type of 1 on virtual channel 0 with four data flits; type 0, a wrong channel, and five flits. Packets in their turn, before it and after it;
one that goes to another port, whose end has a slot, or none of its own. -/
theorem wit_kdp :
    let good (h : Word) : Bool := decide (1 ≤ h.toNat / 2 ^ 56 % 64 ∧ h.toNat / 2 ^ 56 % 64 ≤ 15) &&
      ([9, 0, 0, 0, 0, 1, 1, 2, 2, 3, 3, 3, 3, 3, 3, 3][h.toNat / 2 ^ 56 % 64]? = some (h.toNat / 2 ^ 62)) && decide (h.toNat / 2 ^ 41 % 8 ≤ 4)
    good (2 ^ 56 + 4 * 2 ^ 41) = true ∧ good (15 * 2 ^ 56 + 3 * 2 ^ 62) = true ∧ good 0 = false ∧ good (2 ^ 56 + 2 ^ 62) = false ∧
    good (2 ^ 56 + 5 * 2 ^ 41) = false ∧ good (16 * 2 ^ 56) = false ∧ good (header 12 0 0 20 0 0 3 31) = true ∧ cmp.repair.rerouted = [] ∧
    cmp.repair.links = [] ∧ (header 12 0 0 20 0 0 3 31).toNat / 2 ^ 12 % 32 = 31 ∧ (header 12 0 0 20 0 0 3 31).toNat / 2 ^ 17 % 4 = 3 ∧
    (cmp.kdpEnd 40).queue = [] ∧ ((onLink 40 14 0xFFF 3 20 [] []).kdpPort 20).held = [] ∧
    mget 0 ((onLink 40 14 0xFFF 3 20 [] [(20, { KdpPort.init with next := [(15, 0xFFF)] })]).kdpPort 20).next (3 * 4 + 3) = 0xFFF ∧
    2048 ≤ ((0xFFE : BitVec 12) - 0xFFF).toNat ∧ ((0 : BitVec 12) - 0xFFF).toNat = 1 ∧ mwf 0 [(15, (0xFFF : BitVec 12))] = true ∧
    good (header 14 0 0 3 20 0 0 0) = true ∧ good (header 1 0xFFF 0 3 20 0 0 0) = true ∧ portOf 40 = 20 ∧ portOf 41 = 0 ∧
    (onLink 7 1 0 3 20 [] []).kdp.flight = [] ++ (7, ⟨header 1 0 0 3 20 0 0 0, 0x2000, [], none⟩) :: [] := by
  decide +kernel

theorem wit_kdp_slots : HasSlot (onLink 7 1 0 3 20 [] []) 41 0 ∧ (Config.poolSlots = 0 → ¬HasSlot (onLink 7 1 0 3 20 [(41, fullEnd 16)] []) 41 0) := by
  constructor
  · exact .inl (by decide)
  · rintro e (h | h)
    · exact absurd h (by decide)
    · rw [e] at h
      exact absurd h (by simp)

theorem wit_nothing_owed : NothingOwed (onLink 7 1 0 3 20 [] []) := by
  intro x k
  have e : (onLink 7 1 0 3 20 [] []).kdpEnd x = KdpEnd.init := rfl
  rw [e]
  fin_cases k <;> rfl

/-- An end with a packet that waits for a credit of channel 0, which one packet brings. -/
theorem wit_kdp_credit : ∃ q : KdpPacket, ({ fullEnd 16 with queue := [⟨header 1 0 0 3 20 0 0 0, 0x2000, [], none⟩] } : KdpEnd).queue = [q] ∧
    q.h0.toNat / 2 ^ 62 = 0 ∧ q.slot = none ∧ (fullEnd 16).spent[0] < 1 + 16 := ⟨_, rfl, by decide, rfl, by decide⟩

/-- The last ns of the slot of `net`, and the first of its second rotation; its window closes 1,000 ns earlier. -/
def netAt (t : Nat) : State := { net cmp with time := t }
set_option exponentiation.threshold 600 in
set_option maxRecDepth 4000 in
theorem wit_slots : SlotNow (netAt 9999) 0 9999 ∧ SlotNow (netAt 10000) 0 0 ∧ WindowOpen (netAt 8999) 0 8999 ∧ ¬WindowOpen (netAt 9000) 0 9000 ∧
    Names16 (netAt 0) 0 3 1 ∧ ¬Names16 (netAt 0) 0 3 2 ∧ (netAt 0).fab.waves.toList[3]? = some 192 ∧ (netAt 0).fab.busy.toList[3]? = some 0 := by
  unfold SlotNow WindowOpen Names16; decide

def pending (t : Nat) : State := { net cmp with time := t, fab := { (net cmp).fab with pendSlots := [(1, 7, 8)], pendCtrl := some (0x102, 5), pendAt := 4 } }
set_option exponentiation.threshold 600 in
set_option maxRecDepth 4000 in
theorem wit_rotation : 4 < 0 + 1 * 10000 ∧ 0 + 1 * 10000 ≤ (pending 10000).time ∧ (pending 10000).fab.pendAt ≤ (pending 10000).time ∧
    (pending 9999).fab.pendAt = 4 ∧ (pending 10000).fab.pendSlots ≠ [] ∧ (pending 9999).fab.rotbase.toNat ≤ (pending 9999).fab.pendAt ∧
    (((pending 0).fab.slots.toList.take 1).map fun e => e.1.toNat / 2 ^ 32).sum = 10000 ∧ (pending 9999).time < 10000 := by decide

def ldFrame : Frame := readFrame (.access (.read 0x2000 8))
def blockFrame : Frame := ⟨0, 1, one, 3, 0, 0, 0, 0, .block 0x2000 (List.replicate 1025 1) false 0 0 false⟩
def withQueue (s : State) (fs : List Frame) : State := { s with fab := { s.fab with queue := fs } }
set_option exponentiation.threshold 600 in
set_option maxRecDepth 4000 in
/-- Port die 0 has the turn of device 1, and port die 1 after it; 1025 bytes are charged 2 ns on 192 waves. -/
theorem wit_window_send :
    let s := withQueue (netAt 0) [ldFrame, blockFrame]
    SlotNow s 0 0 ∧ WindowOpen s 0 0 ∧ (∀ p < 4, Names16 s 0 p 1) ∧ (∀ p < 4, (s.fab.waves.toList[p]?).getD 0 ≠ 0) ∧
    (∀ q < 4, (0 + 7 - mget 3 s.fab.turn 1 % 4) % 4 ≤ (q + 7 - mget 3 s.fab.turn 1 % 4) % 4) ∧
    (let t := { s with fab := { s.fab with turn := [(1, 0)] } }
     (∀ q < 4, (1 + 7 - mget 3 t.fab.turn 1 % 4) % 4 ≤ (q + 7 - mget 3 t.fab.turn 1 % 4) % 4) ∧ mwf 3 t.fab.turn = true) ∧
    s.fab.queue = [] ++ ldFrame :: [blockFrame] ∧ isBlockBody ldFrame.body = false ∧ isBlockBody blockFrame.body = true ∧ mwf 0 s.fab.next = true ∧
    (1025 * 192 + 1024 * 192 - 1) / (1024 * 192) = 2 ∧ 2 ≤ 10000 - 1000 - 8998 ∧ 10000 - 1000 - 8999 < 2 ∧
    SlotNow (withQueue (netAt 8999) [blockFrame]) 0 8999 ∧ WindowOpen (withQueue (netAt 8999) [blockFrame]) 0 8999 := by
  unfold SlotNow WindowOpen Names16; decide

/-- Frames of device 1, with number `seq` of their slot. -/
def inFrame (req seq trims : Nat) (op : PeerOp) : Frame := ⟨1, 0, ⟨7, 0⟩, req, 0, seq, trims, 0, .access op⟩
def holdingFrames (hs : List (Bool × Frame)) : State := { netAt 0 with fab := { (netAt 0).fab with held := hs } }
set_option exponentiation.threshold 600 in
set_option maxRecDepth 4000 in
theorem wit_frames :
    let f := inFrame 1 1 0 (.read 0x1000 8)
    Names16 (netAt 0) 0 0 f.src ∧ f.dst = (netAt 0).fab.devno.toNat ∧ mget 0 (netAt 0).fab.expect (flow f.src f.slot) = 0 ∧ mwf 0 (netAt 0).fab.expect = true ∧
    (inFrame 1 1 7 (.read 0x1000 8)).trims < 8 ∧ 8 ≤ (inFrame 1 1 8 (.read 0x1000 8)).trims ∧ (netAt 0).fab.held = [] ∧ SlotNow (netAt 0) 0 0 ∧
    (holdingFrames [(false, inFrame 2 2 0 (.read 0x1008 8))]).fab.held = [(false, inFrame 2 2 0 (.read 0x1008 8))] ∧
    (∀ p ∈ (holdingFrames [(true, inFrame 3 3 0 (.read 0x1008 8))]).fab.held, p.2.seq ≠ 2 ∧ p.2.slot.core < 2 ^ 17 ∧ p.2.src < 2 ^ 15) ∧
    (¬f.dst = 5) ∧ (∃ u, exec (.acknowledgement ⟨7, 0⟩ (1, 0) 1 0 []) (netAt 0) = .next u) := by
  refine ⟨by unfold Names16; decide, by decide, by decide, by decide, by decide, by decide, by decide, by unfold SlotNow; decide, by decide, by decide,
    by decide, ⟨_, rfl⟩⟩
theorem wit_waiting_frame : Waiting (inFrame 1 1 0 (.read 0x1000 8)).body := .inl ⟨_, rfl⟩

def sentAway (k : Nat) : State :=
  let s := remoteLoad (.ldn 5 3 0x80010000002000 0x80010000002000) (.access (.read 0x2000 8))
  { s with fab := { s.fab with sent := [{ ldFrame with trims := k }] } }
set_option exponentiation.threshold 600 in
set_option maxRecDepth 4000 in
theorem wit_pulls : (sentAway 7).fab.sent[0]? = some { ldFrame with trims := 7 } ∧ (sentAway 8).fab.sent[0]? = some { ldFrame with trims := 8 } ∧
    ((sentAway 8).slot ldFrame.slot).req ldFrame.req = some { req0 (.ldn 5 3 0x80010000002000 0x80010000002000) with peer := true } ∧
    SlotNow (sentAway 0) 0 0 ∧ Names16 (sentAway 0) 0 0 1 ∧ ldFrame.port = 0 ∧ ldFrame.dst = 1 ∧ (netAt 0).fab.sent = [] ∧ (netAt 0).fab.sent.length ≤ 0 := by
  unfold SlotNow Names16; decide

/-- A grant of window offsets 0x1000 to 0x3000 to device 1: R and W, MSG and BREW, to VA 0x2000 of context 0. -/
def arrivedWith (fs : List Frame) : State := let s := granting (netAt 0); { s with fab := { s.fab with arrived := fs } }
def theGrant : Grant := ⟨false, true, true, true, true, 1, 0, 0x1000, 0x3000, 0x2000⟩
set_option exponentiation.threshold 600 in
set_option maxRecDepth 4000 in
theorem wit_peer_accesses :
    (arrivedWith [inFrame 1 1 0 (.read 0x1000 8)]).fab.grants = [] ++ (2, theGrant) :: [] ∧ theGrant.wlo ≤ 0x2FF8 ∧ 0x2FF8 + 8 ≤ theGrant.whi ∧ ¬0x2FF9 + 8 ≤ theGrant.whi ∧
    (arrivedWith []).resolve ⟨0, none, false⟩ 0x2000 8 permR = .ok here ∧ (arrivedWith []).resolve ⟨0, none, false⟩ 0x2000 8 permW = .ok here ∧
    (arrivedWith []).resolve ⟨0, none, false⟩ 0x2000 8 permRW = .ok here ∧ here.keys.Nodup ∧ here.keys.length = 8 ∧ (arrivedWith []).poison = [] ∧
    (arrivedWith []).resolve ⟨0, none, false⟩ 0x400000 8 permR = .error 6 ∧ here.tagged = true ∧
    (∃ k ∈ here.keys, { arrivedWith [] with tags := [(0x800, false)] }.tagFull (k / 4) = false) ∧
    (∀ j < 8, (mget false [(0x801, true)] ((0x2000 + j) / 4) = true → 4 ≤ j) ∧ (j = 4 → mget false [(0x801, true)] ((0x2000 + j) / 4) = true)) := by decide
set_option exponentiation.threshold 600 in
set_option maxRecDepth 4000 in
theorem wit_first_of : FirstOf (arrivedWith [inFrame 1 1 0 (.read 0x1000 8)]) (inFrame 1 1 0 (.read 0x1000 8)) ∧
    ¬FirstOf (arrivedWith [inFrame 1 1 0 (.read 0x1000 8), inFrame 2 2 0 (.read 0x1000 8)]) (inFrame 2 2 0 (.read 0x1000 8)) ∧
    Serves (arrivedWith []) 1 0x1000 8 2 theGrant ∧ (∀ i g, ¬Serves (arrivedWith []) 1 0xFF8 8 i g) := by
  refine ⟨⟨[], [], by rfl, by simp⟩, ?_, ⟨[], [], by rfl, by decide, by simp⟩, ?_⟩
  · rintro ⟨before, after, h, h' | h'⟩
    · exact absurd h' (by decide)
    · match before, h with
      | [], h => exact absurd (List.cons.inj h).1 (by decide)
      | g :: _, h =>
        have e := (List.cons.inj h).1
        exact h' g (by simp) (by subst e; decide)
  · rintro i g ⟨before, after, h, h', _⟩
    match before, h with
    | [], h =>
      have e := (List.cons.inj h).1
      injection e with _ e
      subst e
      exact absurd h' (by decide)
    | _ :: [], h => exact absurd (List.cons.inj h).2 (by simp)
    | _ :: _ :: _, h => exact absurd (List.cons.inj h).2 (by simp)

/-- A near-bank unit is at work on the bank of the bytes that a peer reads. -/
def peerAtBank : State :=
  let s := arrivedWith [inFrame 1 1 0 (.read 0x1000 8)]
  { s with xlats := [⟨0, 0, 0x200000, 0, 0x7F⟩], carafe := { s.carafe with nb := [(bankOf 0x2000, [{ aProg with bank := bankOf 0x2000 }])] } }
set_option exponentiation.threshold 600 in
set_option maxRecDepth 4000 in
theorem wit_peer_at_bank : peerAtBank.resolve ⟨0, none, false⟩ 0x2000 8 permR = .ok ⟨keysFrom 0x2000 8, true, true, false⟩ ∧
    peerAtBank.unitAt (bankOf 0x2000) = some false ∧ peerAtBank.carafe.waiting = [] ∧ theGrant.r = true := by decide

def msgFrame : Frame := ⟨1, 0, ⟨7, 0⟩, 1, 0, 1, 0, 0, .msg (aMsg none)⟩
set_option exponentiation.threshold 600 in
set_option maxRecDepth 4000 in
theorem wit_peer_messages : (arrivedWith [msgFrame]).fab.arrived = [] ++ msgFrame :: [] ∧ theGrant.recalled = false ∧ theGrant.gdev.toNat = 1 ∧ theGrant.msg = true ∧
    (∀ x ∈ (netAt 0).fab.grants, ¬(x.2.recalled = false ∧ x.2.gdev.toNat = 1 ∧ x.2.msg = true)) := by decide

def inBlock (reduce : Bool) (w : Word) : Frame := ⟨1, 0, ⟨7, 0⟩, 1, 0, 0, 0, 0, .block 0x1000 [0, 0, 0x80, 0x3F] reduce w 0 false⟩
set_option exponentiation.threshold 600 in
set_option maxRecDepth 4000 in
theorem wit_blocks : (1, (⟨7, 0⟩ : SlotId), 1) ∉ (arrivedWith [inBlock true 4]).fab.applied ∧
    (arrivedWith [inBlock true 4]).resolve ⟨0, none, false⟩ 0x2000 4 permRW = .ok ⟨keysFrom 0x2000 4, true, false, false⟩ ∧
    (arrivedWith [inBlock false 0]).resolve ⟨0, none, false⟩ 0x2000 4 permW = .ok ⟨keysFrom 0x2000 4, true, false, false⟩ ∧ 0x2000 % 65536 + 4 ≤ 65536 ∧
    (keysFrom 0x2000 4).headD 0 % 4 = 0 ∧ (arrivedWith []).waiters = [] ∧ isBlockBody (inBlock true 4).body = true ∧
    (∃ x ∈ (arrivedWith []).fab.grants, x.2.recalled = false ∧ x.2.gdev.toNat = 1 ∧ x.2.msg = true) ∧ (4 : Word).toNat / 2 ^ 9 % 128 < 100 ∧
    (1, (⟨7, 0⟩ : SlotId), 1) ∈ { arrivedWith [] with fab := { (arrivedWith []).fab with applied := [(1, ⟨7, 0⟩, 1)] } }.fab.applied := by decide

/-! ## Host, errors and repair -/

def bootAt (p : BitVec 4) : State := { State.reset with host := { HostSide.init with powered := true, phase := p } }
def hosted (s : State) : State := { s with host := { s.host with powered := true, phase := 7, up := true } }

set_option exponentiation.threshold 600 in
set_option maxRecDepth 4000 in
theorem wit_boot : State.reset.host.powered = false ∧ (bootAt 1).host.phase ≠ 0 ∧ (bootAt 7).host.fail = false ∧ (bootAt 7).host.up = false ∧
    (bootAt 3).host.phase = 3 ∧ Memory.wf (bootAt 3).mem = true ∧ mwf true (bootAt 3).tags = true ∧ (0x7FFF : Word).toNat % 2 ^ 15 = 0x7FFF ∧
    (5 : Word).toNat % 2 ^ 15 ≠ 0x7FFF ∧ State.reset.host.phase = 0 ∧ max 5 (9 : Word).toNat = 9 ∧ max 5 (3 : Word).toNat = 5 := by decide

/-- The word at PA 16 is poisoned. -/
def badWord (s : State) : State := { s with poison := [(4, true)] }
set_option exponentiation.threshold 600 in
set_option maxRecDepth 4000 in
theorem wit_host : (hosted cmp).host.up = true ∧ State.reset.host.up = false ∧ (hosted (net cmp)).fab.devset = true ∧ (hosted State.reset).fab.devset = false ∧
    (∀ c ∈ (hosted State.reset).ctxs, c.2.st = .free) ∧ (∃ c ∈ (hosted cmp).ctxs, c.2.st ≠ .free) ∧ 1000 ≤ (3600 : Word).toNat ∧
    ¬(1000 ≤ (999 : Word).toNat ∧ (999 : Word).toNat ≤ 3600) ∧ ¬(1000 ≤ (3601 : Word).toNat ∧ (3601 : Word).toNat ≤ 3600) ∧
    2 ^ 36 - 1 + [(7 : Byte)].length ≤ 2 ^ 36 ∧ Memory.wf cmp.mem = true ∧ mget false (badWord cmp).poison 4 = true ∧ State.reset.host.pwrlim.toNat < (3601 : BitVec 16).toNat ∧
    State.reset.host.clockSteps < 69 ∧ (3600 : BitVec 16).toNat ≤ State.reset.host.pwrlim.toNat := by decide

/-- Queue 0 of `launchQ` with R = 0 and 16 slots; queue 1 does not exist; queue 0 on a page without tags. -/
def rung (s : State) : State := hosted s
def rungBare : State :=
  let q := launchQ []
  hosted { q with ctxs := [(0, { (q.ctx 0) with queues := (Vector.replicate 8 (0, 0)).set 0 (0x210000, 4) })] }
set_option exponentiation.threshold 600 in
set_option maxRecDepth 4000 in
theorem wit_doorbell : (rung (launchQ [])).host.up = true ∧ ((rung (launchQ [])).ctx 0).queues.toList[0]? = some (0x10000, 4) ∧
    ((rung (launchQ [])).ctx 0).rung.toList[0]? = some 0 ∧ (0 : Word).toNat < (16 : Word).toNat ∧ (16 : Word).toNat ≤ 0 + 2 ^ 4 ∧ ¬(17 : Word).toNat ≤ 0 + 2 ^ 4 ∧
    (∀ i < 2, (rung (launchQ [])).resolve ⟨0, none, false⟩ (0x10080 + 128 * i) 8 permW = .ok ⟨keysFrom (0x10080 + 128 * i) 8, true, false, false⟩) ∧
    (rungBare.resolve ⟨0, none, false⟩ 0x210080 8 permW).map (·.tagged) = .ok false ∧ ((rung (launchQ [])).ctx 0).queues.toList[1]? = some (0, 0) ∧
    (rung (launchQ [])).waiters = [] ∧ mwf true (rung (launchQ [])).tags = true := by decide

/-- Fifteen events of a unit at TIME 0, then one within the window and one at its end. -/
def erring (u : RUnit) (t : Nat) : State := { cmp with time := t, repair := { cmp.repair with times := [(u, List.replicate 15 0)] } }
set_option exponentiation.threshold 600 in
set_option maxRecDepth 4000 in
theorem wit_errors : (((erring (.core 5) 999999999).repair.timesOf (.core 5) ++ [999999999]).drop 0).length = 16 ∧
    (erring (.core 5) 1000000000).repair.errwin.toNat * 1000 ≤ (erring (.core 5) 1000000000).time - 0 ∧ (cmp.repair.timesOf (.core 5) ++ [0]).length < 16 ∧
    mwf false cmp.poison = true := by decide

/-- Units retired, and fenced. -/
def retiredAll (us fs : List RUnit) : State := { cmp with repair := { cmp.repair with retired := us, fenced := fs } }
def rowsOf (b n : Nat) : List RUnit := (List.range n).map fun r => .dramRow 0 0 b r

set_option exponentiation.threshold 600 in
set_option maxRecDepth 4000 in
/-- Sixteen corrected events within the window, and an uncorrectable one of each kind of unit, the last of its kind among them. -/
theorem wit_lasting : MakesLasting (.correctedError (.core 5)) (erring (.core 5) 999999999) (.core 5) 1 0 16 [(.core 5, List.replicate 15 0 ++ [999999999])] ∧
    (∀ u ∈ [RUnit.dramRow 7 31 31 65535, .dramBank 0 0 0, .dramStack 7, .core 102399, .cluster 7 99, .die 7, .lane 20 0, .link 1, .link 20,
        .wavelength 3 63 2, .controlCore 15, .cremaFrame 0 0, .cremaBank 511, .slice 0, .pour 31,
        .channel 7 31, .dramDie 0 3, .carafe 4, .router 7 99, .matrixEngine 0 1, .copyUnit 2 3, .sramTier 0 5],
      MakesLasting (.uncorrectableError u none) cmp u 2 12 0 [] ∧ Standing cmp (unitWith u) ∧ u ∉ cmp.repair.retired) ∧
    Standing (erring (.core 5) 999999999) (unitWith (.core 5)) ∧ Standing (retiredAll [.core 5] []) (unitWith (.core 5)) ∧
    ¬Standing (retiredAll [.dramStack 2] []) (unitWith (.channel 2 3)) ∧ ¬Standing (retiredAll [] [.cluster 0 0]) (.core 5) ∧ ¬Standing (retiredAll [] [.die 0]) (.cluster 0 3) := by
  refine ⟨by unfold MakesLasting; decide, ?_, ⟨fun v hv => absurd hv List.not_mem_nil, fun v hv => absurd hv List.not_mem_nil⟩,
    ⟨fun v hv => absurd hv List.not_mem_nil, fun v hv hu => ?_⟩, fun h => (h.2 (.dramStack 2) (by decide) trivial).1 rfl,
    fun h => (h.1 (.cluster 0 0) (by decide)).2 ⟨by decide, by decide⟩, fun h => (h.1 (.die 0) (by decide)).2 rfl⟩
  case refine_2 =>
    obtain rfl : v = .core 5 := by simpa [retiredAll] using hv
    exact absurd hu id
  intro u h
  simp only [List.mem_cons, List.not_mem_nil, or_false] at h
  rcases h with rfl | rfl | rfl | rfl | rfl | rfl | rfl | rfl | rfl | rfl | rfl | rfl | rfl | rfl | rfl | rfl | rfl | rfl | rfl | rfl | rfl | rfl <;>
    exact ⟨.inl ⟨rfl, rfl, rfl, by decide, rfl⟩, ⟨fun v hv => absurd hv List.not_mem_nil, fun v hv => absurd hv List.not_mem_nil⟩, List.not_mem_nil⟩

def isRow (v : RUnit) : Bool := match v with | .dramRow x y z _ => x == 0 && y == 0 && z == 0 | _ => false
def isBank (v : RUnit) : Bool := match v with | .dramBank x y _ => x == 0 && y == 0 | _ => false
def isCore (v : RUnit) : Bool := match v with | .core k => k / 12800 == 0 && k / 128 % 100 == 0 | _ => false
def isCluster (v : RUnit) : Bool := match v with | .cluster e _ => e == 0 | _ => false
def isLane (v : RUnit) : Bool := match v with | .lane x _ => x == 20 | _ => false

set_option exponentiation.threshold 600 in
set_option maxRecDepth 4000 in
/-- The spares of each kind, one left and none left. -/
theorem wit_spares_used : ((rowsOf 0 63).filter isRow).length < 64 ∧ 64 ≤ ((rowsOf 0 64).filter isRow).length ∧
    (([RUnit.dramBank 0 0 5] ++ rowsOf 0 64).filter isBank).length < 2 ∧ 2 ≤ (([RUnit.dramBank 0 0 5, .dramBank 0 0 6] ++ rowsOf 0 64).filter isBank).length ∧
    RUnit.dramStack 0 ∉ rowsOf 0 64 ∧ (([1, 2, 3].map RUnit.core).filter isCore).length < 4 ∧ 4 ≤ (([1, 2, 3, 4].map RUnit.core).filter isCore).length ∧
    (([1, 2, 3].map (RUnit.cluster 0)).filter isCluster).length < 4 ∧ 4 ≤ (([1, 2, 3, 4].map (RUnit.cluster 0)).filter isCluster).length ∧
    RUnit.die 0 ∉ [1, 2, 3, 4].map (RUnit.cluster 0) ∧ Config.spareLanes 20 ≤ (((List.range (Config.spareLanes 20)).map (RUnit.lane 20)).filter isLane).length ∧
    RUnit.link 20 ∉ (List.range (Config.spareLanes 20)).map (RUnit.lane 20) ∧ (∀ p ∈ cmp.cores, p.1 = 5 → p.2.ctx = none) ∧
    (∀ p ∈ cmp.cores, p.1 = 0 → p.2.ctx = some 0) ∧ (∃ p ∈ cmp.cores, p.1 = 0) ∧ (∀ p ∈ cmp.repair.rerouted, p.2 ≠ 1) := by
  refine ⟨?_, ?_, ?_, ?_, ?_, ?_, ?_, ?_, ?_, ?_, ?_, by simp, ?_, ?_, ?_, ?_⟩
  case refine_11 =>
    have h : ∀ l : List Nat, ((l.map (RUnit.lane 20)).filter isLane).length = l.length := fun l => by induction l <;> simp_all [isLane]
    rw [h, List.length_range]
  all_goals decide

def fencedOut (us : List RUnit) (s : State) : State := { s with repair := { s.repair with fenced := us, retired := us } }
def emptied : State := { cmp with cores := [(0, { cmp.myCore with ctx := none })] }
set_option exponentiation.threshold 600 in
set_option maxRecDepth 4000 in
theorem wit_spares : RUnit.core 5 ∈ (fencedOut [.core 5] emptied).repair.fenced ∧ (∀ p ∈ (fencedOut [.core 5] emptied).cores, p.2.ctx = none) ∧
    (∃ p ∈ (fencedOut [.core 5] cmp).cores, p.1 < 102400 ∧ p.1 / 128 = 5 / 128 ∧ p.2.ctx ≠ none) ∧ RUnit.core 5 ∉ cmp.repair.fenced ∧
    (fencedOut [.core 5] emptied).cores.Pairwise (fun p q => p.1 < q.1) ∧ Memory.wf cmp.mem = true ∧
    RUnit.cluster 0 0 ∈ (fencedOut [.cluster 0 0] emptied).repair.fenced ∧ RUnit.core 5 = RUnit.core (0 * 12800 + 0 * 128 + 5) := by decide

def dieLost (s : State) : State := fencedOut [.die 0] s
def outThere : State := dieLost { emptied with ctxs := [(0, { (emptied.ctx 0) with st := .saved, save := 0x40000, savedCores := [⟨7 * 12800, haltedCore, [], [], [], false⟩] })] }
/-- The coordinate of core 0 of die 7 in the first block of its save area. -/
def named7 : State := { outThere with mem := [⟨0x40000 + 131072 + 0x1A502, 7⟩] }
set_option exponentiation.threshold 600 in
set_option maxRecDepth 4000 in
theorem wit_dies : cmp.diemaxNow.toNat = 7 ∧ RUnit.die 0 ∈ (dieLost cmp).repair.fenced ∧ ((dieLost cmp).ctx 0).st = .running ∧
    (∃ p ∈ (dieLost cmp).cores, p.1 < 102400 ∧ p.1 / 12800 = 0 ∧ p.2.ctx = some 0) ∧ (∀ p ∈ outThere.cores, p.2.ctx = none) ∧
    outThere.ctxs.length = 1 ∧ (outThere.ctx 0).st = .saved ∧ RUnit.die 0 ∈ outThere.repair.fenced ∧ outThere.waiters = [] ∧ Memory.wf named7.mem = true ∧
    named7.read (0x40000 + 131072 + 0x1A500) 8 / 2 ^ 16 % 8 = 7 ∧ RUnit.die 7 ∉ cmp.repair.fenced := by decide

/-- Hub link 1 has failed; on its hub side waits a request of port 3 to port 1, which holds a slot of the hub's end of link 3. -/
def waiting3 : KdpPacket := ⟨header 1 0 0 3 1 0 0 0, 0x2000, [], some 7⟩
def cutOff (links : List Nat) (around : List (Nat × Nat)) : State :=
  { cmp with
    repair := { cmp.repair with links := links, rerouted := around },
    kdp := { cmp.kdp with ends := [(3, { KdpEnd.init with queue := [waiting3] })] } }
set_option exponentiation.threshold 600 in
set_option maxRecDepth 4000 in
theorem wit_links : 1 ∈ (cutOff [1] []).repair.links ∧ 1 ∉ cmp.repair.links ∧ physOf cmp 0 + 1 = 1 ∧ Way (cutOff [1] []) 1 2 ∧ Way (cutOff [1] []) 1 8 ∧
    (∀ via, ¬Way (cutOff [1, 2, 8] []) 1 via) ∧ (cutOff [1] []).repair.rerouted = [] ∧ ((cutOff [1] []).kdpEnd 2).queue = [] ∧
    ((cutOff [1] []).kdpEnd 3).queue = [waiting3] ∧ waiting3.slot = some 7 ∧ waiting3.h0.toNat / 2 ^ 33 % 256 = 3 ∧ 3 ∉ [1] ∧
    ((cutOff [1] []).kdpEnd 7).queue = [] ∧ ((cutOff [1] []).kdpPort 0).asked = [] ∧ HasSlot (cutOff [1] []) 7 3 ∧
    CarriesNone (cutOff [1] []) 1 ∧ CarriesNone (cutOff [1] [(1, 2)]) 5 ∧ ¬CarriesNone (cutOff [1] [(1, 2)]) 2 ∧ ¬CarriesNone (cutOff [1] [(1, 2)]) 21 := by
  refine ⟨by decide, by decide, by decide, ⟨2, .inl ⟨by decide, by decide⟩, by decide, by decide, rfl⟩, ⟨8, .inr ⟨by decide, by decide⟩, by decide, by decide, rfl⟩,
    ?_, rfl, by decide, by decide, rfl, by decide, by decide, by decide, by decide, .inl (by decide), by unfold CarriesNone; decide, by unfold CarriesNone; decide,
    by unfold CarriesNone; decide, by unfold CarriesNone; decide⟩
  rintro via ⟨next, ⟨rfl, -⟩ | ⟨rfl, -⟩, -, h, -⟩ <;> exact absurd (by decide) h
theorem wit_links_owe_nothing : NothingOwed (cutOff [1] []) := by
  intro x k
  have e : ((cutOff [1] []).kdpEnd x).owed = KdpEnd.init.owed := by
    simp only [State.kdpEnd, cutOff, mget]
    split
    · rfl
    · simp
  rw [e]
  fin_cases k <;> rfl

/-- A package whose source is device 1, with a period of 1,000 µs. -/
def follows (s : State) : State := { s with repair := { s.repair with timectl := 0x8001003E8000 } }
set_option exponentiation.threshold 600 in
set_option maxRecDepth 4000 in
/-- A package that is its own master, one with neither, one that sees its source or not; a loss, and the end of a period. -/
theorem wit_time : cmp.repair.timectl.toNat % 2 = 1 ∧ { cmp with repair := { cmp.repair with timectl := 0x3E8000 } }.repair.timectl.toNat % 2 = 0 ∧
    cmp.repair.alignLost = false ∧ cmp.repair.exchanged + 3 * (cmp.repair.timectl.toNat / 2 ^ 12 % 2 ^ 20 * 1000) = 3000000 ∧
    (follows (netAt 0)).repair.timectl.toNat % 2 = 0 ∧ (follows (netAt 0)).repair.timectl.toNat / 2 ^ 47 % 2 = 1 ∧ cmp.repair.pendSkew = none ∧
    (∃ n : Fin 4, (follows (netAt 0)).fab.open? 0 n ((follows (netAt 0)).repair.timectl.toNat / 2 ^ 32 % 2 ^ 15) = true) ∧
    (¬∃ n : Fin 4, (follows (netAt 9500)).fab.open? 9500 n ((follows (netAt 9500)).repair.timectl.toNat / 2 ^ 32 % 2 ^ 15) = true) ∧
    { cmp with repair := { cmp.repair with alignLost := true } }.repair.alignLost = true ∧ cmp.repair.periodEnd = 1000000 ∧
    { cmp with repair := { cmp.repair with pendSkew := some 9 } }.repair.pendSkew = some 9 ∧ cmp.repair.slew = 0 := by decide
set_option exponentiation.threshold 600 in
set_option maxRecDepth 4000 in
/-- The first window of the period that names the source, and the second. -/
theorem wit_time_window :
    let opens (time : Nat) : Prop := ∃ n : Fin 4, (follows (netAt 0)).fab.open? time n 1 = true
    opens 0 ∧ opens 10000 ∧ (follows (netAt 0)).repair.timectl.toNat / 2 ^ 32 % 2 ^ 15 = 1 ∧ SlotNow (netAt 10000) 0 0 ∧
      cmp.repair.periodEnd - max 1000 (cmp.repair.timectl.toNat / 2 ^ 12 % 2 ^ 20 * 1000) = 0 := by
  unfold SlotNow; decide

/-! ## The whole machine -/

set_option exponentiation.threshold 600 in
set_option maxRecDepth 4000 in
theorem wit_round_trip : (Instr.brkpt 0x7FF).wf = true ∧ (encode (.brkpt 0x7FF)).isSome ∧ (decode 0x08000000).isOk = true := by decide

/-- The word of MOV g0 stands at PA 0x1000, where slot 0 of control core 0 issues. -/
def issuing (s : State) : State := withMem s [(0x1003, 8)]
def only : SlotId := ⟨102400, 0⟩
set_option exponentiation.threshold 600 in
set_option maxRecDepth 4000 in
theorem wit_issuing : Issuing (issuing ctl) only ∧ Chosen (issuing ctl) only := by
  refine ⟨⟨by decide, by decide, by decide, by decide, by decide, by decide, by decide, ?_, by decide⟩, by decide, ?_⟩
  · intro g h
    rw [show ((issuing ctl).slot only).region = none from by decide] at h
    cases h
  · rintro ⟨c, k⟩ hc ho hi
    obtain rfl : c = 102400 := hc
    refine absurd ?_ hi.2.2.2.1
    clear hi
    revert ho
    revert k
    decide
/-- Two slots of one core: slot 1 has the lower priority number, or the same and is next in turn. -/
def twoSlots (p q : BitVec 2) (last : Fin 4) : State :=
  { issuing cmp with cores := [(0, { coreOf0 { Slot.init 0 with act := some ⟨.channel 3, p, none⟩, pc := 0x1000 } with
      ctx := some 0, rr := Vector.replicate 4 last,
      slots := #v[{ Slot.init 0 with act := some ⟨.channel 3, p, none⟩, pc := 0x1000 }, { Slot.init 1 with act := some ⟨.channel 4, q, none⟩, pc := 0x1000 },
        Slot.init 2, Slot.init 3] })] }
set_option exponentiation.threshold 600 in
set_option maxRecDepth 4000 in
theorem wit_issuing_compute : Issuing (issuing cmp) one ∧ Issuing (twoSlots 1 0 1) ⟨0, 1⟩ ∧
    (prioOf (twoSlots 1 0 1) ⟨0, 1⟩ < prioOf (twoSlots 1 0 1) one) ∧ prioOf (twoSlots 0 0 0) ⟨0, 1⟩ = prioOf (twoSlots 0 0 0) one ∧
    turnOf (twoSlots 0 0 0) ⟨0, 1⟩ < turnOf (twoSlots 0 0 0) one ∧ turnOf (twoSlots 0 0 1) one < turnOf (twoSlots 0 0 1) ⟨0, 1⟩ := by
  refine ⟨⟨by decide, by decide, fun _ => ⟨0, by decide, by decide⟩, by decide, by decide, by decide, by decide, ?_, by decide⟩,
    ⟨by decide, by decide, fun _ => ⟨0, by decide, by decide⟩, by decide, by decide, by decide, by decide, ?_, by decide⟩, by decide, by decide, by decide, by decide⟩
  · intro g h
    rw [show ((issuing cmp).slot one).region = none from by decide] at h
    cases h
  · intro g h
    rw [show ((twoSlots 1 0 1).slot ⟨0, 1⟩).region = none from by decide] at h
    cases h
def codeAt : Loc := ⟨keysFrom 0x1000 4, true, false, false⟩
set_option exponentiation.threshold 600 in
set_option maxRecDepth 4000 in
theorem wit_holds : Holds (issuing ctl) only 0x08000000 := ⟨codeAt, ⟨by decide, by decide, by decide⟩, by decide, by decide⟩
set_option exponentiation.threshold 600 in
set_option maxRecDepth 4000 in
/-- A pc that is not mapped; a word that is no instruction; a poisoned word; a word that the cache lists; a WFE that an event has ended. -/
theorem wit_holds_none :
    (let s := cmp.modMe fun x => { x with pc := 0x400000 }
     s.resolve (s.agent one) 0x400000 4 permX = .error 6 ∧ mfind (s.core 0).icache (pcKey s one) = none) ∧
    (decode 0).isOk = false ∧ Holds ctl only 0 ∧ FetchesFrom ctl only codeAt ∧ { ctl with poison := [(0x400, true)] }.isPoisoned codeAt.keys = true ∧
    mfind ((cmp.modCore 0 fun c => { c with icache := [(0x1000, 0x08000000)] }).core 0).icache (pcKey cmp one) = some 0x08000000 ∧
    (woken.slot one).wait = .wfe true ∧ 2 ^ 55 ≤ ((cmp.modMe fun x => { x with pc := 2 ^ 55 }).slot one).pc.toNat := by
  refine ⟨by decide, by decide, ⟨codeAt, ⟨by decide, by decide, by decide⟩, by decide, by decide⟩, ⟨by decide, by decide, by decide⟩, by decide, by decide, by decide, by decide⟩

set_option exponentiation.threshold 600 in
set_option maxRecDepth 4000 in
theorem wit_agenda : encode .powerGood = none ∧ (Instr.powerGood).wf = true ∧ inInstruction .powerGood = false ∧ ctl.fab.pendSlots = [] ∧ ctl.fab.pendCtrl = none ∧
    ctl.repair.slew = 0 ∧ ctl.brew.armed = false ∧ ctl.brew.cause = 0 ∧ ctl.time + 999999 < ctl.repair.periodEnd ∧ (∀ c ∈ ctl.ctxs, c.2.st ≠ .saving) ∧
    (let s := { cmp with ctxs := saving .saving .saved }
     ∃ p ∈ s.cores, p.2.ctx = some 0 ∧ (s.ctx 0).st = .saving ∧ ∃ x ∈ p.2.slots.toList, x.act ≠ none ∧ x.wait = .ready) := by
  decide
set_option exponentiation.threshold 600 in
set_option maxRecDepth 4000 in
/-- A context that is to halt has a slot whose load waits on a tag, 400 ns after it was asked. -/
theorem wit_agenda_waiter :
    let s : State := { cmp with time := 400, ctxs := [(0, { (cmp.ctx 0) with st := .saving, haltAt := 0 })], waiters := [⟨one, 3, 0x400, 8, .ldf⟩] }.modMe
      fun x => { x with wait := .sent 3 }
    (∃ p ∈ s.cores, p.2.ctx = some 0 ∧ (s.ctx 0).st = .saving ∧ (∃ w ∈ s.waiters, w.sl = ⟨p.1, 0⟩ ∧ (s.slot ⟨p.1, 0⟩).wait = .sent w.req) ∧
      (s.slot ⟨p.1, 0⟩).act ≠ none) ∧ s.time < (s.ctx 0).haltAt + 500 := by
  decide
set_option exponentiation.threshold 600 in
set_option maxRecDepth 4000 in
/-- A third period ends without an exchange with the source; a package that has no master. -/
theorem wit_agenda_lost :
    let s := { follows ctl with time := 2999999, repair := { (follows ctl).repair with periodEnd := 3500000 } }
    s.repair.timectl.toNat % 2 = 0 ∧ s.repair.timectl.toNat / 2 ^ 47 % 2 = 1 ∧ s.repair.alignLost = false ∧ s.time + 1 < s.repair.periodEnd ∧
      s.repair.exchanged + 3 * (s.repair.timectl.toNat / 2 ^ 12 % 2 ^ 20 * 1000) ≤ s.time + 1 ∧
      s.time < s.repair.exchanged + 3 * (s.repair.timectl.toNat / 2 ^ 12 % 2 ^ 20 * 1000) := by
  decide
set_option exponentiation.threshold 600 in
set_option maxRecDepth 4000 in
theorem wit_steps : NamesRealSlots ctl ∧ NamesRealSlots cmp ∧ Canonical ctl ∧ Canonical (issuing cmp) := by
  refine ⟨⟨by decide, fun _ h => (List.not_mem_nil h).elim⟩, ⟨by decide, fun _ h => (List.not_mem_nil h).elim⟩, by unfold Canonical; decide,
    by unfold Canonical; decide⟩
set_option exponentiation.threshold 600 in
set_option maxRecDepth 4000 in
/-- From State.reset itself a step completes: the slot has no activation and issues nothing. -/
theorem wit_reset_step : NamesRealSlots State.reset ∧ (match step State.reset with | .next _ => true | _ => false) = true := by
  refine ⟨⟨by decide, fun _ h => (List.not_mem_nil h).elim⟩, by decide⟩

end Sys2Proof.Tests
end

/-!
SUPPORT. Instructions that end by writing one register: what the statements call `Gives`, said once for State.retireG and for the register
forms of two operands.
-/

namespace Sys2Proof.Proofs

open Sys2Proof.Machine Sys2Proof.Claims

/-- Going on at the next word leaves the registers and their tags as they are. -/
@[simp] theorem readG_next (x : Slot) (r : Reg) : x.next.readG r = x.readG r := rfl
@[simp] theorem tagG_next (x : Slot) (r : Reg) : x.next.tagG r = x.tagG r := rfl

theorem regIs_writeG_next (x : Slot) (d : Reg) (v : Word) : RegIs x (x.writeG d v).next d v := fun r => by
  simp [Slot.readG_writeG, Slot.tagG_writeG]

/-- After the write of a register and the move to the next word, the slot is the old one at the next word but for g and its tags. -/
theorem writeG_next_frame (x : Slot) (d : Reg) (v : Word) :
    (x.writeG d v).next = { atNext x with g := (x.writeG d v).next.g, gt := (x.writeG d v).next.gt } := by
  unfold Slot.writeG; split <;> rfl

/-- A change of the issuing slot is a change of nothing else. -/
theorem onlySlot_modMe (s : State) (f : Slot → Slot) : OnlySlot s (s.modMe f) (f s.me) := by
  obtain ⟨hme, hcur, hslot, hcore, hrest⟩ := s.modMe_slots f
  exact ⟨⟨hme, hcur, hslot, hcore⟩, hrest⟩

/-- An instruction that ends by State.retireG gives the value it writes. -/
theorem gives_of_retireG {i : Instr} {s : State} {d : Reg} {v : Word} (h : exec i s = s.retireG d v) : Gives i s d v := by
  refine ⟨s.modMe fun x => (x.writeG d v).next, h, ?_, ?_⟩
  · rw [State.me_modMe]
    exact regIs_writeG_next s.me d v
  · rw [State.me_modMe, ← writeG_next_frame]
    exact onlySlot_modMe s _

/-- An instruction of the two-operand form gives f of its operands, once it can read both and write its destination. -/
theorem gives_of_alu2 {i : Instr} {s : State} {d a b : Reg} {x y : Bool} {f : Word → Word → Word} (ha : CanRead s a) (hb : CanRead s b)
    (hd : CanWrite s d) (h : exec i s = alu2 s d a b x y f) : Gives i s d (f (s.me.readG a) (s.me.readG b)) :=
  gives_of_retireG (h.trans (alu2_run f ha hb hd))

end Sys2Proof.Proofs

/-!
Division (R69): the model's four functions are the quotient and the remainder of the rule, and the instructions write them.
-/

namespace Sys2Proof.Proofs

open Sys2Proof.Machine Sys2Proof.Claims

/-! ## The functions of the rule -/

/-- In the corner of R69 the exact quotient is 2^63, whose low 64 bits are those of -2^63: truncation alone gives the rule's value. -/
theorem divS_eq_quotient (a b : Word) : divS a b = quotient true a b := by
  unfold divS quotient int
  by_cases hb : b = 0
  · rw [if_pos hb, if_pos hb]; rfl
  · by_cases hc : a.toInt = -2 ^ 63 ∧ b.toInt = -1
    · obtain ⟨ha, hm⟩ := hc
      rw [if_neg hb, if_neg hb, if_pos ⟨rfl, ha, hm⟩, ha, hm]; decide
    · rw [if_neg hb, if_neg hb, if_neg fun h => hc h.2, if_pos rfl]

/-- In the corner of R69 the exact quotient times -1 is the dividend, so the remainder is 0. -/
theorem remS_eq_remainder (a b : Word) : remS a b = remainder true a b := by
  unfold remS remainder int
  by_cases hb : b = 0
  · rw [if_pos hb, if_pos hb]
  · by_cases hc : a.toInt = -2 ^ 63 ∧ b.toInt = -1
    · obtain ⟨ha, hm⟩ := hc
      rw [if_neg hb, if_neg hb, if_pos ⟨rfl, ha, hm⟩, ha, hm]; decide
    · rw [if_neg hb, if_neg hb, if_neg fun h => hc h.2, if_pos rfl]

theorem divU_eq_quotient (a b : Word) : divU a b = quotient false a b := by
  unfold divU quotient num
  by_cases hb : b = 0
  · rw [if_pos hb, if_pos hb]; rfl
  · rw [if_neg hb, if_neg hb, if_neg (by simp), if_neg (by simp)]

/-- The remainder of the division of natural numbers is what the quotient leaves. -/
theorem remU_eq_remainder (a b : Word) : remU a b = remainder false a b := by
  unfold remU remainder num
  by_cases hb : b = 0
  · rw [if_pos hb, if_pos hb]
  · rw [if_neg hb, if_neg hb, if_neg (by simp), if_neg (by simp), Nat.mod_eq_sub_div_mul]

/-- A zero divisor: the quotient is all ones and the remainder is the dividend, signed or not. -/
theorem quotient_by_zero (signed : Bool) (a : Word) : quotient signed a 0 = 0xFFFFFFFFFFFFFFFF := rfl
theorem remainder_by_zero (signed : Bool) (a : Word) : remainder signed a 0 = a := rfl

/-! ## The instructions -/

section
variable {s : State} {d a b : Reg} (x y : Bool) (ha : CanRead s a) (hb : CanRead s b) (hd : CanWrite s d)
include ha hb hd

theorem div_gives_quotient : Gives (.div d a b x y) s d (quotient true (s.me.readG a) (s.me.readG b)) := by
  rw [← divS_eq_quotient]
  exact gives_of_alu2 ha hb hd (exec_div d a b x y s)

theorem divu_gives_quotient : Gives (.divu d a b x y) s d (quotient false (s.me.readG a) (s.me.readG b)) := by
  rw [← divU_eq_quotient]
  exact gives_of_alu2 ha hb hd (exec_divu d a b x y s)

theorem rem_gives_remainder : Gives (.rem d a b x y) s d (remainder true (s.me.readG a) (s.me.readG b)) := by
  rw [← remS_eq_remainder]
  exact gives_of_alu2 ha hb hd (exec_rem d a b x y s)

theorem remu_gives_remainder : Gives (.remu d a b x y) s d (remainder false (s.me.readG a) (s.me.readG b)) := by
  rw [← remU_eq_remainder]
  exact gives_of_alu2 ha hb hd (exec_remu d a b x y s)

end

/-- Register g0 can always be read, and reads as 0. -/
theorem canRead_zero (s : State) : CanRead s 0 := rfl
theorem readG_zero (x : Slot) : x.readG 0 = 0 := rfl

/-- Settles O2: each row of the table is an instruction of the two-operand form whose function is the rule's, and the worked example divides
7 by g0, which reads as 0. -/
theorem divisionNeverTraps : Obligations.DivisionNeverTraps := by
  unfold Obligations.DivisionNeverTraps
  refine ⟨fun s d a b x y ha hb hd p hp => ?_, fun s h6 h5 h7 => ⟨?_, ?_⟩⟩
  · simp only [divTable, List.mem_cons, List.not_mem_nil, or_false] at hp
    obtain rfl | rfl | rfl | rfl := hp
    · exact div_gives_quotient x y ha hb hd
    · exact divu_gives_quotient x y ha hb hd
    · exact rem_gives_remainder x y ha hb hd
    · exact remu_gives_remainder x y ha hb hd
  · have hq := divu_gives_quotient false false h6 (canRead_zero s) h5
    rwa [readG_zero, quotient_by_zero] at hq
  · have hr := remu_gives_remainder false false h6 (canRead_zero s) h5
    rwa [readG_zero, remainder_by_zero, h7] at hr

end Sys2Proof.Proofs

/-!
BRWFREE (R242): the slot that the low bits of ga name is FREE afterwards, and nothing else of the table changes.
-/

namespace Sys2Proof.Proofs

open Sys2Proof.Machine Sys2Proof.Claims

/-! ## The brew table -/

/-- The brew table with stash slot i FREE; its stash address stays loaded (R242). -/
def freeStash (b : Brew) (i : Nat) : Brew := { b with stash := mput b.stash i { b.stashAt i with held := none } }

@[simp] theorem stashAt_freeStash_same (b : Brew) (i : Nat) : (freeStash b i).stashAt i = { b.stashAt i with held := none } :=
  mget_mput_same _ _ _ _

theorem stashAt_freeStash_other (b : Brew) {i j : Nat} (h : j ≠ i) : (freeStash b i).stashAt j = b.stashAt j :=
  mget_mput_other _ _ _ h.symm

theorem freeStash_frame (b : Brew) (i : Nat) : { freeStash b i with stash := b.stash } = b := rfl

/-! ## Ends of instructions -/

/-- An instruction that ends by State.stall waits. -/
theorem waits_of_stall {i : Instr} {s : State} (h : exec i s = s.stall) : Waits i s :=
  ⟨s.block s.cur, h, onlySlot_modMe s fun x => { x with wait := .retry }⟩

/-- An instruction that gives the package the brew table b and ends by State.retireG changes that table and the issuing slot alone. -/
theorem retireG_of_brew (s : State) (b : Brew) (d : Reg) (v : Word) : ∃ t, ({ s with brew := b } : State).retireG d v = .next t ∧
    RegIs s.me t.me d v ∧ SlotIs s t { atNext s.me with g := t.me.g, gt := t.me.gt } ∧ t.brew = b ∧
    { t with cores := s.cores, brew := s.brew } = s := by
  have hme : ({ s with brew := b } : State).me = s.me := rfl
  refine ⟨({ s with brew := b } : State).modMe fun x => (x.writeG d v).next, rfl, ?_, ?_, State.modMe_brew .., rfl⟩
  · rw [State.me_modMe, hme]
    exact regIs_writeG_next s.me d v
  · rw [State.me_modMe, hme, ← writeG_next_frame]
    exact (onlySlot_modMe { s with brew := b } _).1

/-! ## The instruction -/

/-- One check: the trap where its condition holds, and else the rest. -/
theorem checked_failIf (s : State) (c : Bool) (cause : BitVec 8) (tval : Word) (k : Out) :
    checked s (failIf c cause tval) k = if c then s.trap cause tval else k := by
  cases c <;> rfl

/-- A BREW instruction of the table's owner, with full operands and room in OUTST: a check that fails traps; else it waits or runs. -/
theorem brewForm_run {s : State} {i : Instr} {d a b : Reg} {x y : Bool} {fault : Option (BitVec 8 × Word)} {wait : Bool} {k : Out}
    (hd : CanRead s d) (ha : CanRead s a) (hb : CanRead s b) (howns : (s.ctx (s.ctxOf s.cur)).brewown = true)
    (hroom : s.myCore.outstFull = false) :
    brewForm s i d a b x y fault wait k = checked s fault (if wait then s.stall else k) := by
  unfold CanRead at hd ha hb
  unfold brewForm ecForm
  rw [withOperands_run (by simp [srcD, srcA, srcB, Source.tag, hd, ha, hb]) (by simp [Dest.tag, hd])]
  simp [State.ownsBrew, howns, hroom]

/-- Bits 63:6 of a word are not all zero just where it is 64 or more. -/
theorem extract_above_six (w : Word) : w.extractLsb' 6 58 ≠ 0 ↔ 64 ≤ w.toNat := by
  have hzero : (0 : BitVec 58).toNat = 0 := rfl
  rw [ne_eq, ← BitVec.toNat_inj, BitVec.extractLsb'_toNat, hzero, Nat.shiftRight_eq_div_pow]
  omega

section
variable {s : State} {d a : Reg} (x : Bool) (hd : CanRead s d) (ha : CanRead s a)
  (howns : (s.ctx (s.ctxOf s.cur)).brewown = true) (hroom : s.myCore.outstFull = false)
include hd ha howns hroom

theorem brwfree_traps (h : 64 ≤ (s.me.readG a).toNat) : Traps (.brwfree d a x) s 7 (s.me.readG a) := by
  unfold Traps
  rw [exec_brwfree, execBrwfree, brewForm_run hd ha (canRead_zero s) howns hroom, checked_failIf,
    if_pos (decide_eq_true ((extract_above_six _).2 h))]
  rfl

/-- With ga below 64 no check fails, and what BRWFREE does next turns on the stores it releases and on slot ga alone. -/
theorem brwfree_run (h : (s.me.readG a).toNat < 64) : exec (.brwfree d a x) s =
    if s.ordered 4 = false then s.stall
    else if (s.brew.stashAt ((s.me.readG a).toNat % 64)).held = none then s.retireG d 1
    else ({ s with brew := freeStash s.brew ((s.me.readG a).toNat % 64) } : State).retireG d 0 := by
  have hlow : ((s.me.readG a).extractLsb' 0 6).toNat = (s.me.readG a).toNat % 64 := by simp
  have hhigh : ¬(s.me.readG a).extractLsb' 6 58 ≠ 0 := mt (extract_above_six _).1 h.not_ge
  rw [exec_brwfree, execBrwfree, brewForm_run hd ha (canRead_zero s) howns hroom, checked_failIf,
    if_neg (mt of_decide_eq_true hhigh), hlow]
  cases s.ordered 4 with
  | false => rfl
  | true =>
    cases (s.brew.stashAt ((s.me.readG a).toNat % 64)).held with
    | none => rfl
    | some _ => rfl

end

/-- Settles O25: BRWFREE traps, waits, finds the slot FREE or frees it. -/
theorem stashSlotsAreFreed : Obligations.StashSlotsAreFreed := by
  unfold Obligations.StashSlotsAreFreed
  intro s d a x hd ha howns hroom
  refine ⟨brwfree_traps x hd ha howns hroom, fun hlt => ?_⟩
  have hrun := brwfree_run x hd ha howns hroom hlt
  refine ⟨fun hwait => ?_, fun hord hfree => ?_, fun hord hheld => ?_⟩
  · exact waits_of_stall (hrun.trans (if_pos hwait))
  · exact gives_of_retireG (by rw [hrun, hord, if_neg (by decide), if_pos hfree])
  · rw [hrun, hord, if_neg (by decide), if_neg hheld]
    obtain ⟨t, hnext, hreg, hslot, hbrew, hrest⟩ :=
      retireG_of_brew s (freeStash s.brew ((s.me.readG a).toNat % 64)) d 0
    refine ⟨t, hnext, hreg, hslot, ?_, fun j hj => ?_, ?_, hrest⟩
    · rw [hbrew, stashAt_freeStash_same]
    · rw [hbrew, stashAt_freeStash_other _ hj]
    · rw [hbrew, freeStash_frame]

end Sys2Proof.Proofs
